-- ==== Sys2Proof/Word.lean ====
section
/-! DEFINITION. The words of the Efber F880: bytes, 64-bit words and sparse tables. -/

namespace Sys2Proof

/-- One byte of a memory, record or message (R4). -/
abbrev Byte := BitVec 8

/-- One 64-bit word: a register, an address register or a program word. -/
abbrev Word := BitVec 64

/-- A sparse table by number; an unlisted number has the table's default value. -/
abbrev Tab (α : Type) := List (Nat × α)

end Sys2Proof
end

