-- ==== Sys2Proof/Config.lean ====
section
/-! DEFINITION. What an implementation fixes and what the spec leaves open: constants without a body. -/

namespace Sys2Proof.Config

/-- SHA-512 of a byte string (R44, R203, R385); only equality of digests is used. DESIGN CHOICE, log 9. -/
opaque sha512 : List Byte → BitVec 512

/-- Whether an Ed25519 signature by a public key over a digest verifies (R44, R378): key, digest, signature. DESIGN CHOICE, log 9. -/
opaque ed25519 : List Byte → BitVec 512 → List Byte → Bool

/-- SHA-512 digests of the Gorcia public keys in the trust ROM (R378): 0 the firmware key, 1 the device CA key, 2 the service
key. DESIGN CHOICE, log 9. -/
opaque gorciaDigest : Nat → BitVec 512

/-- The service public key that the trust firmware carries, which counts only when its digest is that in the trust ROM (R378, R399).
DESIGN CHOICE, log 9. -/
opaque serviceKey : List Byte

/-- Public key and signature in the header of a firmware copy that the module ships with, by kind and copy (R379).
DESIGN CHOICE, log 9. -/
opaque bootKey : Nat → Nat → List Byte
opaque bootSignature : Nat → Nat → List Byte

/-- The calibration data after a calibration of one part: 0 a region's delays, 1 a column's pan timing, 2 a granary controller's
interface; its number, the time and the data before (R31, R62, R335). DESIGN CHOICE, log 14. -/
opaque recalibrated : Nat → Nat → Nat → List Byte → List Byte

/-- Ed25519 signature bytes the identity key puts under a digest (R394). DESIGN CHOICE, log 9. -/
opaque identitySign : BitVec 512 → List Byte

/-- The AES-256-GCM tag and ciphertext the NVS sealing key gives a black-box dump (R423). DESIGN CHOICE, log 9. -/
opaque sealBlackBox : Nat → List Byte → List Byte

/-- X25519 (R381, R384, R386): the public key of a private key, and the shared secret of a private and a public key.
DESIGN CHOICE, log 9. -/
opaque x25519Public : List Byte → List Byte
opaque x25519 : List Byte → List Byte → List Byte

/-- HKDF-SHA-512 of a salt, an input and an info, with the length of its output (R384, R386). DESIGN CHOICE, log 9. -/
opaque hkdf : List Byte → List Byte → List Byte → Nat → List Byte

/-- AES-256-GCM under a key, nonce and additional data (R384): a plaintext to its ciphertext and tag, and a ciphertext and tag to the
plaintext, none when the tag fails. DESIGN CHOICE, log 9. -/
opaque gcmSeal : List Byte → List Byte → List Byte → List Byte → List Byte
opaque gcmOpen : List Byte → List Byte → List Byte → List Byte → Option (List Byte)

/-- The serial and the Ed25519 public key of an X.509 identity certificate (DER) that a CA key with the given digest has issued; none
for other bytes (R386). DESIGN CHOICE, log 9. -/
opaque certificate : BitVec 512 → List Byte → Option (Nat × List Byte)

/-- The 12-bit stochastic-rounding draw for task seed, barrier number, position, lane and counter (R169). DESIGN CHOICE, log 10. -/
opaque srDraw : Nat → Nat → Nat → Nat → Nat → BitVec 12

/-- Receive buffers of 256 bytes that a tiller link has for each VC (R278): the spec gives no number. DESIGN CHOICE, log 96. -/
opaque linkBuffers : Nat → Nat

/-- How far, in units of the last place, a transcendental result lies above the largest code not above the exact
value; the micro-operation number and operand are its arguments (R166). DESIGN CHOICE, log 11. -/
opaque transcendentalStep : Nat → BitVec 32 → Nat

/-- Which of the two intermediate quadrants the spine chooses for the n-th transfer between diagonal quadrants: the lower-numbered
one when true (R27); its load is no part of the model. DESIGN CHOICE, log 83. -/
opaque spineVia : Nat → Bool

/-- The n-th value of the random source (R382). DESIGN CHOICE, log 10. -/
opaque drbg : Nat → BitVec 256

/-- The n-th value the spec leaves undefined, at an index (R147). DESIGN CHOICE, log 12. -/
opaque freeValue : Nat → Nat → BitVec 64

/-- Whether BETA to the power t in ADAM_DW takes the upper of the two F32 values beside it (R266), for which the spec gives no
rounding. DESIGN CHOICE, log 13. -/
opaque f32PowUp : BitVec 32 → Nat → Bool

/-- Beat rate of a region at 70 °C for a supply in mV, from its calibration curve (R330), in M beats/s. DESIGN CHOICE, log 14. -/
opaque rateCurve : Nat → Nat → Nat

/-- The largest stamp skew measured between regions at calibration, in ns (R356). DESIGN CHOICE, log 14. -/
opaque skewNs : Nat

/-- The identity certificate of the module, DER (R386). DESIGN CHOICE, log 9. -/
opaque identityKey : List Byte

/-- The Ed25519 public key of the module's identity key pair (R381, R391). DESIGN CHOICE, log 9. -/
opaque identityPublic : List Byte

/-- Which packed format a copy with EXPAND reads, from the descriptor's bytes: no field of R100 names it. DESIGN CHOICE, log 17. -/
opaque expandFmt : List Byte → Nat

/-- Digest of a firmware copy in the boot flash that the module ships with, by kind (0 trust, 1 management, 2 thresher
microcode) and copy (0 A, 1 B) (R379, R380). DESIGN CHOICE, log 9. -/
opaque bootDigest : Nat → Nat → BitVec 512

/-- The SATM that the thresher's packing uses for infinities (R190, R200): no rule gives it. DESIGN CHOICE, log 20. -/
opaque thresherSatm : Bool

/-- Digest of the trust ROM (R391). DESIGN CHOICE, log 9. -/
opaque romDigest : BitVec 512

/-- What the sensors of a rail read at a count of the time base: its voltage in mV and its current in units of 10 mA (R453).
No command carries these readings. DESIGN CHOICE, log 14. -/
opaque railVoltage : Nat → Nat → Nat
opaque railCurrent : Nat → Nat → Nat

end Sys2Proof.Config
end

