-- ==== Sys2Proof/Syntax.lean ====
section
/-! DEFINITION. The commands of the Efber F880 block: one constructor for each row of the opcode table.

Operand names: p a physical position 0 to 879 (R13); ops the operand bits [55:0] of an instruction word (R123);
tok the number of a token in flight; e a copy engine 0 or 1; port a host port; inst an instance; seq a job's SEQ;
v a 32-bit value written to the row's register; link a tiller link; verdicts (ok, and key: 0 no key, 1 the current,
2 the old key of a session under which a message's tag verifies) say what a read or a cryptographic
check outside the model found (DESIGN CHOICE, log 7); ide whether an access is protected by the instance's selective IDE stream;
endpoint 0 and 1 the DOE mailboxes of the host ports, 2 the MCTP sideband. -/

namespace Sys2Proof

/-- A command: one step of the part, or one access from outside, as the opcode table lists them. -/
inductive Instr where
  /-- MMA_N (R126). Narrow-mode matrix instruction that computes C += A·B on descriptor tiles into the accumulator file. -/
  | mmaN (p : Nat) (ops : BitVec 56)
  /-- MMA_W (R126). Wide-mode matrix instruction that computes C += A·B on BF16, F16 or I8 tiles. -/
  | mmaW (p : Nat) (ops : BitVec 56)
  /-- MMA_SEG_N (R90). Segmented narrow matrix instruction in which each row group takes its B segment through v0. -/
  | mmaSegN (p : Nat) (ops : BitVec 56)
  /-- MMA_SEG_W (R90). Segmented wide matrix instruction in which each row group takes its B segment through v0. -/
  | mmaSegW (p : Nat) (ops : BitVec 56)
  /-- ELT_RUN (R92). Runs an element program over a tile, 32 elements at a time. -/
  | eltRun (p : Nat) (ops : BitVec 56)
  /-- ELT_BCAST (R94). Runs an element program with a broadcast row or column vector. -/
  | eltBcast (p : Nat) (ops : BitVec 56)
  /-- ELT_LOADP (R131). Loads micro-operations from scratchpad into an element-program slot. -/
  | eltLoadp (p : Nat) (ops : BitVec 56)
  /-- ELT_MASK (R132). Sets the lane mask from row and column ranges and an optional bitmap. -/
  | eltMask (p : Nat) (ops : BitVec 56)
  /-- CVT (R133). Converts a tile or accumulator tile to a destination format with the chosen rounding and saturation. -/
  | cvt (p : Nat) (ops : BitVec 56)
  /-- STAT_MAXABS (R188). Writes the maxima gathered by the most recent instruction with STAT, in the chosen kind. -/
  | statMaxabs (p : Nat) (ops : BitVec 56)
  /-- XTL_PACK (R190). Computes block exponents from block maxima and packs narrow codes. -/
  | xtlPack (p : Nat) (ops : BitVec 56)
  /-- XTL_ROT (R193). Applies the seeded winnow rotation, or its inverse, to blocks of a tile. -/
  | xtlRot (p : Nat) (ops : BitVec 56)
  /-- CPY_1D (R137). Gives a one-dimensional copy descriptor to CE0 or CE1. -/
  | cpy1d (p : Nat) (ops : BitVec 56)
  /-- CPY_2D (R137). Gives a two-dimensional copy descriptor to CE0 or CE1. -/
  | cpy2d (p : Nat) (ops : BitVec 56)
  /-- CPY_3D (R137). Gives a three-dimensional copy descriptor to CE0 or CE1. -/
  | cpy3d (p : Nat) (ops : BitVec 56)
  /-- CPY_T (R137). Gives a transposing copy descriptor to CE0 or CE1. -/
  | cpyT (p : Nat) (ops : BitVec 56)
  /-- SEM_ADD (R139). Issues an add to a translated semaphore, after any named engines have completed their earlier work. -/
  | semAdd (p : Nat) (ops : BitVec 56)
  /-- SEM_SUB (R139). Issues a subtract to a translated semaphore, after any named engines have completed their earlier work. -/
  | semSub (p : Nat) (ops : BitVec 56)
  /-- SEM_WAITGE (R139). Stalls the sequencer until a semaphore count reaches N. -/
  | semWaitge (p : Nat) (ops : BitVec 56)
  /-- SEM_WAITSUB (R139). Stalls the sequencer until a semaphore count reaches N, then takes N. -/
  | semWaitsub (p : Nat) (ops : BitVec 56)
  /-- FE_LOAD (R140). Waits for a tagged pan block to be full, copies it to scratch and marks it empty unless KEEP is set. -/
  | feLoad (p : Nat) (ops : BitVec 56)
  /-- FE_STORE (R140). Waits for a tagged pan block to be empty, then writes a scratch line to it and marks it full. -/
  | feStore (p : Nat) (ops : BitVec 56)
  /-- BR (R141). Branches to an absolute word index when its condition holds. -/
  | br (p : Nat) (ops : BitVec 56)
  /-- LOOP (R141). Decrements a loop counter and branches while it is not zero. -/
  | loop (p : Nat) (ops : BitVec 56)
  /-- CALL (R141). Pushes the return word index and branches. -/
  | call (p : Nat) (ops : BitVec 56)
  /-- RET (R141). Pops the call stack and branches. -/
  | ret (p : Nat) (ops : BitVec 56)
  /-- HALT (R144). Stops issue, so that the task ends once every queue and descriptor has drained. -/
  | halt (p : Nat) (ops : BitVec 56)
  /-- SETA (R141). Sets an address register, or its upper half, from an immediate. -/
  | seta (p : Nat) (ops : BitVec 56)
  /-- ADDA (R141). Adds an immediate to an address register. -/
  | adda (p : Nat) (ops : BitVec 56)
  /-- ADDAR (R141). Adds two address registers. -/
  | addar (p : Nat) (ops : BitVec 56)
  /-- SETC (R141). Sets a loop counter from an unsigned immediate. -/
  | setc (p : Nat) (ops : BitVec 56)
  /-- LDT (R141). Loads a tile descriptor from 16 bytes of scratchpad. -/
  | ldt (p : Nat) (ops : BitVec 56)
  /-- STT (R142). Stores a tile descriptor with its STICKY flags, after earlier users of it have completed. -/
  | stt (p : Nat) (ops : BitVec 56)
  /-- TADD (R141). Copies a tile descriptor with an offset base. -/
  | tadd (p : Nat) (ops : BitVec 56)
  /-- LDV (R141). Loads the variant-index vector v0 from scratchpad. -/
  | ldv (p : Nat) (ops : BitVec 56)
  /-- LDK (R141). Sets a condition flag from a scratch byte. -/
  | ldk (p : Nat) (ops : BitVec 56)
  /-- SETK (R141). Sets a condition flag from an immediate, or from STICKY after waiting for all engines. -/
  | setk (p : Nat) (ops : BitVec 56)
  /-- PLAN (R145). Plan point: the sequencer stops issuing and waits for every engine and copy to drain. -/
  | plan (p : Nat) (ops : BitVec 56)
  /-- DESCRIPTOR_START (R104). Once its AFTER conditions hold, a copy engine reads and checks the descriptor at its queue head, waits on AFTER_PRIOR, and starts moving data. -/
  | descriptorStart (p : Nat) (e : Nat) (fixed : List Nat) (bad : List Nat)
  /-- WRITE_ACKNOWLEDGE (R105). A destination acknowledgement of one write of a descriptor reaches its copy engine. -/
  | writeAcknowledge (tok : Nat)
  /-- READ_DATA_ARRIVAL (R42). Data read by a copy engine arrives from its source and is written onward. -/
  | readDataArrival (p : Nat) (e : Nat) (d : Nat) (fixed : List Nat) (bad : List Nat)
  /-- SCRATCH_WRITE_ARRIVAL (R107). A copy-engine or remote write arrives at a scratchpad bank and is arbitrated and performed. -/
  | scratchWriteArrival (tok : Nat) (err : Nat)
  /-- TASK_END (R144). After HALT, the task ends once every engine queue and descriptor has drained. -/
  | taskEnd (p : Nat)
  /-- PLAN_RECORD_WRITE (R145). Once the engines have drained, the sequencer increments PLAN_COUNT and writes the plan record. -/
  | planRecordWrite (p : Nat)
  /-- BARRIER_ARRIVAL (R145). Once the plan record is acknowledged, the task reports arrival at plan n and goes quiescent. -/
  | barrierArrival (p : Nat)
  /-- BARRIER_COMPLETE (R145). A plan barrier completes for every task of the job, which clears per-task state and continues or slices the tasks. -/
  | barrierComplete (inst : Nat) (seq : Nat)
  /-- TASK_RESTART (R147). At its planned start, a job restarts every task from the last completed barrier's plan record. -/
  | taskRestart (inst : Nat) (seq : Nat)
  /-- FE_ARRIVAL (R324). An FE operation arrives at its pan column controller and is performed, queued as a waiter, or answered RETRY. -/
  | feArrival (tok : Nat)
  /-- FE_RETRY (R324). 64 beats after a RETRY, the sequencer reissues the FE operation. -/
  | feRetry (p : Nat)
  /-- WAKE_TOKEN (R318). A wake token arrives at a waiting core, which resumes issue. -/
  | wakeToken (tok : Nat)
  /-- SEMAPHORE_ADD (R314). An ADD arrives at the semaphore memory and completes the waiters whose condition now holds. -/
  | semaphoreAdd (tok : Nat)
  /-- SEMAPHORE_SUB (R314). A SUB arrives at the semaphore memory and lowers the count, clamping at zero. -/
  | semaphoreSub (tok : Nat)
  /-- WAITGE (R317). A WAITGE arrives at the semaphore memory and completes at once or enters the waiter table. -/
  | waitge (tok : Nat)
  /-- WAITSUB (R317). A WAITSUB arrives at the semaphore memory and checks and subtracts at once, or enters the waiter table. -/
  | waitsub (tok : Nat)
  /-- RETENTION_ENTRY (R110). An idle core with empty copy queues and RETAIN set enters retention. -/
  | retentionEntry (p : Nat)
  /-- RETENTION_WAKE (R110). 2 µs after a dispatch, an access or a RETAIN clear, the core leaves retention and held accesses proceed. -/
  | retentionWake (p : Nat)
  /-- COR_CTRL_WRITE (R110). A write of RETAIN that, when cleared, wakes a retained core. -/
  | corCtrlWrite (p : Nat) (v : BitVec 32)
  /-- MARCH_DESTRUCTIVE (R111). COR_MARCH_CTRL MODE 1 starts a destructive march test, or is refused. -/
  | marchDestructive (p : Nat) (v : BitVec 32)
  /-- MARCH_CONTENT_PRESERVING (R111). COR_MARCH_CTRL MODE 2 starts a content-preserving march test, or is refused. -/
  | marchContentPreserving (p : Nat) (v : BitVec 32)
  /-- MARCH_TEST_COMPLETE (R111). A march test completes and sets DONE, with FAIL and a SCRATCH_MARCH_FAIL event on a failing line. -/
  | marchTestComplete (p : Nat) (failBank : Nat) (failLines : Nat)
  /-- PAN_READ (R19). A read reaches a pan column controller and is decoded, corrected and written back if needed. -/
  | panRead (tok : Nat) (err : List Byte)
  /-- PAN_WRITE (R19). A whole-block write reaches a pan column controller, subject to the destination and lock checks. -/
  | panWrite (tok : Nat)
  /-- PAN_PARTIAL_WRITE (R19). A partial-block write is performed as one read-modify-write in the controller. -/
  | panPartialWrite (tok : Nat) (err : List Byte)
  /-- SUMP_ACCUMULATE (R292). A pan column sump widens BF16 operands and adds them into F32 targets, block by block. -/
  | sumpAccumulate (tok : Nat) (err : List Byte)
  /-- GRANARY_READ (R23). A granary read is checked against the carve-up, decoded and decrypted. -/
  | granaryRead (tok : Nat) (err : List Byte)
  /-- GRANARY_WRITE (R23). A granary write is checked, encrypted under the instance key and stored. -/
  | granaryWrite (tok : Nat) (err : List Byte)
  /-- GRANARY_ACCUMULATE (R295). A granary sump decrypts a granule, adds into it and encrypts it again. -/
  | granaryAccumulate (tok : Nat) (err : List Byte)
  /-- SCRUB_READ (R408). Patrol scrub reads a block, corrects it, or records and rebuilds it. -/
  | scrubRead (granary : Bool) (block : Nat) (err : List Byte) (lastOfPass : Bool)
  /-- REBUILD (R411). The thresher rebuilds a damaged block from its region's source. -/
  | rebuild (granary : Bool) (block : Nat) (ok : Bool) (data : List Byte)
  /-- COLUMN_RETIREMENT (R416). A pan column is retired and its carved granules are remapped to free RESERVE granules. -/
  | columnRetirement (pos : Nat)
  /-- LOAD_FULL (R62). NVS operation that reads a full image from host memory. -/
  | loadFull (port : Nat) (v : BitVec 32)
  /-- APPLY_PARTIAL (R73). NVS operation that reads a partial image from host memory for re-layout. -/
  | applyPartial (port : Nat) (v : BitVec 32)
  /-- STORE_EFFECTIVE (R62). NVS operation that writes the images in effect, with optional calibration and fence map, to a slot. -/
  | storeEffective (port : Nat) (v : BitVec 32)
  /-- STORE_STAGED (R62). NVS operation that writes the staged full image to a slot. -/
  | storeStaged (port : Nat) (v : BitVec 32)
  /-- IMAGE_READ_COMPLETE (R63). The host read of an image completes or faults, and the image is validated and applied or staged. -/
  | imageReadComplete
  /-- FULL_IMAGE_APPLY_COMPLETE (R64). Zeroing and link training end, and the new instances answer and READY is set. -/
  | fullImageApplyComplete
  /-- RELAYOUT (R76). Once zeroing is done, every record takes effect in one update and the fields restart. -/
  | relayout
  /-- ADOPTION (R75). An instance changing only PORT and PASID stops taking jobs, and the binding switches once it has drained. -/
  | adoption (inst : Nat)
  /-- NVS_WRITE_COMPLETE (R65). A STORE's NVS write finishes, header last, and updates the cycle counters. -/
  | nvsWriteComplete
  /-- START_THRESHOLD (R442). Input rising above 40 V charges the hold-up bank and begins start-up. -/
  | startThreshold (mv : Nat)
  /-- STARTUP_STAGE_COMPLETE (R70). A start-up stage finishes, and STAGE advances or start-up halts. -/
  | startupStageComplete (ok : Bool) (bad : List Nat) (values : List Nat)
  /-- RESET (R448). RESET# held low for at least 10 µs repeats the whole of start-up. -/
  | reset (lowNs : Nat)
  /-- PERST_DEASSERT (R71). PERST# deasserted with good rails starts link training on a host port. -/
  | perstDeassert (port : Nat)
  /-- CONFIGURATION_REQUEST (R71). A configuration request is completed, with Request Retry Status until the port is up. -/
  | configurationRequest (port : Nat) (ats : Option Bool)
  /-- STAGE (R204). Base-slot operation that moves an EMPTY slot to STAGING to accept a stream. -/
  | stage (v : BitVec 32)
  /-- ACTIVATE (R204). Base-slot operation that makes a READY slot ACTIVE. -/
  | activate (v : BitVec 32)
  /-- SWITCH (R235). Between two admission decisions, replaces an ACTIVE slot by a READY one, staling entries and redirecting. -/
  | switch (v : BitVec 32)
  /-- CLEAR (R204). Base-slot operation that abandons staging or a READY slot and zeroes it. -/
  | clear (v : BitVec 32)
  /-- RETIRE (R204). Base-slot operation that moves an ACTIVE slot to RETIRING with no successor. -/
  | retire (v : BitVec 32)
  /-- SLOT_RELEASE (R205). A RETIRING slot with no jobs or pins left starts zeroing its BASE regions. -/
  | slotRelease (slot : Nat)
  /-- BASE_RELEASED (R205). Zeroing of a retired slot ends, and the slot becomes EMPTY. -/
  | baseReleased (slot : Nat)
  /-- START (R302). THR_SRC_CMD START makes this module the head of a base stream read from host memory. -/
  | start (port : Nat) (v : BitVec 32)
  /-- STREAM_END (R203). At the end of a consumed stream, the digest is compared and the slot becomes READY or EMPTY. -/
  | streamEnd
  /-- VARIANT_LOAD (R215). Mailbox operation that takes a catalogue entry and starts unsealing an image into the granary. -/
  | variantLoad (port : Nat) (inst : Nat) (ide : Bool) (msg : List Byte)
  /-- VARIANT_LOAD_COMPLETE (R218). The thresher finishes or refuses a load, and the entry becomes HELD, PAGING or FREE. -/
  | variantLoadComplete (index : Nat)
  /-- VARIANT_DELETE (R214). Mailbox operation that moves an entry to DELETING, or releases a STALE one. -/
  | variantDelete (port : Nat) (inst : Nat) (ide : Bool) (msg : List Byte)
  /-- VARIANT_PAGE_IN (R214). Mailbox operation that makes a HELD or EVICTING entry resident. -/
  | variantPageIn (port : Nat) (inst : Nat) (ide : Bool) (msg : List Byte)
  /-- VARIANT_QUERY (R214). Mailbox operation that returns an entry's state, frames and pins. -/
  | variantQuery (port : Nat) (inst : Nat) (ide : Bool) (msg : List Byte)
  /-- FORK_FROM_BASE (R208). Mailbox operation that copies an ACTIVE base into the instance's FORK slot. -/
  | forkFromBase (port : Nat) (inst : Nat) (ide : Bool) (msg : List Byte)
  /-- PAGE_IN_START (R229). Once room is available, the thresher starts copying an image from the granary into fresh frames. -/
  | pageInStart (index : Nat)
  /-- PAGE_IN_COMPLETE (R229). A page-in writes its frame list, and the entry becomes RESIDENT. -/
  | pageInComplete (index : Nat)
  /-- TRAIN_OPEN (R246). Mailbox operation that checks and registers a training record and assigns an index. -/
  | trainOpen (port : Nat) (inst : Nat) (ide : Bool) (msg : List Byte)
  /-- TRAIN_SET (R247). Mailbox operation that changes a hyperparameter now or at the next step end. -/
  | trainSet (port : Nat) (inst : Nat) (ide : Bool) (msg : List Byte)
  /-- TRAIN_QUERY (R247). Mailbox operation that returns a record's state and counters. -/
  | trainQuery (port : Nat) (inst : Nat) (ide : Bool) (msg : List Byte)
  /-- SNAPSHOT (R268). Mailbox operation that captures the working copy at a step boundary and seals it. -/
  | snapshot (port : Nat) (inst : Nat) (ide : Bool) (msg : List Byte)
  /-- SNAPSHOT_DELIVERED (R270). A snapshot image reaches its host or partner, or fails, and the reply is posted. -/
  | snapshotDelivered (index : Nat) (ok : Bool)
  /-- TRAIN_CLOSE (R272). Mailbox operation that frees a training index once no job or entry remains. -/
  | trainClose (port : Nat) (inst : Nat) (ide : Bool) (msg : List Byte)
  /-- UPDATE_ENTRY_START (R262). The granary update engines take the next queued update entry. -/
  | updateEntryStart
  /-- UPDATE_ENTRY_COMPLETE (R262). The engines finish an entry, zero its buffer and set APPLIED. -/
  | updateEntryComplete
  /-- REFRESH_COMPLETE (R263). The copy of WORK_GRN to WORK ends, and PANW is set. -/
  | refreshComplete (index : Nat)
  /-- DATA_FLIT (R277). A DATA flit is received, checked by CRC and sequence, and delivered or discarded. -/
  | dataFlit (link : Nat) (fec : Nat) (flit : List Byte)
  /-- IDLE_FLIT (R276). An IDLE flit returns acknowledgements and credits. -/
  | idleFlit (link : Nat) (fec : Nat) (flit : List Byte)
  /-- REPLAY_FLIT (R277). A REPLAY flit makes the sender resend from ACK_SEQ + 1. -/
  | replayFlit (link : Nat) (fec : Nat) (flit : List Byte)
  /-- WRITE (R280). A WRITE message is verified, translated, checked and performed at the partner. -/
  | write (link : Nat) (key : Nat) (plain : List Byte)
  /-- READ (R280). A READ message is verified, translated, checked and answered with data. -/
  | read (link : Nat) (key : Nat) (plain : List Byte)
  /-- ACCUMULATE (R292). An ACCUMULATE message is verified and added by the partner's sump. -/
  | accumulate (link : Nat) (key : Nat) (plain : List Byte)
  /-- SEMAPHORE (R296). A SEMAPHORE message adds an amount to a translated semaphore at the partner. -/
  | semaphore (link : Nat) (key : Nat) (plain : List Byte)
  /-- FORWARD (R301). A FORWARD stream message is verified, forwarded cut-through downstream and consumed if its slot is staging. -/
  | forward (link : Nat) (key : Nat) (plain : List Byte)
  /-- CAPABILITY (R289). A CAPABILITY message is checked against part, partner serial and roles. -/
  | capability (link : Nat)
  /-- SESSION (R386). A SESSION message is verified, and session keys are derived for bring-up or renewal. -/
  | session (link : Nat)
  /-- ARRIVE (R300). A barrier ARRIVE message from a child is merged toward the parent. -/
  | arrive (link : Nat) (key : Nat) (plain : List Byte)
  /-- COMPLETE (R300). A barrier COMPLETE message completes the barrier and passes down the tree. -/
  | complete (link : Nat) (key : Nat) (plain : List Byte)
  /-- STREAM_ABORT (R309). A STREAM_ABORT breaks the stream, zeroes a consuming slot and passes downstream. -/
  | streamAbort (link : Nat) (key : Nat) (plain : List Byte)
  /-- RESPONSE (R282). A response message ends its request with OK or a fault at the issuing core. -/
  | response (link : Nat) (key : Nat) (plain : List Byte)
  /-- REQUEST_TIMEOUT (R285). A link request without a response for 2 ms ends with a LINK fault. -/
  | requestTimeout (link : Nat) (tag : Nat)
  /-- SESSION_RENEW (R387). A VC counter reaching 2⁵⁵ starts a RENEW of the session. -/
  | sessionRenew (link : Nat) (inst : Nat)
  /-- LINK_TRAINING_COMPLETE (R288). Lanes finish electrical training with FEC lock, and CAPABILITY is exchanged. -/
  | linkTrainingComplete (link : Nat) (lengthCm : Nat) (delayNs : Nat)
  /-- LOSS_OF_SIGNAL (R290). Loss of signal or FEC lock takes the link down. -/
  | lossOfSignal (link : Nat) (fecLost : Bool)
  /-- LINK_RETRY (R289). A link that stays down retries training every second. -/
  | linkRetry (link : Nat)
  /-- RETRAIN (R311). TLn_CTRL RETRAIN takes the link down and trains it again. -/
  | retrain (link : Nat) (v : BitVec 32)
  /-- DISABLE (R311). A write of TLn_CTRL DISABLE holds the link down or releases it. -/
  | disable (link : Nat) (v : BitVec 32)
  /-- PARTNER_LOST (R420). A link down for 1 s posts PARTNER_LOST and ends the spanning jobs that use it. -/
  | partnerLost (link : Nat)
  /-- FIELD_RATE_REPORT (R331). Every 100 µs a field reports its measured rate, supply and temperature. -/
  | fieldRateReport (field : Nat) (rate : Nat) (mv : Nat) (temp : Nat)
  /-- FLOOR_RECOMPUTE (R333). Every 100 µs admission recomputes each field's floor rates. -/
  | floorRecompute
  /-- RATE_KEEPER_STEP (R332). Every 10 ms the rate keeper raises or lowers the region supply by 5 mV. -/
  | rateKeeperStep (region : Nat)
  /-- RESOLVE (R351). After an event outside the floor, admission re-plans the affected jobs in priority order. -/
  | resolve (cause : Nat) (fields : List Nat)
  /-- OVERRUN (R353). A job incomplete at its promise with no explaining event is demoted and an OVERRUN notice posted. -/
  | overrun (inst : Nat) (seq : Nat)
  /-- QUANTUM_EXPIRY (R348). A dispatched class B or C job's quantum expires, and its fields become eligible for slicing. -/
  | quantumExpiry (inst : Nat) (seq : Nat)
  /-- INTAKE_CHUNK_WRITE (R365). A 64-byte write of descriptor chunk 0, 1 or 2 to the intake window. -/
  | intakeChunkWrite (port : Nat) (inst : Nat) (ide : Bool) (off : Nat) (data : List Byte)
  /-- COMMIT (R367). A write of chunk 3 latches the descriptor and checks sequence, slot and intake room. -/
  | commit (port : Nat) (inst : Nat) (ide : Bool) (data : List Byte)
  /-- ADMISSION_DECISION (R345). Admission accepts or refuses a committed job and posts the decision. -/
  | admissionDecision
  /-- DISPATCH (R347). At a job's planned start, admission writes the field list and sheaf table and loads the program stores. -/
  | dispatch (inst : Nat) (seq : Nat)
  /-- JOB_COMPLETE (R370). Once all tasks have halted, the result record is written, VALID last, and contexts and pins are released. -/
  | jobComplete (inst : Nat) (seq : Nat)
  /-- RELEASE (R370). An 8-byte write of STATE 0xFF to a slot's VALID empties the slot. -/
  | release (port : Nat) (inst : Nat) (ide : Bool) (off : Nat) (data : List Byte)
  /-- RECAL_REQUEST (R335). ADM_RECAL REQUEST queues a recalibration pause for a region. -/
  | recalRequest (v : BitVec 32)
  /-- RECAL_FORCE (R335). ADM_RECAL REQUEST with FORCE pauses the region at once, as an event outside the floor. -/
  | recalForce (v : BitVec 32)
  /-- RECAL_PAUSE_START (R335). Once a 3 ms pause fits without breaking a promise, the region stops for recalibration. -/
  | recalPauseStart
  /-- RECAL_PAUSE_END (R335). The 3 ms recalibration ends, and the region resumes with DONE set. -/
  | recalPauseEnd
  /-- REFERENCE_LOST (R339). Loss of the 25 MHz reference enters holdover and sets REF_LOST. -/
  | referenceLost
  /-- HOLDOVER_EXPIRY (R339). A reference not back within 10 ms is a fatal event. -/
  | holdoverExpiry
  /-- FUNCTION_LEVEL_RESET (R359). A port's FLR resets its function and squashes every instance bound to it. -/
  | functionLevelReset (port : Nat)
  /-- TDISP_MESSAGE (R363). A TDISP message over SPDM moves an instance's TDI state. -/
  | tdispMessage (port : Nat) (inst : Nat) (tdi : Nat)
  /-- ATS_INVALIDATION (R358). An ATS invalidation completes once every request that used the translation has retired. -/
  | atsInvalidation (port : Nat)
  /-- HOST_COMPLETION (R358). A completion for a device-issued host read or flush arrives at the port. -/
  | hostCompletion (port : Nat) (id : Nat) (ok : Bool) (data : List Byte)
  /-- STAGE_IN (R372). Mailbox operation that copies host data into the instance's pan or granary. -/
  | stageIn (port : Nat) (inst : Nat) (ide : Bool) (msg : List Byte)
  /-- MIRROR_SET (R418). Mailbox operation that sets a training record's mirror destination. -/
  | mirrorSet (port : Nat) (inst : Nat) (ide : Bool) (msg : List Byte)
  /-- MIRROR_RESTORE (R420). Mailbox operation that checks the newer valid mirror and copies it back into the pan. -/
  | mirrorRestore (port : Nat) (inst : Nat) (ide : Bool) (msg : List Byte)
  /-- MAILBOX_ATTEST (R391). Mailbox ATTEST writes a report for the requesting instance to its host. -/
  | mailboxAttest (port : Nat) (inst : Nat) (ide : Bool) (msg : List Byte)
  /-- UNKNOWN_OPERATION (R371). A mailbox message with an undefined code is answered with UNKNOWN_OPERATION. -/
  | unknownOperation (port : Nat) (inst : Nat) (ide : Bool) (msg : List Byte)
  /-- CONSUMED_WRITE (R373). Host writes CONSUMED, freeing ring entries for queued device messages. -/
  | consumedWrite (port : Nat) (inst : Nat) (ide : Bool) (v : BitVec 32)
  /-- DRAIN (R375). HPn_INST_RESET MODE 1 resets an instance in drain mode. -/
  | drain (port : Nat) (v : BitVec 32)
  /-- SQUASH (R375). HPn_INST_RESET MODE 2 resets an instance in squash mode, stopping every task at once. -/
  | squash (port : Nat) (v : BitVec 32)
  /-- DRAIN_LIMIT_EXPIRY (R375). At the drain limit, the remaining jobs of the instance are squashed. -/
  | drainLimitExpiry (inst : Nat)
  /-- INSTANCE_RETIRED (R376). Once every transfer has retired, keys are destroyed, the catalogue is freed and zeroing starts. -/
  | instanceRetired (inst : Nat)
  /-- INSTANCE_ZEROING_COMPLETE (R376). Pan and granary zeroing end, a new granary key is generated, and the instance becomes ACTIVE. -/
  | instanceZeroingComplete (inst : Nat)
  /-- ATTEST (R391). SEC OP ATTEST writes a signed report for the selected instances. -/
  | attest (port : Nat) (v : BitVec 32)
  /-- GET_MEASUREMENTS (R391). An SPDM GET_MEASUREMENTS for index 0x80 returns the report. -/
  | getMeasurements (endpoint : Nat) (nonce : List Byte)
  /-- KEY_PROG (R388). An IDE_KM KEY_PROG in a secured session programs IDE keys into the port. -/
  | keyProg (port : Nat) (inst : Nat) (key : List Byte)
  /-- OPERATOR_KEY (R389). SEC OP OPERATOR_KEY checks and accepts a new operator key record. -/
  | operatorKey (port : Nat) (v : BitVec 32)
  /-- UNLOCK (R400). SEC OP UNLOCK checks a service token, then resets, zeroes and opens the named scopes in order. -/
  | unlock (port : Nat) (v : BitVec 32)
  /-- RAISE_FLOOR (R404). SEC OP RAISE_FLOOR sets a fused SVN floor to the copy in effect. -/
  | raiseFloor (port : Nat) (v : BitVec 32)
  /-- RNG_FAIL (R382). A failed entropy health test sets RNG_FAIL as a fatal event. -/
  | rngFail
  /-- DRBG_RESEED (R382). Every 2²⁰ requests the CTR_DRBG is reseeded. -/
  | drbgReseed
  /-- HANG (R412). A token held without progress for 1 ms raises a hang. -/
  | hang (pos : Nat)
  /-- HANG_CONFIRM (R413). Two further reads 8 ms apart confirm the hang, and the affected tasks stop. -/
  | hangConfirm (pos : Nat)
  /-- WRITE_DISCARD_TIMEOUT (R413). Outstanding writes of a fenced core still unretired after 1 ms are discarded at the switch. -/
  | writeDiscardTimeout (pos : Nat)
  /-- FENCE (R413). The position becomes FENCED in the fence map, a FENCE event is recorded and renaming begins. -/
  | fence (pos : Nat)
  /-- RENAME (R413). The spare takes the fenced logical number, and admission re-plans with cause FENCE. -/
  | rename (pos : Nat)
  /-- FENCE_CORE (R421). MGT_RECOVERY_CMD FENCE_CORE performs a planned spare swap at the next barrier. -/
  | fenceCore (port : Nat) (v : BitVec 32)
  /-- RETIRE_COLUMN (R416). MGT_RECOVERY_CMD RETIRE_COLUMN retires a pan column. -/
  | retireColumn (port : Nat) (v : BitVec 32)
  /-- RETRAIN_COLUMN (R421). MGT_RECOVERY_CMD RETRAIN_COLUMN schedules a pan timing retrain. -/
  | retrainColumn (port : Nat) (v : BitVec 32)
  /-- READ_BLACKBOX (R424). MGT_RECOVERY_CMD READ_BLACKBOX writes a dump's header and decrypted records to the host. -/
  | readBlackbox (port : Nat) (v : BitVec 32)
  /-- SWITCH_MGT_FW (R421). MGT_RECOVERY_CMD SWITCH_MGT_FW verifies and switches management firmware live. -/
  | switchMgtFw (port : Nat) (v : BitVec 32)
  /-- RELOAD_MICROCODE (R421). MGT_RECOVERY_CMD RELOAD_MICROCODE waits for the thresher to be idle and reloads its microcode. -/
  | reloadMicrocode (port : Nat) (v : BitVec 32)
  /-- LIVE_OPERATION_COMPLETE (R421). A live update or retrain finishes, and the stopped part resumes. -/
  | liveOperationComplete (ok : Bool) (svn : Nat) (digest : BitVec 512) (key sig : List Byte)
  /-- MIRROR_TAKE (R419). After every MIRROR_INTERVAL-th applied step, the state is read and sent to the partner. -/
  | mirrorTake (index : Nat)
  /-- MIRROR_HEADER_WRITE (R419). Once every mirror write is acknowledged, the header with the step and digest is written. -/
  | mirrorHeaderWrite (index : Nat)
  /-- BLACK_BOX_DUMP_COMPLETE (R424). The dump ends, and the module stops or works on according to its cause. -/
  | blackBoxDumpComplete (mv : Nat)
  /-- FREEZE_ARM (R434). A completing write of OBS_FREEZE_TB arms a freeze, or is refused. -/
  | freezeArm (size : Nat) (hi : Bool) (value : Word)
  /-- FREEZE (R434). At tick T every unit latches its counters, and a FREEZE event is recorded. -/
  | freeze
  /-- FROZEN_VALID (R434). At T + 1,000 ns FROZEN_VALID is set. -/
  | frozenValid
  /-- ARM (R436). OBS_STOP_CTRL ARM arms a debug stop at OBS_STOP_TB, or is refused. -/
  | arm (v : BitVec 32)
  /-- DEBUG_STOP_HOLD (R436). At T every boundary in scope withholds acknowledge. -/
  | debugStopHold
  /-- DEBUG_STOP (R436). Once every region in scope is quiescent, STATE is STOPPED and the residue table is filled. -/
  | debugStop
  /-- RESUME (R438). OBS_STOP_CTRL RESUME releases every boundary in one tick and delivers the held tokens. -/
  | resume (v : BitVec 32)
  /-- OBS_RING_LO_READ (R439). A read of OBS_RING_LO returns record bytes 0 to 7 and latches OBS_RING_HI. -/
  | obsRingLoRead
  /-- OBS_RESIDUE_LO_READ (R439). A read of OBS_RESIDUE_LO returns entry bytes 0 to 7 and latches OBS_RESIDUE_HI. -/
  | obsResidueLoRead
  /-- COR_SCRATCH_ERR_READ (R112). A read of COR_SCRATCH_ERR returns and clears its error counts. -/
  | corScratchErrRead (p : Nat)
  /-- ADM_VAR_EVENTS_READ (R239). A read of ADM_VAR_EVENTS returns and clears the page-in and eviction counts. -/
  | admVarEventsRead
  /-- ADM_TRAIN_COUNTS_READ (R273). A read of ADM_TRAIN_COUNTS returns and clears SKIPS and PERSISTENT. -/
  | admTrainCountsRead
  /-- GRN_UPD_DONE_READ (R274). A read of GRN_UPD_DONE returns and clears the entry counts. -/
  | grnUpdDoneRead
  /-- TLN_ERR_READ (R311). A read of TLn_ERR returns and clears the link error counts. -/
  | tlnErrRead (link : Nat)
  /-- FLD_SEM_STATUS_READ (R328). A read of FLDnn_SEM_STATUS returns and clears PEAK. -/
  | fldSemStatusRead (field : Nat)
  /-- FLD_SEM_EVENTS_READ (R328). A read of FLDnn_SEM_EVENTS returns and clears the semaphore event counts. -/
  | fldSemEventsRead (field : Nat)
  /-- ADM_STATUS_READ (R355). A read of ADM_STATUS returns and clears LATE_DECISIONS. -/
  | admStatusRead
  /-- ADM_DECISIONS_READ (R355). A read of ADM_DECISIONS returns and clears the accept and refusal counts. -/
  | admDecisionsRead
  /-- HP_ERR_READ (R377). A read of HPn_ERR returns and clears the port discard counts. -/
  | hpErrRead (port : Nat)
  /-- SEC_STATUS_READ (R403). A read of SEC_STATUS returns and clears INSPECT_REFUSED. -/
  | secStatusRead
  /-- PAN_ERR_READ (R427). A read of PAN_ERR returns and clears the column error counts. -/
  | panErrRead (pos : Nat)
  /-- GRN_ERR_READ (R427). A read of GRN_ERR returns and clears the controller error counts. -/
  | grnErrRead (ctl : Nat)
  /-- MGT_THROTTLE_READ (R457). A read of MGT_THROTTLE returns and clears CAPS. -/
  | mgtThrottleRead
  /-- REGISTER_WRITE (R7). A write to a register with no row of its own, taking effect under its field access codes. -/
  | registerWrite (port : Nat) (off : Nat) (size : Nat) (value : Word)
  /-- INPUT_DROOP (R422). Input below 38.0 V for 20 µs freezes the ring and triggers a black-box dump. -/
  | inputDroop (mv : Nat)
  /-- INPUT_LOW (R441). Input between 38.0 V and 40.0 V after READY sets INPUT_LOW. -/
  | inputLow (mv : Nat)
  /-- INPUT_HIGH (R441). Input between 60.0 V and 63.0 V sets INPUT_HIGH. -/
  | inputHigh (mv : Nat)
  /-- OVER_VOLTAGE_DISCONNECT (R441). Input above 63.0 V for 1 ms opens the hot-swap stage and writes the black box. -/
  | overVoltageDisconnect (mv : Nat)
  /-- MATE_LOOP_BREAK (R447). A break of the S3–S4 loop opens the hot-swap stage and writes the black box. -/
  | mateLoopBreak
  /-- MATE_LOOP_CONTINUOUS (R447). The mate loop continuous for 10 ms closes the hot-swap stage. -/
  | mateLoopContinuous
  /-- THROTTLE_ASSERT (R444). THROTTLE# asserted caps every field at THROTTLE_RATE. -/
  | throttleAssert
  /-- THROTTLE_DEASSERT (R444). THROTTLE# deasserted removes the pin cap. -/
  | throttleDeassert
  /-- COLUMN_HOT (R444). A pan column above 85 °C doubles its refresh and caps its field. -/
  | columnHot (pos : Nat) (t0 : Nat) (t7 : Nat)
  /-- FIELD_HOT (R444). A field junction at 100 °C or a column at 90 °C starts stepping the field's cap down. -/
  | fieldHot (field : Nat) (column : Bool) (temp : Nat)
  /-- POWER_OVER_LIMIT (R444). Input power above MGT_POWER_LIMIT over 10 ms starts stepping every field's cap down. -/
  | powerOverLimit (watts : Nat)
  /-- THERMAL_RELEASE (R444). A temperature or power falling below its release point starts lifting the cap. -/
  | thermalRelease (kind : Nat) (unit : Nat) (reading : Nat) (other : Nat)
  /-- CAP_STEP (R444). Every 10 ms an active cap falls or rises by 25 M beats/s. -/
  | capStep
  /-- SUPPLY_STEP (R445). Every 100 µs the supply of a capped field is lowered by 5 mV. -/
  | supplyStep (field : Nat)
  /-- THERMAL_TRIP (R444). A junction at 105 °C, a column at 95 °C or the outlet at 60 °C writes the black box and stops all work. -/
  | thermalTrip (kind : Nat) (unit : Nat) (reading : Nat) (other : Nat)
  /-- RAIL_LIMIT (R454). A rail outside its limit for 100 µs is a fatal event. -/
  | railLimit (rail : Nat) (mv : Nat)
  /-- CAGE_INSERTION (R451). Insertion of a cage module reads CMIS and sets CAGE. -/
  | cageInsertion (link : Nat) (media : Nat) (lengthCm : Nat)
  /-- CAGE_REMOVAL (R451). Removal of a cage module sets CAGE. -/
  | cageRemoval (link : Nat)
  /-- CMIS_POLL (R451). Every second the management region reads each cage's CMIS memory map. -/
  | cmisPoll (link : Nat) (media : Nat) (lengthCm : Nat)
  /-- ENGINE_INSTRUCTION_COMPLETE (R122). A matrix, element or crystalliser instruction finishes its last beat, ORs its flags into the descriptor and core STICKY, and releases the interlocks and AFTER conditions that wait on it. -/
  | engineInstructionComplete (p : Nat) (eng : Nat) (fixed : List Nat) (bad : List Nat)
  /-- LOWER_HALF_READ (R5). A 32-bit read of the lower half of a 64-bit register latches its upper half for the next upper-half read. -/
  | lowerHalfRead (off : Nat)
  /-- INSTANCE_PAGE_READ (R363). A host read of an instance page is counted in WRONG_PORT on the wrong port, or, in RUN without IDE protection, is discarded and moves the TDI to ERROR. -/
  | instancePageRead (port : Nat) (inst : Nat) (off : Nat) (len : Nat) (ide : Bool)
  /-- REFERENCE_RETURN (R339). The 25 MHz reference returns within 10 ms, so the time-base PLL leaves holdover and locks again. -/
  | referenceReturn
  /-- INPUT_IN_OPERATING_RANGE (R441). Input returns within 40.0 V to 60.0 V after READY, which clears INPUT_LOW or INPUT_HIGH. -/
  | inputInOperatingRange (mv : Nat)
  /-- TRUST_MANAGEMENT_UNCORRECTABLE (R422). An uncorrectable error inside the trust or management region is a fatal event that freezes the ring and writes the black box with FATAL 3. -/
  | trustManagementUncorrectable
  /-- SLOT_ZEROING_COMPLETE (R204). Zeroing of a base slot after CLEAR, or after a failed stream, ends, so the slot is EMPTY and a CLEAR completes with OK or ABORTED. -/
  | slotZeroingComplete (slot : Nat)
  /-- FORK_COPY_COMPLETE (R208). The column-rate copy of a base into a FORK slot ends, so the slot becomes ACTIVE and the fork handle is replied. -/
  | forkCopyComplete (slot : Nat)
  /-- UNLOCK_ZEROING_COMPLETE (R400). The pan and granary zeroing of a service unlock ends, so sessions end, a fuse is programmed, DEBUG_OPEN is set and the scopes open. -/
  | unlockZeroingComplete
  /-- TRAIN_OPEN_ZEROING_COMPLETE (R246). The zeroing of a slow-tier record's LAG gradient buffers ends, and the TRAIN_OPEN reply is posted. -/
  | trainOpenZeroingComplete (index : Nat)
  /-- STAGE_IN_COMPLETE (R372). Every write of a STAGE_IN has been acknowledged, and its reply is posted with a mailbox credit returned. -/
  | stageInComplete (inst : Nat)
  /-- HOST_LINK_TRAINING_COMPLETE (R71). A host port finishes PCIe link training, and HPn_LINK shows the speed, width and flit mode. -/
  | hostLinkTrainingComplete (port : Nat) (speed : Nat) (width : Nat) (flitMode : Bool)
  /-- GRANARY_INTERFACE_RETRAIN (R427). A granary controller retrains its interface, shown by GRN_STATE RETRAINING, which lowers granary bandwidth until it ends. -/
  | granaryInterfaceRetrain (ctl : Nat) (begin : Bool)
  /-- SPDM_SECURED_SESSION (R388). SPDM messages over DOE or MCTP establish or end a secured session, within which KEY_PROG and TDISP messages are accepted. -/
  | spdmSecuredSession (endpoint : Nat) (established : Bool)
  /-- COARSENED_WINDOW_END (R396). A fixed 100 ms or 1 s window ends, and the coarsened busy beats, power and temperature readings are updated. -/
  | coarsenedWindowEnd (oneSecond : Bool) (watts : Nat) (inlet : Nat) (outlet : Nat)
  deriving DecidableEq, Repr

end Sys2Proof
end

