-- ==== Sys2Proof/WellFormed.lean ====
section
/-! DEFINITION. Well-formed commands: every number names a unit the part has. -/

namespace Sys2Proof

/-- Whether the operands of a command name units that exist: positions 0 to 879 (R13), copy engines and ports 0 and 1,
instances 0 to 63 (R45), links 0 to 5, base slots 0 to 3, fields 0 to 79, regions 0 to 99 (R33). A command that is not
well formed names nothing, and no sender sends it. -/
def Instr.wellFormed : Instr → Bool
  | .mmaN p _ => decide (p < 880)
  | .mmaW p _ => decide (p < 880)
  | .mmaSegN p _ => decide (p < 880)
  | .mmaSegW p _ => decide (p < 880)
  | .eltRun p _ => decide (p < 880)
  | .eltBcast p _ => decide (p < 880)
  | .eltLoadp p _ => decide (p < 880)
  | .eltMask p _ => decide (p < 880)
  | .cvt p _ => decide (p < 880)
  | .statMaxabs p _ => decide (p < 880)
  | .xtlPack p _ => decide (p < 880)
  | .xtlRot p _ => decide (p < 880)
  | .cpy1d p _ => decide (p < 880)
  | .cpy2d p _ => decide (p < 880)
  | .cpy3d p _ => decide (p < 880)
  | .cpyT p _ => decide (p < 880)
  | .semAdd p _ => decide (p < 880)
  | .semSub p _ => decide (p < 880)
  | .semWaitge p _ => decide (p < 880)
  | .semWaitsub p _ => decide (p < 880)
  | .feLoad p _ => decide (p < 880)
  | .feStore p _ => decide (p < 880)
  | .br p _ => decide (p < 880)
  | .loop p _ => decide (p < 880)
  | .call p _ => decide (p < 880)
  | .ret p _ => decide (p < 880)
  | .halt p _ => decide (p < 880)
  | .seta p _ => decide (p < 880)
  | .adda p _ => decide (p < 880)
  | .addar p _ => decide (p < 880)
  | .setc p _ => decide (p < 880)
  | .ldt p _ => decide (p < 880)
  | .stt p _ => decide (p < 880)
  | .tadd p _ => decide (p < 880)
  | .ldv p _ => decide (p < 880)
  | .ldk p _ => decide (p < 880)
  | .setk p _ => decide (p < 880)
  | .plan p _ => decide (p < 880)
  | .descriptorStart p e _ _ => decide (p < 880) && decide (e < 2)
  | .writeAcknowledge _ => true
  | .readDataArrival p e _ _ _ => decide (p < 880) && decide (e < 2)
  | .scratchWriteArrival _ err => decide (err < 3)
  | .taskEnd p => decide (p < 880)
  | .planRecordWrite p => decide (p < 880)
  | .barrierArrival p => decide (p < 880)
  | .barrierComplete inst _ => decide (inst < 64)
  | .taskRestart inst _ => decide (inst < 64)
  | .feArrival _ => true
  | .feRetry p => decide (p < 880)
  | .wakeToken _ => true
  | .semaphoreAdd _ => true
  | .semaphoreSub _ => true
  | .waitge _ => true
  | .waitsub _ => true
  | .retentionEntry p => decide (p < 880)
  | .retentionWake p => decide (p < 880)
  | .corCtrlWrite p _ => decide (p < 880)
  | .marchDestructive p _ => decide (p < 880)
  | .marchContentPreserving p _ => decide (p < 880)
  | .marchTestComplete p failBank _ => decide (p < 880) && decide (failBank < 16)
  | .panRead _ _ => true
  | .panWrite _ => true
  | .panPartialWrite _ _ => true
  | .sumpAccumulate _ _ => true
  | .granaryRead _ _ => true
  | .granaryWrite _ _ => true
  | .granaryAccumulate _ _ => true
  | .scrubRead _ _ _ _ => true
  | .rebuild _ _ _ _ => true
  | .columnRetirement pos => decide (pos < 880)
  | .loadFull port _ => decide (port < 2)
  | .applyPartial port _ => decide (port < 2)
  | .storeEffective port _ => decide (port < 2)
  | .storeStaged port _ => decide (port < 2)
  | .imageReadComplete => true
  | .fullImageApplyComplete => true
  | .relayout => true
  | .adoption inst => decide (inst < 64)
  | .nvsWriteComplete => true
  | .startThreshold _ => true
  | .startupStageComplete _ _ _ => true
  | .reset _ => true
  | .perstDeassert port => decide (port < 2)
  | .configurationRequest port _ => decide (port < 2)
  | .stage _ => true
  | .activate _ => true
  | .switch _ => true
  | .clear _ => true
  | .retire _ => true
  | .slotRelease slot => decide (slot < 4)
  | .baseReleased slot => decide (slot < 4)
  | .start port _ => decide (port < 2)
  | .streamEnd => true
  | .variantLoad port inst _ _ => decide (port < 2) && decide (inst < 64)
  | .variantLoadComplete index => decide (index < 65536)
  | .variantDelete port inst _ _ => decide (port < 2) && decide (inst < 64)
  | .variantPageIn port inst _ _ => decide (port < 2) && decide (inst < 64)
  | .variantQuery port inst _ _ => decide (port < 2) && decide (inst < 64)
  | .forkFromBase port inst _ _ => decide (port < 2) && decide (inst < 64)
  | .pageInStart index => decide (index < 65536)
  | .pageInComplete index => decide (index < 65536)
  | .trainOpen port inst _ _ => decide (port < 2) && decide (inst < 64)
  | .trainSet port inst _ _ => decide (port < 2) && decide (inst < 64)
  | .trainQuery port inst _ _ => decide (port < 2) && decide (inst < 64)
  | .snapshot port inst _ _ => decide (port < 2) && decide (inst < 64)
  | .snapshotDelivered index _ => decide (index < 65536)
  | .trainClose port inst _ _ => decide (port < 2) && decide (inst < 64)
  | .updateEntryStart => true
  | .updateEntryComplete => true
  | .refreshComplete index => decide (index < 65536)
  | .dataFlit link _ _ => decide (link < 6)
  | .idleFlit link _ _ => decide (link < 6)
  | .replayFlit link _ _ => decide (link < 6)
  | .write link key _ => decide (link < 6) && decide (key < 3)
  | .read link key _ => decide (link < 6) && decide (key < 3)
  | .accumulate link key _ => decide (link < 6) && decide (key < 3)
  | .semaphore link key _ => decide (link < 6) && decide (key < 3)
  | .forward link key _ => decide (link < 6) && decide (key < 3)
  | .capability link => decide (link < 6)
  | .session link => decide (link < 6)
  | .arrive link key _ => decide (link < 6) && decide (key < 3)
  | .complete link key _ => decide (link < 6) && decide (key < 3)
  | .streamAbort link key _ => decide (link < 6) && decide (key < 3)
  | .response link key _ => decide (link < 6) && decide (key < 3)
  | .requestTimeout link _ => decide (link < 6)
  | .sessionRenew link inst => decide (link < 6) && decide (inst < 64 ∨ inst = 255)
  | .linkTrainingComplete link _ _ => decide (link < 6)
  | .lossOfSignal link _ => decide (link < 6)
  | .linkRetry link => decide (link < 6)
  | .retrain link _ => decide (link < 6)
  | .disable link _ => decide (link < 6)
  | .partnerLost link => decide (link < 6)
  | .fieldRateReport field _ _ _ => decide (field < 88)
  | .floorRecompute => true
  | .rateKeeperStep region => decide (region < 100)
  | .resolve _ _ => true
  | .overrun inst _ => decide (inst < 64)
  | .quantumExpiry inst _ => decide (inst < 64)
  | .intakeChunkWrite port inst _ _ _ => decide (port < 2) && decide (inst < 64)
  | .commit port inst _ _ => decide (port < 2) && decide (inst < 64)
  | .admissionDecision => true
  | .dispatch inst _ => decide (inst < 64)
  | .jobComplete inst _ => decide (inst < 64)
  | .release port inst _ _ _ => decide (port < 2) && decide (inst < 64)
  | .recalRequest _ => true
  | .recalForce _ => true
  | .recalPauseStart => true
  | .recalPauseEnd => true
  | .referenceLost => true
  | .holdoverExpiry => true
  | .functionLevelReset port => decide (port < 2)
  | .tdispMessage port inst _ => decide (port < 2) && decide (inst < 64)
  | .atsInvalidation port => decide (port < 2)
  | .hostCompletion port _ _ _ => decide (port < 2)
  | .stageIn port inst _ _ => decide (port < 2) && decide (inst < 64)
  | .mirrorSet port inst _ _ => decide (port < 2) && decide (inst < 64)
  | .mirrorRestore port inst _ _ => decide (port < 2) && decide (inst < 64)
  | .mailboxAttest port inst _ _ => decide (port < 2) && decide (inst < 64)
  | .unknownOperation port inst _ _ => decide (port < 2) && decide (inst < 64)
  | .consumedWrite port inst _ _ => decide (port < 2) && decide (inst < 64)
  | .drain port _ => decide (port < 2)
  | .squash port _ => decide (port < 2)
  | .drainLimitExpiry inst => decide (inst < 64)
  | .instanceRetired inst => decide (inst < 64)
  | .instanceZeroingComplete inst => decide (inst < 64)
  | .attest port _ => decide (port < 2)
  | .getMeasurements endpoint _ => decide (endpoint < 3)
  | .keyProg port inst _ => decide (port < 2) && decide (inst ≤ 64)
  | .operatorKey port _ => decide (port < 2)
  | .unlock port _ => decide (port < 2)
  | .raiseFloor port _ => decide (port < 2)
  | .rngFail => true
  | .drbgReseed => true
  | .hang pos => decide (pos < 880)
  | .hangConfirm pos => decide (pos < 880)
  | .writeDiscardTimeout pos => decide (pos < 880)
  | .fence pos => decide (pos < 880)
  | .rename pos => decide (pos < 880)
  | .fenceCore port _ => decide (port < 2)
  | .retireColumn port _ => decide (port < 2)
  | .retrainColumn port _ => decide (port < 2)
  | .readBlackbox port _ => decide (port < 2)
  | .switchMgtFw port _ => decide (port < 2)
  | .reloadMicrocode port _ => decide (port < 2)
  | .liveOperationComplete _ _ _ _ _ => true
  | .mirrorTake index => decide (index < 65536)
  | .mirrorHeaderWrite index => decide (index < 65536)
  | .blackBoxDumpComplete _ => true
  | .freezeArm _ _ _ => true
  | .freeze => true
  | .frozenValid => true
  | .arm _ => true
  | .debugStopHold => true
  | .debugStop => true
  | .resume _ => true
  | .obsRingLoRead => true
  | .obsResidueLoRead => true
  | .corScratchErrRead p => decide (p < 880)
  | .admVarEventsRead => true
  | .admTrainCountsRead => true
  | .grnUpdDoneRead => true
  | .tlnErrRead link => decide (link < 6)
  | .fldSemStatusRead field => decide (field < 80)
  | .fldSemEventsRead field => decide (field < 80)
  | .admStatusRead => true
  | .admDecisionsRead => true
  | .hpErrRead port => decide (port < 2)
  | .secStatusRead => true
  | .panErrRead pos => decide (pos < 880)
  | .grnErrRead ctl => decide (ctl < 2)
  | .mgtThrottleRead => true
  | .registerWrite port _ _ _ => decide (port < 2)
  | .inputDroop _ => true
  | .inputLow _ => true
  | .inputHigh _ => true
  | .overVoltageDisconnect _ => true
  | .mateLoopBreak => true
  | .mateLoopContinuous => true
  | .throttleAssert => true
  | .throttleDeassert => true
  | .columnHot pos _ _ => decide (pos < 880)
  | .fieldHot field _ _ => decide (field < 80)
  | .powerOverLimit _ => true
  | .thermalRelease _ _ _ _ => true
  | .capStep => true
  | .supplyStep field => decide (field < 80)
  | .thermalTrip _ _ _ _ => true
  | .railLimit rail _ => decide (rail < 16)
  | .cageInsertion link _ _ => decide (link < 6)
  | .cageRemoval link => decide (link < 6)
  | .cmisPoll link _ _ => decide (link < 6)
  | .engineInstructionComplete p eng _ _ => decide (p < 880) && decide (eng < 2)
  | .lowerHalfRead _ => true
  | .instancePageRead port inst _ _ _ => decide (port < 2) && decide (inst < 64)
  | .referenceReturn => true
  | .inputInOperatingRange _ => true
  | .trustManagementUncorrectable => true
  | .slotZeroingComplete slot => decide (slot < 4)
  | .forkCopyComplete slot => decide (slot < 4)
  | .unlockZeroingComplete => true
  | .trainOpenZeroingComplete index => decide (index < 65536)
  | .stageInComplete inst => decide (inst < 64)
  | .hostLinkTrainingComplete port _ _ _ => decide (port < 2)
  | .granaryInterfaceRetrain ctl _ => decide (ctl < 2)
  | .spdmSecuredSession endpoint _ => decide (endpoint < 3)
  | .coarsenedWindowEnd _ _ _ _ => true

end Sys2Proof
end

