-- ==== Sys2Proof/Machine/Tab.lean ====
section
/-! DEFINITION. Sparse tables in canonical form: numbers strictly rising, no entry equal to the default.
Every memory of the model (pan, granary, scratchpads, NVS) and every register file is such a table. -/

namespace Sys2Proof.Machine

/-- The value at a number; `d` is what an unlisted number reads as. -/
def Tab.get {α : Type} (d : α) : Tab α → Nat → α
  | [], _ => d
  | (k, v) :: t, n => if n = k then v else if n < k then d else Tab.get d t n

/-- Put an entry in its place, replacing an earlier one. -/
def Tab.insert {α : Type} (n : Nat) (v : α) : Tab α → Tab α
  | [] => [(n, v)]
  | (k, w) :: t =>
    if n < k then (n, v) :: (k, w) :: t
    else if n = k then (n, v) :: t
    else (k, w) :: Tab.insert n v t

/-- Remove an entry. -/
def Tab.erase {α : Type} (n : Nat) : Tab α → Tab α
  | [] => []
  | (k, w) :: t => if n = k then t else if n < k then (k, w) :: t else (k, w) :: Tab.erase n t

/-- Write a value; writing the default removes the entry, so that equal tables are equal data. -/
def Tab.put {α : Type} [DecidableEq α] (d : α) (n : Nat) (v : α) (t : Tab α) : Tab α :=
  if v = d then Tab.erase n t else Tab.insert n v t

/-- Change the value at a number by a function. -/
def Tab.upd {α : Type} [DecidableEq α] (d : α) (n : Nat) (f : α → α) (t : Tab α) : Tab α :=
  Tab.put d n (f (Tab.get d t n)) t

/-- Numbers strictly rise. -/
def Tab.sorted {α : Type} : Tab α → Bool
  | [] => true
  | [_] => true
  | (k, _) :: (l, w) :: t => decide (k < l) && Tab.sorted ((l, w) :: t)

/-- The canonical form: numbers strictly rise and no entry equals the default of its number. -/
def Tab.wf {α : Type} [DecidableEq α] (d : Nat → α) (t : Tab α) : Bool :=
  Tab.sorted t && t.all fun e => decide (e.2 ≠ d e.1)

/-- A memory: the canonical form with zero as the value of an unlisted byte (DESIGN CHOICE, log 1). -/
def Memory.wf (m : List (Nat × Byte)) : Bool := Tab.wf (fun _ => 0) m

/-- Read one byte of a memory whose unlisted bytes read zero. DESIGN CHOICE (log 1). -/
def Memory.byte (m : List (Nat × Byte)) (a : Nat) : Byte := Tab.get 0 m a

/-- Read `n` bytes from address `a` upward. -/
def Memory.read (m : List (Nat × Byte)) (a : Nat) : Nat → List Byte
  | 0 => []
  | n + 1 => Memory.byte m a :: Memory.read m (a + 1) n

/-- Write bytes from address `a` upward. -/
def Memory.write (m : List (Nat × Byte)) (a : Nat) : List Byte → List (Nat × Byte)
  | [] => m
  | b :: bs => Memory.write (Tab.put 0 a b m) (a + 1) bs

/-- Zero every byte from `a` to `a + n - 1` (R70, R76, R376). -/
def Memory.zero (m : List (Nat × Byte)) (a n : Nat) : List (Nat × Byte) :=
  m.filter fun e => !(decide (a ≤ e.1) && decide (e.1 < a + n))

/-- Remove the entries of a table whose numbers meet a test. -/
def Tab.clearIf {α : Type} (p : Nat → Bool) (t : Tab α) : Tab α := t.filter fun e => !p e.1

/-- Change every listed value by a function; a value that becomes the default is removed. -/
def Tab.mapAll {α : Type} [DecidableEq α] (d : α) (f : Nat → α → α) (t : Tab α) : Tab α :=
  (t.map fun e => (e.1, f e.1 e.2)).filter fun e => decide (e.2 ≠ d)

/-- The numbers listed in a table whose values meet a test. -/
def Tab.keysIf {α : Type} (p : α → Bool) (t : Tab α) : List Nat := t.filterMap fun e => if p e.2 then some e.1 else none

/-- The first n items of a list's positions holding an item, with their index. -/
def findIdx? {α : Type} (p : α → Bool) : List α → Option Nat
  | [] => none
  | x :: xs => if p x then some 0 else (findIdx? p xs).map (· + 1)

/-- Replace the items that meet a test. -/
def mapIf {α : Type} (p : α → Bool) (f : α → α) (l : List α) : List α := l.map fun x => if p x then f x else x

end Sys2Proof.Machine
end

