-- ==== Sys2Proof/Machine/Code.lean ====
section
/-! DEFINITION. The Reed-Solomon code of every pan and granary block: 64 data bytes and 8 check bytes over GF(2^8), corrected up
to four symbols (R405, R406). -/

namespace Sys2Proof.Machine

/-! ### The field (R405) -/

/-- Multiplication of symbols under x^8 + x^4 + x^3 + x^2 + 1. -/
def gfMul (a b : Nat) : Nat :=
  (List.range 8).foldr
    (fun i r =>
      let d := if 128 ≤ r then (2 * r) ^^^ 0x11D else 2 * r
      if b.testBit i then d ^^^ a else d) 0

/-- Powers of a symbol, for exponents of 8 bits. -/
def gfPow (a n : Nat) : Nat :=
  (List.range 8).foldr
    (fun i r =>
      let q := gfMul r r
      if n.testBit i then gfMul a q else q) 1

/-- The root α of the field polynomial. -/
def gfAlpha (k : Nat) : Nat := gfPow 2 (k % 255)

/-- The inverse of a symbol that is not zero. -/
def gfInv (a : Nat) : Nat := gfPow a 254

/-! ### Words of the code -/

/-- Value at a symbol of a polynomial given from its highest coefficient. -/
def gfEval (cs : List Nat) (x : Nat) : Nat := cs.foldl (fun r c => gfMul r x ^^^ c) 0

/-- Multiply a polynomial, highest coefficient first, by (x - α^k). -/
def gfRoot (cs : List Nat) (k : Nat) : List Nat :=
  (cs ++ [0]).zipWith (· ^^^ ·) (0 :: cs.map fun c => gfMul c (gfAlpha k))

/-- The generator polynomial, with roots α^0 to α^7 (R405). -/
def rsGen : List Nat := (List.range 8).foldl gfRoot [1]

/-- One data symbol enters the division by the generator. -/
def rsShift (r : List Nat) (d : Nat) : List Nat :=
  let q := r.headD 0 ^^^ d
  (r.drop 1 ++ [0]).zipWith (fun c g => c ^^^ gfMul q g) (rsGen.drop 1)

/-- The 8 check bytes of 64 data bytes: the remainder of the data, its first byte the highest coefficient, on division by the
generator (R405). DEDUCED (log 84). -/
def checkBytes (data : List Byte) : List Byte :=
  ((data.map (·.toNat)).foldl rsShift (List.replicate 8 0)).map (BitVec.ofNat 8)

/-- The 72 symbols stored for 64 data bytes (R405). -/
def codeword (data : List Byte) : List Byte := data ++ checkBytes data

/-- The syndromes of 72 symbols: their values at the roots of the generator. -/
def syndromes (word : List Byte) : List Nat := (List.range 8).map fun k => gfEval (word.map (·.toNat)) (gfAlpha k)

/-- The symbols that differ from zero. -/
def symbolErrors (err : List Byte) : Nat := (err.filter (· ≠ 0)).length

/-! ### Decoding (R406) -/

/-- Add two polynomials given from their lowest coefficient. -/
def gfAdd (a b : List Nat) : List Nat := (List.range (max a.length b.length)).map fun i => a.getD i 0 ^^^ b.getD i 0

/-- The search for the shortest recurrence that the syndromes follow: its coefficients, those before its last change of
length, the length, the distance to that change, and the discrepancy there. -/
structure Recurrence where
  c : List Nat
  b : List Nat
  len : Nat
  m : Nat
  d : Nat
  deriving DecidableEq, Repr

/-- The syndrome of number n is taken in. -/
def rsExtend (syn : List Nat) (r : Recurrence) (n : Nat) : Recurrence :=
  let d := (List.range (r.len + 1)).foldl (fun t i => t ^^^ gfMul (r.c.getD i 0) (syn.getD (n - i) 0)) 0
  if d = 0 then { r with m := r.m + 1 }
  else
    let k := gfMul d (gfInv r.d)
    let c := gfAdd r.c (List.replicate r.m 0 ++ r.b.map (gfMul k))
    if 2 * r.len ≤ n then { c := c, b := r.c, len := n + 1 - r.len, m := 1, d := d } else { r with c := c, m := r.m + 1 }

/-- The error locator of the syndromes. -/
def rsLocate (syn : List Nat) : Recurrence :=
  (List.range 8).foldl (rsExtend syn) { c := [1], b := [1], len := 0, m := 1, d := 1 }

/-- The error at the symbol whose place has the value x (Forney's formula). -/
def rsValue (syn loc : List Nat) (x : Nat) : Nat :=
  let omega := (List.range 8).map fun k =>
    (List.range (k + 1)).foldl (fun t i => t ^^^ gfMul (loc.getD i 0) (syn.getD (k - i) 0)) 0
  let deriv := (List.range loc.length).map fun i => if i % 2 = 0 then loc.getD (i + 1) 0 else 0
  gfMul x (gfMul (gfEval omega.reverse (gfInv x)) (gfInv (gfEval deriv.reverse (gfInv x))))

/-- The codeword within four symbols of 72 received ones, if there is one (R406): found by its syndromes, and checked. -/
def rsDecode (word : List Byte) : Option (List Byte) :=
  let syn := syndromes word
  let r := rsLocate syn
  let places := (List.range 72).filter fun i => gfEval r.c.reverse (gfAlpha (255 - (71 - i))) = 0
  let fixed := places.foldl
    (fun w i => w.set i (w.getD i 0 ^^^ BitVec.ofNat 8 (rsValue syn r.c (gfAlpha (71 - i))))) word
  if r.len ≤ 4 ∧ places.length = r.len ∧ (syndromes fixed).all (· = 0) then some fixed else none

/-- What a read finds of a block: nothing wrong; its data corrected; another codeword's data, taken for a correction or for
no error at all; or data as read that cannot be corrected. -/
inductive Found where
  | intact
  | corrected
  | wrong (reported : Bool) (data : List Byte)
  | uncorrectable (data : List Byte)
  deriving DecidableEq, Repr

/-- The decoding of a block whose 72 symbols are hit by an error pattern (R406): up to four symbol errors give the stored data
back; a heavier pattern is uncorrectable, with the data as read, unless it lies within four symbols of another codeword, which is
given as if corrected. -/
def rsRead (data err : List Byte) : Found :=
  let e := slice err 0 72
  if symbolErrors e = 0 then .intact
  else if symbolErrors e ≤ 4 then .corrected
  else
    let word := (codeword data).zipWith (· ^^^ ·) e
    match rsDecode word with
    | some w => .wrong (decide (w ≠ word)) (w.take 64)
    | none => .uncorrectable (word.take 64)

end Sys2Proof.Machine
end

