-- ==== Sys2Proof/Machine/Flags.lean ====
section
/-! DEFINITION. The four sticky flags (R173): bit 0 OVERFLOW, bit 1 UNDERFLOW, bit 2 NAN, bit 3 SHED. -/

namespace Sys2Proof.Machine

/-- A set of sticky flags in the bit order of COR_STICKY (R112). -/
abbrev Flags := BitVec 4

def Flags.none : Flags := 0
def Flags.overflow : Flags := 1
def Flags.underflow : Flags := 2
def Flags.nan : Flags := 4
def Flags.shed : Flags := 8

/-- Flags of several results ORed together (R174, R175). -/
def Flags.all (l : List Flags) : Flags := l.foldl (· ||| ·) 0

/-- The flag bit when a condition holds. -/
def Flags.when (b : Bool) (f : Flags) : Flags := if b then f else 0

end Sys2Proof.Machine
end

