-- ==== Sys2Proof/Machine/Numerics.lean ====
section
/-! DEFINITION. Number formats, exact values, rounding and the arithmetic of R154 to R177. Every value is exact
(a sign, a natural significand and a power of two) until the one rounding the spec names. -/

namespace Sys2Proof.Machine

/-- An exact value: NaN, an infinity, or (-1)^neg * m * 2^e. Zero keeps its sign. -/
inductive Num where
  | nan
  | inf (neg : Bool)
  | fin (neg : Bool) (m : Nat) (e : Int)
  deriving DecidableEq, Repr

/-- Special encodings of a floating format (R155). -/
inductive Specials where
  | ieee | e4m3 | none | uf8
  deriving DecidableEq, Repr

/-- A floating storage format (R154): exponent bits, fraction bits, bias, sign bit, specials, subnormals. -/
structure Fmt where
  eb : Nat
  mb : Nat
  bias : Nat
  signed : Bool
  special : Specials
  subnormals : Bool
  deriving DecidableEq, Repr

/-- Format codes of R121. -/
def fF32 : Nat := 0
def fF16 : Nat := 1
def fBF16 : Nat := 2
def fA40 : Nat := 11
def fI32 : Nat := 12
def fBIT : Nat := 13
def fUF8 : Nat := 10

/-- The floating format of a format code (R154, R156); none for the integers, BIT and reserved codes. -/
def fmtOf : Nat → Option Fmt
  | 0 => some ⟨8, 23, 127, true, .ieee, true⟩
  | 1 => some ⟨5, 10, 15, true, .ieee, true⟩
  | 2 => some ⟨8, 7, 127, true, .ieee, true⟩
  | 3 => some ⟨4, 3, 7, true, .e4m3, true⟩
  | 4 => some ⟨5, 2, 15, true, .ieee, true⟩
  | 5 => some ⟨3, 2, 3, true, .none, true⟩
  | 6 => some ⟨2, 3, 1, true, .none, true⟩
  | 7 => some ⟨2, 1, 1, true, .none, true⟩
  | 10 => some ⟨5, 3, 15, false, .uf8, true⟩
  | 11 => some ⟨8, 31, 127, true, .ieee, false⟩
  | _ => none

/-- The number of bits of an integer format (R154): I8, I4, I32. -/
def intBits : Nat → Option Nat
  | 8 => some 8
  | 9 => some 4
  | 12 => some 32
  | _ => none

/-- Bits of one code of a format (R121). -/
def fmtBits : Nat → Nat
  | 0 => 32 | 1 => 16 | 2 => 16 | 3 => 8 | 4 => 8 | 5 => 6 | 6 => 6 | 7 => 4 | 8 => 8 | 9 => 4
  | 10 => 8 | 11 => 40 | 12 => 32 | 13 => 1 | _ => 0

/-- Formats stored in blocks of 64 codes with a block exponent (R121, R179). -/
def isPacked (f : Nat) : Bool := decide (3 ≤ f) && decide (f ≤ 10)

/-- Whether a format code is defined (R121). -/
def fmtDefined (f : Nat) : Bool := decide (f ≤ 13)

/-- Sign, exponent field and fraction of a code. -/
def Fmt.split (f : Fmt) (code : Nat) : Bool × Nat × Nat :=
  (f.signed && bit code (f.eb + f.mb), bits code (f.eb + f.mb - 1) f.mb, code % 2 ^ f.mb)

/-- The exponent of the smallest normal value, and of the last place of a subnormal. -/
def Fmt.emin (f : Fmt) : Int := 1 - (f.bias : Int)
def Fmt.ulpMin (f : Fmt) : Int := f.emin - (f.mb : Int)

/-- The value of a floating code (R154, R155, R156). -/
def Fmt.decode (f : Fmt) (code : Nat) : Num :=
  let s := f.split code
  let (neg, e, m) := s
  let top := 2 ^ f.eb - 1
  let special : Option Num :=
    match f.special with
    | .ieee => if e = top then some (if m = 0 then .inf neg else .nan) else none
    | .e4m3 => if e = top ∧ m = 2 ^ f.mb - 1 then some .nan else none
    | .uf8 => if e = top ∧ m = 2 ^ f.mb - 1 then some .nan else none
    | .none => none
  match special with
  | some v => v
  | none =>
    if e = 0 then .fin neg (if f.subnormals then m else 0) f.ulpMin
    else .fin neg (2 ^ f.mb + m) ((e : Int) - f.bias - f.mb)

/-- The value of a code of any format (R154); BIT and reserved codes stand for 0. -/
def decodeNum (f code : Nat) : Num :=
  match fmtOf f with
  | some t => t.decode (code % 2 ^ (fmtBits f))
  | none =>
    match intBits f with
    | some n => let v := sext n code; .fin (decide (v < 0)) v.natAbs 0
    | none => if f = fBIT then .fin false (code % 2) 0 else .fin false 0 0

/-- The largest finite value of a floating format, as significand and power of two (R155). -/
def Fmt.maxFin (f : Fmt) : Nat × Int :=
  let top : Int := (2 ^ f.eb - 1 : Nat)
  match f.special with
  | .ieee => (2 ^ (f.mb + 1) - 1, top - 1 - f.bias - f.mb)
  | .e4m3 => (2 ^ (f.mb + 1) - 2, top - f.bias - f.mb)
  | .uf8 => (2 ^ (f.mb + 1) - 2, top - f.bias - f.mb)
  | .none => (2 ^ (f.mb + 1) - 1, top - f.bias - f.mb)

/-- m * 2^e ≤ n * 2^g. -/
def leScaled (m : Nat) (e : Int) (n : Nat) (g : Int) : Bool :=
  if e ≤ g then decide (m ≤ n * 2 ^ (g - e).toNat) else decide (m * 2 ^ (e - g).toNat ≤ n)

/-- Rounding modes of R133: 0 RNE, 1 RTZ, 2 SR with a 12-bit draw (R168). -/
inductive Rnd where
  | rne | rtz | sr (draw : Nat)
  deriving DecidableEq, Repr

/-- m * 2^e rounded to a whole number of 2^u (R167, R168). -/
def roundAt (mode : Rnd) (m : Nat) (e u : Int) : Nat :=
  if u ≤ e then m * 2 ^ (e - u).toNat
  else
    let d := 2 ^ (u - e).toNat
    let q := m / d
    let r := m % d
    match mode with
    | .rtz => q
    | .rne => if 2 * r > d ∨ (2 * r = d ∧ q % 2 = 1) then q + 1 else q
    | .sr draw => if r * 4096 / d + draw ≥ 4096 then q + 1 else q

/-- The exponent of the leading bit of m * 2^e, for m not zero. -/
def leadExp (m : Nat) (e : Int) : Int := (Nat.log2 m : Int) + e

/-- The last place at which a value is rounded to a floating format. -/
def Fmt.ulpOf (f : Fmt) (m : Nat) (e : Int) : Int :=
  let u := leadExp m e - f.mb
  if f.subnormals then max u f.ulpMin else u

/-- The code of q * 2^u, which the format holds exactly. -/
def Fmt.encode (f : Fmt) (neg : Bool) (q : Nat) (u : Int) : Nat :=
  let sgn := if neg ∧ f.signed then 2 ^ (f.eb + f.mb) else 0
  if q = 0 then sgn
  else
    let l := leadExp q u
    if l < f.emin then sgn + (q * 2 ^ (u - f.ulpMin).toNat)
    else
      let frac : Nat :=
        if u ≤ l - f.mb then q / 2 ^ (l - f.mb - u).toNat else q * 2 ^ (u - (l - f.mb)).toNat
      sgn + (l + f.bias).toNat * 2 ^ f.mb + (frac - 2 ^ f.mb)

/-- Codes of the specials (R155, R164, R171). -/
def Fmt.infCode (f : Fmt) (neg : Bool) : Nat :=
  (if neg then 2 ^ (f.eb + f.mb) else 0) + (2 ^ f.eb - 1) * 2 ^ f.mb
def Fmt.nanCode (f : Fmt) (neg : Bool) : Nat :=
  match f.special with
  | .ieee => (2 ^ f.eb - 1) * 2 ^ f.mb + 2 ^ (f.mb - 1)
  | .e4m3 => (if neg then 2 ^ (f.eb + f.mb) else 0) + (2 ^ (f.eb + f.mb) - 1)
  | .uf8 => 2 ^ (f.eb + f.mb) - 1
  | .none => 0
def Fmt.maxCode (f : Fmt) (neg : Bool) : Nat :=
  let v := f.maxFin
  f.encode neg v.1 v.2
def Fmt.hasInf (f : Fmt) : Bool := f.special = .ieee
def Fmt.hasNan (f : Fmt) : Bool := f.special ≠ .none

/-- What a finite value too large for the format becomes (R170), with its flags (R173). -/
def Fmt.over (f : Fmt) (neg ieee : Bool) : Nat × Flags :=
  if ieee = false ∨ f.special = .none then (f.maxCode neg, Flags.overflow)
  else if f.hasInf then (f.infCode neg, Flags.overflow)
  else (f.nanCode neg, Flags.overflow ||| Flags.nan)

/-- Conversion of an exact value to a floating format (R167 to R172). `ieee` is SATM. -/
def Fmt.convert (f : Fmt) (mode : Rnd) (ieee : Bool) : Num → Nat × Flags
  | .nan => ((if f.hasNan then f.nanCode false else 0), Flags.nan)
  | .inf neg =>
    if f.signed = false ∧ neg then
      (if ieee then (f.nanCode false, Flags.overflow ||| Flags.nan) else (0, Flags.overflow))
    else if ieee ∧ f.hasInf then (f.infCode neg, 0)
    else if ieee ∧ f.hasNan then (f.nanCode neg, Flags.overflow ||| Flags.nan)
    else (f.maxCode neg, Flags.overflow)
  | .fin neg m e =>
    if m = 0 then (f.encode neg 0 0, 0)
    else if f.signed = false ∧ neg then
      (if ieee then (f.nanCode false, Flags.overflow ||| Flags.nan) else (0, Flags.overflow))
    else
      let u := f.ulpOf m e
      let q := roundAt mode m e u
      let mx := f.maxFin
      if q = 0 ∨ (f.subnormals = false ∧ leScaled 1 f.emin q u = false) then (f.encode neg 0 0, Flags.underflow)
      else if leScaled q u mx.1 mx.2 then (f.encode neg q u, 0)
      else f.over neg ieee

/-- Conversion to an integer format (R170 to R172): rounding at the units place, clamping at the ends. -/
def convertInt (n : Nat) (mode : Rnd) : Num → Nat × Flags
  | .nan => (0, Flags.nan)
  | .inf neg => (if neg then 2 ^ (n - 1) else 2 ^ (n - 1) - 1, Flags.overflow)
  | .fin neg m e =>
    let q := roundAt mode m e 0
    if neg then
      if q ≤ 2 ^ (n - 1) then ((2 ^ n - q) % 2 ^ n, 0) else (2 ^ (n - 1), Flags.overflow)
    else if q < 2 ^ (n - 1) then (q, 0) else (2 ^ (n - 1) - 1, Flags.overflow)

/-- Conversion of an exact value to the code of any format but BIT (R167 to R172). -/
def convertNum (f : Nat) (mode : Rnd) (ieee : Bool) (v : Num) : Nat × Flags :=
  match fmtOf f with
  | some t => t.convert mode ieee v
  | none =>
    match intBits f with
    | some n => convertInt n mode v
    | none => (0, 0)

/-- An exact value times a power of two. -/
def Num.scale (v : Num) (k : Int) : Num :=
  match v with
  | .fin n m e => .fin n m (e + k)
  | v => v

def Num.neg : Num → Num
  | .nan => .nan
  | .inf s => .inf (!s)
  | .fin s m e => .fin (!s) m e

def Num.abs : Num → Num
  | .nan => .nan
  | .inf _ => .inf false
  | .fin _ m e => .fin false m e

def Num.isNan : Num → Bool
  | .nan => true
  | _ => false

def Num.isZero : Num → Bool
  | .fin _ 0 _ => true
  | _ => false

def Num.isFinite : Num → Bool
  | .fin _ _ _ => true
  | _ => false

/-- The significand of a value counted in units of 2^u, for u at most its exponent. -/
def signedAt (neg : Bool) (m : Nat) (e u : Int) : Int :=
  let v : Int := (m * 2 ^ (e - u).toNat : Nat)
  if neg then -v else v

/-- Exact sum (R161, R163): opposite infinities give NaN; an exact cancellation gives +0. -/
def Num.add : Num → Num → Num
  | .nan, _ => .nan
  | _, .nan => .nan
  | .inf a, .inf b => if a = b then .inf a else .nan
  | .inf a, .fin _ _ _ => .inf a
  | .fin _ _ _, .inf b => .inf b
  | .fin a m e, .fin b n g =>
    if m = 0 ∧ n = 0 then .fin (a && b) 0 0
    else if m = 0 then .fin b n g
    else if n = 0 then .fin a m e
    else
      let u := min e g
      let v := signedAt a m e u + signedAt b n g u
      .fin (decide (v < 0)) v.natAbs u

/-- Exact product (R158, R163): zero times infinity gives NaN (R164). -/
def Num.mul : Num → Num → Num
  | .nan, _ => .nan
  | _, .nan => .nan
  | .inf a, .inf b => .inf (a != b)
  | .inf a, .fin b m _ => if m = 0 then .nan else .inf (a != b)
  | .fin a m _, .inf b => if m = 0 then .nan else .inf (a != b)
  | .fin a m e, .fin b n g => .fin (a != b) (m * n) (e + g)

/-- a < b for values that are not NaN; +0 and -0 are equal (R165). -/
def Num.lt : Num → Num → Bool
  | .nan, _ => false
  | _, .nan => false
  | .inf a, .inf b => a && !b
  | .inf a, .fin _ _ _ => a
  | .fin _ _ _, .inf b => !b
  | .fin a m e, .fin b n g =>
    let u := min e g
    decide (signedAt a m e u < signedAt b n g u)

/-- a = b as numbers (R165). -/
def Num.eq (a b : Num) : Bool :=
  match a, b with
  | .nan, _ => false
  | _, .nan => false
  | _, _ => !Num.lt a b && !Num.lt b a

/-- The larger of two magnitudes for the statistics: NaN wins (R186). -/
def Num.maxAbs (a b : Num) : Num :=
  match a, b.abs with
  | .nan, _ => .nan
  | _, .nan => .nan
  | a, b => if Num.lt a b then b else a

/-! ### Element-engine arithmetic (R163 to R165) -/

/-- The arithmetic format of FMT 0 or 1 (R151). -/
def arithFmt (fmt : Nat) : Nat := if fmt = 1 then fA40 else fF32

/-- A rounded arithmetic result in F32 or A40, with NAN set for a NaN (R163, R164, R173). -/
def arith (fmt : Nat) (v : Num) : Nat × Flags := convertNum (arithFmt fmt) .rne true v

/-- MIN (false) or MAX (true) of two operand codes (R165): a single NaN is ignored; -0 is smaller than +0.
DEDUCED (log 49). -/
def minMax (fmt : Nat) (mx : Bool) (a b : Nat) : Nat × Flags :=
  let f := arithFmt fmt
  let x := decodeNum f a
  let y := decodeNum f b
  match x, y with
  | .nan, y => convertNum f .rne true y
  | x, .nan => convertNum f .rne true x
  | x, y =>
    let xneg := match x with | .fin n _ _ => n | .inf n => n | .nan => false
    let less := Num.lt x y || (Num.eq x y && xneg)
    convertNum f .rne true (if less != mx then x else y)

/-! ### Transcendental micro-operations (R166) -/

/-- The largest F32 code in 0 to 0x7F7FFFFF whose value meets a predicate that holds of 0 and then falls. -/
def searchCode (p : Nat → Bool) : Nat :=
  (List.range 31).foldl
    (fun c i =>
      let c' := c + 2 ^ (30 - i)
      if c' ≤ 0x7F7FFFFF ∧ p c' then c' else c) 0

/-- Value of a finite F32 code as significand and exponent. -/
def f32Parts (code : Nat) : Nat × Int :=
  match decodeNum fF32 code with
  | .fin _ m e => (m, e)
  | _ => (0, 0)

/-- The base-two logarithm of m * 2^e in units of 2^-96, by repeated squaring; the error is below 2^-80. -/
def log2Fix (m : Nat) (e : Int) : Int :=
  let l := Nat.log2 m
  let x0 := m * 2 ^ 160 / 2 ^ l
  let r := (List.range 96).foldl
    (fun (st : Nat × Nat) _ =>
      let y := st.1 * st.1 / 2 ^ 160
      if y ≥ 2 ^ 161 then (y / 2, 2 * st.2 + 1) else (y, 2 * st.2)) (x0, 0)
  ((l : Int) + e) * 2 ^ 96 + r.2

/-- v * 2^w ≤ 1 is exact: the greatest code not above 1 / (m * 2^e). DESIGN CHOICE (log 11). -/
def rcpBase (m : Nat) (e : Int) : Nat :=
  searchCode fun c => let v := f32Parts c; leScaled (v.1 * m) (v.2 + e) 1 0

/-- The greatest code not above 1 / sqrt(m * 2^e). -/
def rsqBase (m : Nat) (e : Int) : Nat :=
  searchCode fun c => let v := f32Parts c; leScaled (v.1 * v.1 * m) (2 * v.2 + e) 1 0

/-- The greatest code not above 2^x, x = (-1)^neg * m * 2^e, compared in units of 2^-96. -/
def exp2Base (neg : Bool) (m : Nat) (e : Int) : Nat :=
  searchCode fun c =>
    let v := f32Parts c
    if v.1 = 0 then true
    else
      let l := log2Fix v.1 v.2
      let x := signedAt neg m (max e (-96)) (-96)
      decide (l ≤ if e < -96 then (if neg then -1 else 0) else x)

/-- The magnitude code for |x| where x is given in units of 2^-96, truncated. -/
def fixCode (x : Nat) : Nat :=
  if x = 0 then 0 else ((fmtOf fF32).map fun f => (f.convert .rtz true (.fin false x (-96))).1).getD 0

/-- A code moved by the unspecified step within the error bound: from lo to hi codes above the base (R166, log 11). -/
def freeStep (op : Nat) (x : BitVec 32) (base lo hi : Nat) : Nat :=
  let k := Config.transcendentalStep op x % (lo + hi + 1)
  (base + k) - lo

/-- RCP, RSQ, EXP2 and LOG2 (op 0x20 to 0x23) of an F32 code (R164, R166). DESIGN CHOICE (log 11). -/
def transcendental (op : Nat) (x : BitVec 32) : Nat × Flags :=
  let inf (n : Bool) : Nat := if n then 0xFF800000 else 0x7F800000
  let sgn (n : Bool) : Nat := if n then 0x80000000 else 0
  let qnan : Nat × Flags := (0x7FC00000, Flags.nan)
  match op, decodeNum fF32 x.toNat with
  | _, .nan => qnan
  | 0x20, .inf n => (sgn n, 0)
  | 0x20, .fin n m e =>
    if m = 0 then (inf n, Flags.overflow)
    else if leScaled (m * 2 ^ 127) (e + 1) 1 0 then (inf n, Flags.overflow)
    else
      let b := rcpBase m e
      let v := f32Parts b
      let exact := leScaled 1 0 (v.1 * m) (v.2 + e)
      let c := freeStep op x b (if exact then min b 1 else 0) 1
      (sgn n + c, Flags.when (decide (c ≥ 0x7F800000)) Flags.overflow)
  | 0x21, .inf n => if n then qnan else (0, 0)
  | 0x21, .fin n m e =>
    if m = 0 then (inf n, Flags.overflow)
    else if n then qnan
    else
      let b := rsqBase m e
      let v := f32Parts b
      let exact := leScaled 1 0 (v.1 * v.1 * m) (2 * v.2 + e)
      (freeStep op x b (if exact then 1 else 0) 1, 0)
  | 0x22, .inf n => if n then (0, 0) else (inf false, 0)
  | 0x22, .fin n m e =>
    if m ≠ 0 ∧ n = false ∧ leScaled 128 0 m e then (inf false, Flags.overflow)
    else
      let b := exp2Base n m e
      let c := freeStep op x b (min b 1) 2
      if c = 0 then (0, Flags.underflow)
      else if c ≥ 0x7F800000 then (inf false, Flags.overflow)
      else (c, 0)
  | 0x23, .inf n => if n then qnan else (inf false, 0)
  | 0x23, .fin n m e =>
    if m = 0 then (inf true, Flags.overflow)
    else if n then qnan
    else
      let l := log2Fix m e
      if l = 0 ∧ leScaled 1 0 m e ∧ leScaled m e 1 0 then (0, 0)
      else
        let b := fixCode l.natAbs
        (sgn (decide (l < 0)) + freeStep op x b (min b 1) 2, 0)
  | _, _ => (0, 0)

/-! ### Dot groups and the accumulator (R158 to R161) -/

/-- The group sum of a dot group's exact products, and whether bits were shed (R159, R160). -/
def groupSum (ps : List Num) : Num × Bool :=
  if ps.any Num.isNan then (.nan, false)
  else
    let pinf := ps.any fun p => p = .inf false
    let ninf := ps.any fun p => p = .inf true
    if pinf ∧ ninf then (.nan, false)
    else if pinf then (.inf false, false)
    else if ninf then (.inf true, false)
    else
      let tops := ps.filterMap fun p =>
        match p with
        | .fin _ m e => if m = 0 then none else some (leadExp m e)
        | _ => none
      match tops with
      | [] => (.fin false 0 0, false)
      | t :: ts =>
        let u := ts.foldl max t - 48
        let r := ps.foldl
          (fun (st : Int × Bool) p =>
            match p with
            | .fin n m e =>
              if u ≤ e then (st.1 + signedAt n m e u, st.2)
              else
                let d := 2 ^ (u - e).toNat
                let q : Int := (m / d : Nat)
                (st.1 + (if n then -q else q), st.2 || decide (m % d ≠ 0))
            | _ => st) (0, false)
        (.fin (decide (r.1 < 0)) r.1.natAbs u, r.2)

/-- Adding a group sum into an A40 accumulator (R161). -/
def accumulate (acc : BitVec 40) (g : Num) : BitVec 40 × Flags :=
  match g with
  | .fin false 0 _ => (acc, Flags.when (Num.isNan (decodeNum fA40 acc.toNat)) Flags.nan)
  | g =>
    let r := convertNum fA40 .rne true (Num.add (decodeNum fA40 acc.toNat) g)
    (BitVec.ofNat 40 r.1, r.2)

/-- A code expanded to the internal format of its mode (R85, R157): `mb` 3 for N12, 10 for W19. -/
def expand (mb : Nat) (v : Num) (b : Nat) : Num × Flags :=
  match v with
  | .nan => (.nan, 0)
  | .inf n => (.inf n, 0)
  | .fin n m e =>
    if m = 0 then (.fin n 0 0, 0)
    else
      let pre := if leScaled 1 (-126) m e then some () else none
      match pre with
      | none => (.fin n 0 0, Flags.underflow)
      | some _ =>
        let e' := e + (b : Int) - 127
        if leScaled 1 (-126) m e' = false then (.fin n 0 0, Flags.underflow)
        else if leScaled m e' (2 ^ (mb + 1) - 1) (127 - (mb : Int)) = false then (.inf n, Flags.overflow)
        else (.fin n m e', 0)

/-- One BF16 operand widened and added into an F32 target by a sump (R177). -/
def sumpAdd (target : BitVec 32) (bf : BitVec 16) : BitVec 32 × Flags :=
  let r := arith 0 (Num.add (decodeNum fF32 target.toNat) (decodeNum fBF16 bf.toNat))
  (BitVec.ofNat 32 r.1, r.2)

end Sys2Proof.Machine
end

