-- ==== Sys2Proof/Machine/State.lean ====
section
/-! DEFINITION. The state of the block: every register, memory, queue and table the spec gives the Efber F880,
as plain data, and the state right after reset. Field defaults are the reset values. -/

namespace Sys2Proof.Machine

/-- Why the machine stops. No meaning answers with a fault: every stop the spec describes is an effect on State,
so the one constructor is never raised. Safe. -/
inductive Fault where
  /-- Raised by nothing. Safe: the type of stop reasons needs a member to be a closed inductive. -/
  | none
  deriving DecidableEq, Repr

/-- Why a command has no meaning. -/
inductive Refusal where
  /-- Raised by exec for a row without a meaning; no row is without one. Safe: the run stops. -/
  | notModelled (mnemonic : String)
  deriving DecidableEq, Repr

/-! ### The core (R78 to R153) -/

/-- What a core's task does; FENCED and SPARE come from the position state, STOPPED from its field's region (R112). -/
inductive CoreAct where
  | idle | running | waiting | retention | faulted
  deriving DecidableEq, Repr

/-- A full/empty operation of FE.LOAD or FE.STORE (R140): the pan address, the scratch line and KEEP. -/
structure FeOp where
  load : Bool
  addr : Word
  line : Nat
  keep : Bool
  deriving DecidableEq, Repr

/-- What a sequencer waits for (R79, R139, R144, R145). -/
inductive SeqWait where
  | none
  | semPerformed
  | semWait
  | fe (op : FeOp)
  | feRetry (due : Nat) (op : FeOp)
  | plan (planId : Nat)
  | planAck (n : Nat) (planId : Nat)
  | planBarrier (n : Nat)
  | halt
  deriving DecidableEq, Repr

/-- The lane mask set by ELT.MASK (R132). -/
structure LaneMask where
  bmp : Option (BitVec 128)
  ranges : Option (Nat × Nat × Nat × Nat)
  deriving DecidableEq, Repr

/-- The statistics of the most recent instruction with STAT (R185), as F32 maxima. -/
structure Stats where
  rows : Nat
  cols : Nat
  block : List (BitVec 32)
  row : List (BitVec 32)
  col : List (BitVec 32)
  tile : BitVec 32
  deriving DecidableEq, Repr

/-- An engine instruction issued and not complete (R79, R80, R122): its word, the registers and the mask that the engine took a
copy of at issue, and what it names. `eng` 0 matrix, 1 element and crystalliser. DESIGN CHOICE (log 6). -/
structure InFlight where
  id : Nat
  eng : Nat
  idx : Nat
  word : Nat
  t : Tab (BitVec 128)
  a : Tab Word
  v0 : BitVec 128
  mask : Option LaneMask
  descs : List Nat
  blocksRead : List Nat
  blocksWritten : List Nat
  deriving DecidableEq, Repr

/-- A copy descriptor after the additions of SREG and TREG (R100, R138). `fmt` is the packed format EXPAND reads. -/
structure Desc where
  src : Word
  dst : Word
  xLen : Nat
  yCount : Nat
  zCount : Nat
  srcY : Int
  srcZ : Int
  dstY : Int
  dstZ : Int
  sem : Nat
  semAdd : Nat
  flags : Nat
  reserved : Bool
  fmt : Nat
  deriving DecidableEq, Repr

/-- A CPY in a copy engine's queue (R104, R137). `waits` are the engine instructions AFTER_E and AFTER_M name. -/
structure CpyEntry where
  id : Nat
  idx : Nat
  op : Nat
  scratch : Nat
  srcAdd : Word
  dstAdd : Word
  waits : List Nat
  desc : Option Desc
  deriving DecidableEq, Repr

/-- One piece of a copy in its order: where its source lies, and its plane, row and byte offset in the row (R101). -/
structure Piece where
  seq : Nat
  src : Word
  len : Nat
  plane : Nat
  row : Nat
  x : Nat
  deriving DecidableEq, Repr

/-- A write of a copy that waits to leave. -/
structure CopyWrite where
  dst : Word
  data : List Byte
  deriving DecidableEq, Repr

/-- A started descriptor (R104, R105), read at offset `scratch`. `cur` is the plane, row and offset next to be read; `reads` the pieces asked for,
oldest first; `buf` the bytes held for EXPAND or for merging on a link; `outstanding` the writes not acknowledged;
`flush` for a host destination: 0 not yet, 1 zero-length read outstanding, 2 returned. -/
structure ActDesc where
  id : Nat
  idx : Nat
  scratch : Nat
  desc : Desc
  sem : Option Nat
  cur : Option (Nat × Nat × Nat)
  nextSeq : Nat
  reads : List Piece
  buf : List Byte
  bufDst : Word
  outq : List CopyWrite
  outstanding : Nat
  flush : Nat
  stopped : Bool
  deriving DecidableEq, Repr

/-- A copy engine: queue of 8 and started descriptors (R79, R99). -/
structure CopyEng where
  queue : List CpyEntry := []
  act : List ActDesc := []
  deriving DecidableEq, Repr

/-- COR_FAULT (R112). -/
structure CoreFault where
  cause : Nat := 0
  unit : Nat := 0
  idx : Nat := 0
  detail : Nat := 0
  deriving DecidableEq, Repr

/-- The march-test engine and its registers (R111, R112). `busy` 0 none, 1 destructive, 2 content-preserving. -/
structure March where
  banks : BitVec 16 := 0xFFFF
  busy : Nat := 0
  done : Bool := false
  fail : Bool := false
  refused : Bool := false
  firstBank : Nat := 0
  failLines : Nat := 0
  deriving DecidableEq, Repr

/-- One core position (R78 to R153). -/
structure Core where
  act : CoreAct := .idle
  retain : Bool := true
  waking : Option Nat := .none
  inst : Nat := 0
  seq : Nat := 0
  taskNo : Nat := 0
  taskId : Nat := 0
  planCount : Nat := 0
  fault : CoreFault := {}
  sticky : BitVec 4 := 0
  a : Tab Word := []
  c : Tab (BitVec 32) := []
  t : Tab (BitVec 128) := []
  v0 : BitVec 128 := 0
  k : BitVec 8 := 0
  stack : List Nat := []
  pi : Nat := 0
  store : Tab Word := []
  slots : Tab (List (BitVec 32)) := []
  mask : Option LaneMask := .none
  acc : Tab (BitVec 40) := []
  accFree : Option Nat := .none
  accFlags : Tab (BitVec 4) := []
  stats : Option Stats := .none
  seed : Nat := 0
  srBarrier : Nat := 0
  srCtr : Tab Nat := []
  nextId : Nat := 0
  inflight : List InFlight := []
  ce0 : CopyEng := {}
  ce1 : CopyEng := {}
  wait : SeqWait := .none
  ueCause : Nat := 0
  ueAddr : Nat := 0
  scratch : List Host.Cell := []
  scratchFree : Option Nat := .none
  ueWords : List Nat := []
  corrected : Nat := 0
  uncorrected : Nat := 0
  lastBank : Nat := 0
  march : March := {}
  saveArea : Nat := 0
  semBase : Nat := 0
  semCount : Nat := 0
  hungAt : Option Nat := .none
  hangReads : Nat := 0
  deriving DecidableEq, Repr

/-! ### Tokens in flight -/

/-- What a token on a channel is (R438 kinds, refined). -/
inductive TokKind where
  | readReq | readData | write | accumulate | semAdd | semSub | waitge | waitsub | fe | wake | ack
  deriving DecidableEq, Repr

/-- Who waits for the answer to a token. -/
inductive Origin where
  | ce (p e d : Nat)
  | seq (p : Nat)
  | link (n tag : Nat)
  | none
  deriving DecidableEq, Repr

/-- A token on a channel between two units (R34, R438): `n` an amount or a length, `seq` the piece of a copy it serves,
`ue` the fault cause an uncorrectable block will raise (R410), `path` the regions it has still to enter, the last its
destination's (R25, R26, R29). -/
structure Token where
  id : Nat
  kind : TokKind
  origin : Origin
  inst : Nat
  srcUnit : Nat
  dstUnit : Nat
  addr : Word
  n : Nat
  seq : Nat := 0
  data : List Byte := []
  ue : Nat := 0
  fe : Option FeOp := .none
  path : List Nat := []
  deriving DecidableEq, Repr

/-- A wait in a semaphore waiter table (R317). -/
structure SemWaiter where
  phys : Nat
  n : Nat
  sub : Bool
  p : Nat
  inst : Nat
  taskId : Nat
  deriving DecidableEq, Repr

/-- A full/empty operation waiting at a column controller (R324): `block` counts 64-byte blocks of the column `pos`. -/
structure FeWaiter where
  block : Nat
  pos : Nat
  p : Nat
  inst : Nat
  taskId : Nat
  op : FeOp
  data : List Byte
  deriving DecidableEq, Repr

/-! ### Fields (R12 to R15, R313 to R329, R331 to R333) -/

/-- The caps in force on a field, by cause (R444, R445); `rising`: the thermal cap is being lifted. The THROTTLE# cap is
that of Mgt. -/
structure Caps where
  refresh : Option Nat := .none
  thermal : Option Nat := .none
  rising : Bool := false
  power : Option Nat := .none
  deriving DecidableEq, Repr

/-- One field's semaphore registers (R328) and caps. -/
structure Field where
  semSelect : BitVec 12 := 0
  semPeak : Nat := 0
  saturated : Nat := 0
  clamped : Nat := 0
  semOps : Nat := 0
  caps : Caps := {}
  deriving DecidableEq, Repr

/-- A region's speed, supply and keeper (R331, R332, R355); `held` lists the stop causes in force (R34, R433);
`busyBeats` counts the beats of the current 100 ms window and `coarse` is the coarsened count (R396, R430); `tempSum` and
`tempN` gather the junction readings of the current 1 s window, and `tempAvg` is the average of the last one (R397);
`recent` holds the junction readings of the last 100 ms with their times (R334). -/
structure Region where
  rate : Nat := 0
  mv : Nat := 0
  temp : Nat := 0
  aboveSince : Option Nat := .none
  floor : Nat := 0
  busyBeats : Nat := 0
  coarse : Nat := 0
  tempSum : Nat := 0
  tempN : Nat := 0
  tempAvg : Nat := 0
  recent : List (Nat × Nat) := []
  held : List Nat := []
  deriving DecidableEq, Repr

/-- A pan column controller or granary controller's registers (R427). `ueAt`: when its last 255 uncorrectable blocks were
found, for UE_24H; `temp0` and `temp7`: the sensors of a pan column in layers 0 and 7 (R11). -/
structure MemCtl where
  corrected : Nat := 0
  uncorrected : Nat := 0
  rebuilt : Nat := 0
  retraining : Bool := false
  ueAt : List Nat := []
  scrubPasses : Nat := 0
  hot : Bool := false
  temp0 : Nat := 0
  temp7 : Nat := 0
  deriving DecidableEq, Repr

/-! ### The Zenal image (R43 to R61) -/

/-- A column's DRAM temperature: the higher of its two sensors (R11). -/
def MemCtl.temp (m : MemCtl) : Nat := max m.temp0 m.temp7

/-- INSTANCE record (R47). -/
structure InstRec where
  inst : Nat
  confidential : Bool
  port : Nat
  classA : Nat
  pasid : Nat
  granBase : Nat
  granSize : Nat
  quota : Nat
  drainMs : Nat
  deriving DecidableEq, Repr

/-- FIELD record (R48). -/
structure FieldRec where
  field : Nat
  inst : Nat
  routes : Nat
  deriving DecidableEq, Repr

/-- PAN_CARVE record (R50). KIND 0 BASE, 1 VARIANT, 2 TRAINING, 3 ACTIVATION, 4 RESERVE. -/
structure CarveRec where
  first : Nat
  last : Nat
  kind : Nat
  owner : Nat
  tagged : Bool
  offset : Nat
  size : Nat
  deriving DecidableEq, Repr

/-- BASE_SLOT record (R52). -/
structure SlotRec where
  slot : Nat
  fork : Bool
  owner : Nat
  readers : Nat
  deriving DecidableEq, Repr

/-- SEMAPHORE record (R53). -/
structure SemRec where
  inst : Nat
  field : Nat
  vbase : Nat
  pbase : Nat
  count : Nat
  deriving DecidableEq, Repr

/-- REGION_RATE record (R54). -/
structure RateRec where
  region : Nat
  target : Nat
  vTarget : Nat
  vCeiling : Nat
  deriving DecidableEq, Repr

/-- LINK record (R55). -/
structure LinkRec where
  link : Nat
  enabled : Bool
  upstream : Bool
  downstream : Bool
  spreadOk : Bool
  partner : Nat
  insts : Nat
  deriving DecidableEq, Repr

/-- The records in effect. -/
structure Zcfg where
  insts : List InstRec := []
  fields : List FieldRec := []
  carves : List CarveRec := []
  slots : List SlotRec := []
  sems : List SemRec := []
  rates : List RateRec := []
  links : List LinkRec := []
  deriving DecidableEq, Repr

/-- The running operation of the NVS region (R62, R67); `got`: the image once it is read, or that it could not be. -/
structure NvsOp where
  op : Nat
  slot : Nat
  calibration : Bool
  fenceMap : Bool
  port : Nat
  addr : Nat
  len : Nat
  got : Option (Bool × List Byte) := .none
  deriving DecidableEq, Repr

/-- A re-layout or full image whose zeroing runs (R64, R76). -/
structure Relayout where
  image : List Byte
  cfg : Zcfg
  scope : List Nat
  full : Bool
  deriving DecidableEq, Repr

/-- The NVS and configuration region (R31, R43 to R77). DESIGN CHOICE (log 3). -/
structure Nvs where
  mem : List Host.Cell := []
  serial : Word := 0
  refused : Bool := false
  result : Nat := 0
  srcAddr : Word := 0
  srcLen : BitVec 22 := 0
  op : Option NvsOp := .none
  staged : Option (List Byte) := .none
  full : List Byte := []
  partials : List (List Byte) := []
  boot : Nat := 0
  cycSlotA : Nat := 0
  cycSlotB : Nat := 0
  cycCal : Nat := 0
  cycFence : Nat := 0
  cycBox : Nat := 0
  cycIdent : Nat := 0
  fenceSeq : Nat := 0
  calSeq : Nat := 0
  calibration : List Byte := []
  relayout : Option Relayout := .none
  deriving DecidableEq, Repr

/-! ### Base slots, streams and variants (R201 to R239, R301 to R312) -/

/-- Base-slot states (R201). -/
inductive SlotState where
  | empty | staging | ready | active | retiring
  deriving DecidableEq, Repr

/-- A base slot (R201 to R205). `zeroing`: its BASE regions are being zeroed. -/
structure Slot where
  state : SlotState := .empty
  redirect : Option Nat := .none
  digest : BitVec 512 := 0
  zeroing : Bool := false
  forkEntry : Option Nat := .none
  copyFrom : Option (Nat × Nat × Nat) := .none
  deriving DecidableEq, Repr

/-- A base stream passing the module (R301 to R310). `source` none: head; else the upstream link; `cut`: its consumption here has
ended before it did (R310). -/
structure Stream where
  source : Option Nat
  slot : Nat
  consuming : Bool
  cut : Bool := false
  data : List Byte
  received : Nat
  place : Option (List Byte)
  ports : Nat
  remaining : Nat
  deriving DecidableEq, Repr

/-- The thresher's registers and work (R238, R302, R312). -/
structure Thr where
  slots : Tab Slot := []
  cmd : Option (Nat × Nat × Bool) := .none
  refused : Bool := false
  done : Bool := false
  result : Nat := 0
  srcAddr : Word := 0
  srcLen : BitVec 40 := 0
  placeAddr : Word := 0
  placePort : Nat := 0
  placeLen : BitVec 20 := 0
  stream : Option Stream := .none
  sSlot : Nat := 0
  sResult : Nat := 0
  sDone : Bool := false
  sBytes : Nat := 0
  deriving DecidableEq, Repr

/-- Catalogue entry states (R213). -/
inductive EntryState where
  | free | loading | held | paging | resident | evicting | deleting | stale
  deriving DecidableEq, Repr

/-- A set of frames, numbered within its entry, with the pins that hold it (R213, R227): frame = position * 2^14 +
number (R220). -/
structure FrameSet where
  id : Nat := 0
  frames : List Nat := []
  pins : Nat := 0
  deriving DecidableEq, Repr

/-- A catalogue entry (R209). `paging`: a page-in into the current set is asked for and not done; `started`: it has its
frames; `waiters`: tags of VARIANT_PAGE_IN messages to answer; `loading`: a load is in progress, from the host or from
the link `remote`; `sealed`: the sealed image once it is read, or that it could not be; `placeTab`: the placement table read for a
fork image (R208, R308); `freed`: a STALE entry that VARIANT_DELETE has released, kept until no pin remains (R213, R236). -/
structure Entry where
  state : EntryState := .free
  inst : Nat := 0
  slot : Nat := 0
  gen : Nat := 1
  lowLayer : Nat := 0
  kinds : Nat := 0
  gran : Nat := 0
  len : Nat := 0
  cur : FrameSet := {}
  old : List FrameSet := []
  nextSet : Nat := 1
  lastUnpin : Nat := 0
  fork : Bool := false
  lineage : BitVec 512 := 0
  digest : BitVec 512 := 0
  components : Nat := 0
  payload : Nat := 0
  pageIn : Bool := false
  paging : Bool := false
  started : Bool := false
  asked : Nat := 0
  waiters : List Nat := []
  loadLen : Nat := 0
  loadTag : Nat := 0
  loading : Bool := false
  remote : Option Nat := .none
  sealed : Option (Bool × List Byte) := .none
  placeTab : Option (List Byte) := .none
  freed : Bool := false
  deriving DecidableEq, Repr

/-! ### Training (R240 to R274, R418 to R420) -/

/-- A snapshot asked for (R268 to R270); `flushed`: whether the flush behind its host writes came back well. -/
structure Snap where
  tag : Nat
  dest : Nat
  link : Nat
  rinst : Nat
  rslot : Nat
  addr : Nat
  key : List Byte
  captured : Option Nat
  image : List Byte
  flushed : Option Bool := .none
  deriving DecidableEq, Repr

/-- An open training record; its bytes lie in pan memory at `addr` (R243, R244). `sets`: TRAIN_SET values pending (R247);
`mirror`: link and granary offset; `zeroTag`: TRAIN_OPEN to answer; `closeTag`: TRAIN_CLOSE to answer; `refreshTo`: the step
a refresh under way copies; `slot`: the base slot its variant was bound to when it was opened (R269); `capDue`: a capture waits for
an update entry or a refresh of the record (R264). -/
structure Train where
  inst : Nat := 0
  isOpen : Bool := false
  addr : Word := 0
  sets : List (Nat × Nat) := []
  snaps : List Snap := []
  closeTag : Option Nat := .none
  mirror : Option (Nat × Nat) := .none
  mirrorStep : Option Nat := .none
  mirrorWrites : List Nat := []
  mirrorDigest : BitVec 512 := 0
  mirrorCopy : Nat := 0
  mirrorDue : Bool := false
  zeroTag : Option Nat := .none
  refreshTo : Option Nat := .none
  slot : Nat := 0
  capDue : Bool := false
  deriving DecidableEq, Repr

/-- A slow-tier update entry (R262). -/
structure UpdEntry where
  index : Nat
  step : Nat
  skip : Bool
  scale : Nat
  lr : BitVec 32
  beta1 : BitVec 32
  beta2 : BitVec 32
  eps : BitVec 32
  wd : BitVec 32
  skipped : Nat
  deriving DecidableEq, Repr

/-! ### Jobs and instances (R340 to R377) -/

/-- Where a job stands. -/
inductive JobPhase where
  | undecided | accepted | running | sliced | stopped
  deriving DecidableEq, Repr

/-- One task of a job (R366); `haltAt` is the number of barriers completed when it retired HALT. -/
structure Task where
  fieldSlot : Nat
  logical : Nat
  prog : Nat
  words : Nat
  save : Nat
  seed : Nat
  args : List Word
  taskId : Nat
  arrived : Bool
  halted : Bool
  haltAt : Nat
  sticky : BitVec 4
  k7 : Bool
  deriving DecidableEq, Repr

/-- A pin of a job: catalogue entry, row (0xFFFF for the job's own handle), and which frame set (R227). -/
structure Pin where
  entry : Nat
  row : Nat
  set : Nat
  deriving DecidableEq, Repr

/-- A committed job; `raw` is its 256-byte descriptor (R364), `slot` the base slot it resolved to, 4 for none, `forced`
and `withdrawn` the rows being withdrawn and withdrawn (R233), `ue` the uncorrectable block it consumed (R410),
`bases` the base slots that were ACTIVE when it was accepted (R201), `hostFault` that a flush of its result data returned an error (R371),
`takes` the jobs whose fields its plan takes (R348), `slicedFor` the job it was sliced for, and `waits` the part of G in its plan
that comes from its training record (R343). -/
structure Job where
  inst : Nat
  port : Nat
  seq : Nat
  raw : List Byte
  phase : JobPhase := .undecided
  bad : Bool := false
  commitTb : Nat := 0
  start : Nat := 0
  planned : Nat := 0
  promise : Nat := 0
  noticed : Option Nat := .none
  overrun : Bool := false
  remaining : Nat := 0
  planAt : Nat := 0
  barrierTb : Nat := 0
  floor : Nat := 0
  dispatchTb : Nat := 0
  quantumOver : Bool := false
  fields : List Nat := []
  tasks : List Task := []
  slot : Nat := 4
  pins : List Pin := []
  barrier : Nat := 0
  planId : Option Nat := .none
  restarts : Nat := 0
  withdrawAll : Bool := false
  forced : List Nat := []
  withdrawn : List Nat := []
  endStatus : Option Nat := .none
  inUpdate : Bool := false
  step : Nat := 0
  children : List Nat := []
  childFlag : Bool := false
  complete : Option Bool := .none
  arriveSent : Bool := false
  updQueued : Bool := false
  refreshed : Bool := false
  ue : Option Nat := .none
  takes : List (Nat × Nat) := []
  slicedFor : Option (Nat × Nat) := .none
  waits : Nat := 0
  hostFault : Bool := false
  bases : List Nat := []
  deriving DecidableEq, Repr

/-- Result-slot states (R368). -/
inductive SlotUse where
  | empty | pending | done | refused
  deriving DecidableEq, Repr

/-- A result slot's 64 bytes are its state and the record bytes (R368, R369). -/
structure ResSlot where
  use : SlotUse := .empty
  seq : Nat := 0
  record : List Byte := []
  deriving DecidableEq, Repr

/-- Instance states (R377). -/
inductive InstState where
  | none | active | draining | squashing | retired | adopting
  deriving DecidableEq, Repr

/-- A STAGE_IN under way (R372): its tag, destination and length, and the host's bytes once they are read. -/
structure StageIn where
  id : Nat
  tag : Nat
  dst : Word
  len : Nat
  got : Option (Bool × List Byte)
  deriving DecidableEq, Repr

/-- What an instance has at run time (R361 to R376). `granKey` and `transKey`: the draws of the random source that made its granary
keys and the private half of its transport key; none while they are destroyed (R381, R383). -/
structure Inst where
  state : InstState := .none
  tdi : Nat := 0
  nextSeq : Nat := 1
  chunks : Tab (List Byte) := []
  badWrite : Bool := false
  slots : Tab ResSlot := []
  credits : Nat := 16
  ring : Tab (List Byte) := []
  produced : Nat := 0
  consumed : Nat := 0
  queue : List (List Byte) := []
  granKey : Option Nat := .none
  transKey : Option Nat := .none
  keyGen : Nat := 0
  breaches : Nat := 0
  overruns : Nat := 0
  drainAt : Nat := 0
  adopt : Option (Nat × Nat) := .none
  stageIn : List StageIn := []
  ideKey : Option (List Byte) := .none
  deriving DecidableEq, Repr

/-- Why the device reads host memory: data or the flush of a copy, the flush behind a report for an instance or for manager
software, the flush behind a snapshot, a piece of a base stream, or the piece at an offset of a fetch. -/
inductive HostUse where
  | copy (p e d n : Nat)
  | flush (p e d : Nat)
  | attest (inst tag len : Nat)
  | report (len : Nat)
  | box
  | snap (x tag : Nat)
  | stream
  | fetch (f off : Nat)
  deriving DecidableEq, Repr

/-- What a unit fetches from host memory: an image (R63), a placement table for the stream or for the fork image of an entry
(R308), what a SEC command reads (R360), a sealed image (R215), the data of a STAGE_IN (R372), or the record and then the table of
a TRAIN_OPEN (R246). -/
inductive FetchUse where
  | image
  | place
  | forkPlace (x : Nat)
  | sec (op : Nat)
  | sealed (x : Nat)
  | stage (i : Nat)
  | record (i : Nat) (msg : List Byte)
  | table (i : Nat) (msg record : List Byte)
  deriving DecidableEq, Repr

/-- Bytes being fetched from host memory in requests of at most 4,096 bytes: the pieces that have come, by offset, and how many
are still to come. -/
structure Fetch where
  id : Nat
  use : FetchUse
  inst : Option Nat
  len : Nat
  pieces : List (Nat × List Byte)
  left : Nat
  bad : Bool
  deriving DecidableEq, Repr

/-- An outstanding non-posted request of a port (R357, R358). -/
structure HostReq where
  id : Nat
  pasid : Option Nat
  addr : Nat
  len : Nat
  use : HostUse
  ats : Bool
  deriving DecidableEq, Repr

/-- A posted write that left a port, or an MSI-X message (address none). -/
structure HostWrite where
  pasid : Option Nat
  addr : Nat
  data : List Byte
  relaxed : Bool
  deriving DecidableEq, Repr

/-- A host port (R357 to R361, R377). `perst`: PERST# is deasserted (R71). `asks`: requests that wait for room among the 512
outstanding ones `reqs`. `atsPending`: the invalidations that wait, each for the requests before its number. `spdm`: the draw that
made the secret of the secured session (R381). `linkIde`: the key of the link stream (R388). -/
structure Port where
  speed : Nat := 0
  flit : Bool := false
  width : Nat := 0
  linkIde : Option (List Byte) := .none
  ats : Bool := false
  refused : Bool := false
  select : BitVec 6 := 0
  intakeDiscarded : Nat := 0
  badRelease : Nat := 0
  mboxDropped : Nat := 0
  wrongPort : Nat := 0
  training : Bool := false
  retryStatus : Nat := 0
  cfgDone : Nat := 0
  reqs : List HostReq := []
  asks : List HostReq := []
  nextReq : Nat := 0
  out : List HostWrite := []
  vectors : List Nat := []
  perst : Bool := false
  spdm : Option Nat := .none
  atsPending : List Nat := []
  atsDone : Nat := 0
  deriving DecidableEq, Repr

/-! ### Tiller links (R275 to R300, R311) -/

/-- Link states (R311). -/
inductive LinkState where
  | disabled | training | up | downRetrying
  deriving DecidableEq, Repr

/-- One session of a link: instance (255 module), whether it is in service, the key and salt of each direction, message counters
by VC, whether a RENEW was sent, and the old key of the receiving direction with its counters and the VCs on which it is still
accepted (R286, R287, R386, R387). -/
structure Session where
  inst : Nat
  live : Bool
  txKey : List Byte
  rxKey : List Byte
  tx : Tab Nat
  rx : Tab Nat
  renewing : Bool
  oldKey : Option (List Byte)
  oldRx : Tab Nat
  oldVcs : List Nat
  deriving DecidableEq, Repr

/-- A request handed over and not answered (R279, R285): `n` is what its origin counts by, `len` the length of a READ, `sentAt` when it
was sent. -/
structure LinkReq where
  tag : Nat
  kind : Nat
  inst : Nat
  origin : Origin
  n : Nat
  addr : Nat
  len : Nat
  sentAt : Option Nat
  deriving DecidableEq, Repr

/-- A message handed to the sender, as plaintext from offset 0x04 (R279): whether it travels in clear (R288), and the tag of a request,
which waits for room for its response (R278). -/
structure OutMsg where
  vc : Nat
  inst : Nat
  plain : List Byte
  clear : Bool
  tag : Option Nat
  deriving DecidableEq, Repr

/-- A DATA flit in the replay buffer, and how often it was replayed (R277). -/
structure SentFlit where
  seq : Nat
  bytes : List Byte
  tries : Nat
  deriving DecidableEq, Repr

/-- A tiller link. The sending side: `out` holds messages not yet sealed, `tx` by VC the sealed bytes not yet in a flit with the
number of them that belong to a message begun in an earlier flit, `credits` what the partner has granted, `replay` the replay buffer,
and `flits` the flits that left. The receiving side: `rxTail` and `inStream` by VC the bytes of an incomplete message and of complete
ones, `bufs` the buffers they take, `owed` the credits to return, `ackOwed` that a DATA flit is not yet acknowledged, and `gap` that a
REPLAY was sent for a missing one. `ephs`: by INSTANCE byte, the draw that made the EPHEMERAL of the last SESSION sent (R386). -/
structure Link where
  disable : Bool := false
  state : LinkState := .disabled
  electrical : Bool := false
  capOk : Bool := false
  spread : Bool := false
  cause : Nat := 0
  partnerSerial : Word := 0
  partnerCap : BitVec 32 := 0
  partnerInsts : Nat := 0
  partnerPayload : List Byte := []
  delay : Nat := 0
  length : Nat := 0
  fecUncorrected : Nat := 0
  replays : Nat := 0
  authFail : Nat := 0
  noSession : Nat := 0
  sessions : List Session := []
  ephs : Tab (Option Nat) := []
  rxSeq : Nat := 0xFFFF
  txSeq : Nat := 0
  gap : Bool := false
  ackOwed : Bool := false
  replay : List SentFlit := []
  rxTail : Tab (List Byte) := []
  bufs : Tab Nat := []
  owed : Tab Nat := []
  credits : Tab Nat := []
  reqs : List LinkReq := []
  nextTag : Nat := 0
  out : List OutMsg := []
  tx : Tab (Nat × List Byte) := []
  flits : List (List Byte) := []
  downSince : Option Nat := .none
  lostPosted : Bool := false
  inStream : Tab (List Byte) := []
  instStream : Tab (List Byte) := []
  deriving DecidableEq, Repr

/-! ### The shared regions -/

/-- The module's start-up, alert, recovery and surroundings (R70, R422 to R427, R441 to R457). `cages`:
MEDIA and the CMIS length of the module in each cage; `windowW`: the input power averaged over the last 1 s window (R397). -/
structure Mgt where
  stage : Nat := 0
  failedStage : Nat := 0
  halted : Bool := false
  powered : Bool := false
  charging : Bool := false
  disconnected : Bool := false
  ovFallen : Bool := false
  mateClosed : Bool := true
  hotSwap : Bool := true
  stopped : Bool := false
  faultPin : Bool := false
  inputMv : Nat := 0
  inputW : Nat := 0
  windowW : Nat := 0
  inputLow : Bool := false
  inputHigh : Bool := false
  lowest : Nat := 0
  railSel : BitVec 4 := 0
  railMv : Tab Nat := []
  railSeen : Tab Bool := []
  inlet : Nat := 0
  outlet : Nat := 0
  hotJunction : Nat := 0
  hotField : Nat := 0
  powerLimit : BitVec 11 := 0x4B0
  throttleRate : BitVec 11 := 0x3E8
  pin : Bool := false
  powerOver : Bool := false
  tripped : Bool := false
  capsCount : Nat := 0
  alert : BitVec 5 := 0
  recBusy : List (Nat × Nat) := []
  recDone : Bool := false
  recRefused : Bool := false
  recResult : Nat := 0
  recAddr : Word := 0
  repair : BitVec 10 := 0
  dumping : Bool := false
  causes : Nat := 0
  fatal : Nat := 0
  freezeTb : Nat := 0
  boxSeq : Nat := 0
  ringFrozen : Bool := false
  cages : Tab (Option (Nat × Nat)) := []
  mgtFwDown : Bool := false
  fenceReq : Option Nat := .none
  deriving DecidableEq, Repr

/-- Position states and retired columns: the fence map in effect (R14, R416, R425). -/
structure FenceMap where
  code : Tab Nat := (List.range 80).map fun f => (11 * f + 10, 1)
  logical : Tab (Option Nat) := []
  retired : List Nat := []
  remap : Tab (Option Nat) := []
  deriving DecidableEq, Repr

/-- The time base (R336 to R339, R356); `skew`: the largest stamp skew measured at calibration. -/
structure TimeBase where
  count : Nat := 0
  running : Bool := false
  slew : Int := 0
  locked : Bool := false
  holdover : Bool := false
  refLost : Bool := false
  lostAt : Nat := 0
  epoch : Word := 0
  skew : Nat := 0
  deriving DecidableEq, Repr

/-- A transfer that admission has promised in its ledgers: the units it holds, its time at their data rate, and the entries of a
page-in (R229, R343). Units: 0 and 1 the granary controllers, 2 and 3 the host ports, 4 to 9 the tiller links, 10 the thresher. -/
structure Promised where
  units : List Nat
  start : Nat
  finish : Nat
  entries : List Nat
  deriving DecidableEq, Repr

/-- Admission's registers and its recalibration queue and ledgers (R239, R273, R335, R343, R355). -/
structure Adm where
  quantum : BitVec 8 := 2
  late : Nat := 0
  lastLatency : Nat := 0
  tjCap : Nat := 0x64
  fieldSel : BitVec 7 := 0
  instSel : BitVec 6 := 0
  accepts : Nat := 0
  refusals : Nat := 0
  recalQueue : List Nat := []
  recalRun : List (Nat × Nat) := []
  recalDone : Bool := false
  varSel : BitVec 16 := 0
  varInstSel : BitVec 6 := 0
  pageIns : Nat := 0
  evictions : Nat := 0
  trainSel : BitVec 13 := 0
  skips : Nat := 0
  persistent : Nat := 0
  nextTask : Nat := 0
  ledger : List Promised := []
  nextAsk : Nat := 0
  refusing : Bool := false
  deriving DecidableEq, Repr

/-- The granary update queue (R262, R274). -/
structure Upd where
  queue : List UpdEntry := []
  run : Option UpdEntry := .none
  applied : Nat := 0
  skipped : Nat := 0
  deriving DecidableEq, Repr

/-- An operator key record (R389). -/
structure OpKey where
  key : List Byte
  seq : Nat
  raw : List Byte
  stored : Bool
  deriving DecidableEq, Repr

/-- A firmware copy in the boot flash (R379): its security version and digest, and the public key and signature of its header. -/
structure FwCopy where
  svn : Nat
  digest : BitVec 512
  key : List Byte
  sig : List Byte
  deriving DecidableEq, Repr

/-- A measurement block that an SPDM response carried (R391, R394): the endpoint it went to, a host port or 2 for the MCTP sideband,
the index, the report, and the signature of the response. -/
structure Measurement where
  endpoint : Nat
  index : Nat
  report : List Byte
  sig : List Byte
  deriving DecidableEq, Repr

/-- The trust region (R378 to R404). `running`: the OP in progress and its port (R403). `sideband`: the draw that made the secret of
the secured session on the MCTP sideband (R388). `flash`: the copies in the boot flash, by kind and copy (2 × kind + copy) where they differ
from those that the module ships with; `active`: the copy marked active, by kind (R379). -/
structure Sec where
  opKey : Option OpKey := .none
  done : Bool := false
  refused : Bool := false
  result : Nat := 0
  length : Nat := 0
  inAddr : Word := 0
  outAddr : Word := 0
  insts : Word := 0
  inLen : BitVec 12 := 0
  challenge : BitVec 256 := 0
  debugOpen : Bool := false
  rngFail : Bool := false
  unlocks : Nat := 0
  inspectRefused : Nat := 0
  floors : Tab Nat := []
  svn : Tab Nat := []
  fwDigest : Tab (BitVec 512) := []
  draws : Nat := 0
  reseeds : Nat := 0
  sinceReseed : Nat := 0
  running : Option (Nat × Nat) := .none
  unlocking : Option Nat := .none
  scopes : Nat := 0
  measurements : List Measurement := []
  sideband : Option Nat := .none
  flash : Tab (Option FwCopy) := []
  active : Tab Nat := []
  deriving DecidableEq, Repr

/-- An event ring: how many records were written and the last ones (R431, R432). -/
structure Ring where
  events : Nat := 0
  recs : Tab (List Byte) := []
  deriving DecidableEq, Repr

/-- Debug-stop states (R439). -/
inductive StopState where
  | idle | armed | stopping | stopped
  deriving DecidableEq, Repr

/-- Counters, rings, freeze and debug stop (R428 to R439). -/
structure Obs where
  freezeTb : Word := 0
  armed : Bool := false
  validAt : Option Nat := .none
  valid : Bool := false
  seq : Nat := 0
  refused : Bool := false
  stopTb : Word := 0
  stopFields : Word := 0
  fieldsHi : BitVec 16 := 0
  global : Bool := false
  stop : StopState := .idle
  stopAt : Nat := 0
  scope : List Nat := []
  residue : List (List Byte) := []
  confResidue : Nat := 0
  overflow : Bool := false
  cntSel : BitVec 24 := 0
  ringSel : BitVec 29 := 0
  ringHi : Word := 0
  resSel : BitVec 12 := 0
  resHi : Word := 0
  cnt : Tab Word := []
  frozen : Tab Word := []
  rings : Tab Ring := []
  mgt : Ring := {}
  deriving DecidableEq, Repr

/-- The halves of 64-bit register accesses (R5), by BAR0 offset of the register: the upper half that a read of the lower
half latched, and the lower half that a write holds. -/
structure Halves where
  readHi : Tab (Option (BitVec 32)) := []
  writeLo : Tab (Option (BitVec 32)) := []
  deriving DecidableEq, Repr

/-- The state of one Efber F880 module, with the queue of waiting commands. -/
structure State where
  pending : List Instr := []
  readData : Word := 0
  readBytes : List Byte := []
  freeN : Nat := 0
  nextTok : Nat := 0
  net : List Token := []
  cores : Tab Core := []
  fields : Tab Field := []
  regions : Tab Region := []
  fence : FenceMap := {}
  sem : Tab (BitVec 24) := []
  semWaiters : List SemWaiter := []
  feWaiters : List FeWaiter := []
  tags : Tab Bool := []
  pan : List Host.Cell := []
  panUe : Tab Bool := []
  panCtl : Tab MemCtl := []
  gran : List Host.Cell := []
  granUe : Tab Bool := []
  granCtl : Tab MemCtl := []
  zen : Zcfg := {}
  nvs : Nvs := {}
  thr : Thr := {}
  cat : Tab Entry := []
  train : Tab Train := []
  upd : Upd := {}
  jobs : List Job := []
  insts : Tab Inst := []
  ports : Tab Port := []
  fetches : List Fetch := []
  nextFetch : Nat := 0
  links : Tab Link := []
  mgt : Mgt := {}
  tb : TimeBase := {}
  adm : Adm := {}
  sec : Sec := {}
  obs : Obs := {}
  halves : Halves := {}
  deriving DecidableEq, Repr

/-- The state right after reset: every field table's reset value, memory with nothing listed, the queue empty, the
input not yet applied (STAGE 0). Values the spec does not give are those of logs 1 to 4. DESIGN CHOICE (log 2). -/
def State.reset : State := {}

end Sys2Proof.Machine
end

