-- ==== Sys2Proof/Machine/Ops.lean ====
section
/-! DEFINITION. The named operations over the state that every family shares: units, events, counters, tokens on
channels, the carve-up and address checks, scratchpad accesses, messages to the host, and taking a core fault. -/

namespace Sys2Proof.Machine

/-- The answer of a meaning. -/
abbrev Out := Host.Outcome State Fault Refusal

/-! ### Accessors -/

def State.core (s : State) (p : Nat) : Core := Tab.get {} s.cores p
def State.setCore (s : State) (p : Nat) (c : Core) : State := { s with cores := Tab.put {} p c s.cores }
def State.updCore (s : State) (p : Nat) (f : Core → Core) : State := s.setCore p (f (s.core p))
def State.field (s : State) (f : Nat) : Field := Tab.get {} s.fields f
def State.updField (s : State) (f : Nat) (g : Field → Field) : State := { s with fields := Tab.upd {} f g s.fields }
def State.region (s : State) (r : Nat) : Region := Tab.get {} s.regions r
def State.updRegion (s : State) (r : Nat) (g : Region → Region) : State :=
  { s with regions := Tab.upd {} r g s.regions }
def State.updPan (s : State) (p : Nat) (g : MemCtl → MemCtl) : State := { s with panCtl := Tab.upd {} p g s.panCtl }
def State.updGran (s : State) (c : Nat) (g : MemCtl → MemCtl) : State :=
  { s with granCtl := Tab.upd {} c g s.granCtl }
def State.inst (s : State) (i : Nat) : Inst := Tab.get {} s.insts i
def State.updInst (s : State) (i : Nat) (g : Inst → Inst) : State := { s with insts := Tab.upd {} i g s.insts }
def State.port (s : State) (n : Nat) : Port := Tab.get {} s.ports n
def State.updPort (s : State) (n : Nat) (g : Port → Port) : State := { s with ports := Tab.upd {} n g s.ports }
def State.link (s : State) (n : Nat) : Link := Tab.get {} s.links n
def State.updLink (s : State) (n : Nat) (g : Link → Link) : State := { s with links := Tab.upd {} n g s.links }
def State.slot (s : State) (k : Nat) : Slot := Tab.get {} s.thr.slots k
def State.updSlot (s : State) (k : Nat) (g : Slot → Slot) : State :=
  { s with thr := { s.thr with slots := Tab.upd {} k g s.thr.slots } }
def State.entry (s : State) (x : Nat) : Entry := Tab.get {} s.cat x
def State.updEntry (s : State) (x : Nat) (g : Entry → Entry) : State := { s with cat := Tab.upd {} x g s.cat }
def State.train1 (s : State) (x : Nat) : Train := Tab.get {} s.train x
def State.updTrain (s : State) (x : Nat) (g : Train → Train) : State := { s with train := Tab.upd {} x g s.train }

/-- The job of an instance with a SEQ. -/
def State.job? (s : State) (i q : Nat) : Option Job := s.jobs.find? fun j => j.inst = i && j.seq = q
def State.updJob (s : State) (i q : Nat) (g : Job → Job) : State :=
  { s with jobs := mapIf (fun j => j.inst = i && j.seq = q) g s.jobs }

/-! ### Records of the Zenal image in effect (R46 to R55) -/

def State.instRec? (s : State) (i : Nat) : Option InstRec := s.zen.insts.find? fun r => r.inst = i
def State.fieldRec? (s : State) (f : Nat) : Option FieldRec := s.zen.fields.find? fun r => r.field = f
def State.slotRec? (s : State) (k : Nat) : Option SlotRec := s.zen.slots.find? fun r => r.slot = k
def State.linkRec? (s : State) (n : Nat) : Option LinkRec := s.zen.links.find? fun r => r.link = n
def State.rateRec? (s : State) (r : Nat) : Option RateRec := s.zen.rates.find? fun x => x.region = r

/-- The instance owning a field; none when it is unassigned (R48). -/
def State.fieldInst (s : State) (f : Nat) : Option Nat :=
  (s.fieldRec? f).bind fun r => if r.inst = 0xFF then none else some r.inst

/-- The fields of an instance in ascending order. -/
def State.instFields (s : State) (i : Nat) : List Nat := (List.range 80).filter fun f => s.fieldInst f = some i

/-- Whether an instance is confidential (R395). -/
def State.confid (s : State) (i : Nat) : Bool := (s.instRec? i).any (·.confidential)
def State.fieldConfid (s : State) (f : Nat) : Bool := (s.fieldInst f).any s.confid
def State.anyConfid (s : State) : Bool := s.zen.insts.any (·.confidential)

/-- The port an instance is bound to. -/
def State.instPort (s : State) (i : Nat) : Nat := ((s.instRec? i).map (·.port)).getD 0
def State.instPasid (s : State) (i : Nat) : Nat := ((s.instRec? i).map (·.pasid)).getD 0

/-! ### Positions (R13 to R15, R425) -/

/-- The state of a position: 0 in service, 1 spare, 2 to 5 fenced (R425). -/
def State.posCode (s : State) (p : Nat) : Nat := Tab.get 0 s.fence.code p
def State.fenced (s : State) (p : Nat) : Bool := decide (2 ≤ s.posCode p)

/-- The physical position of logical core k of field f; none when absent (R13, R14). -/
def State.logicalPos (s : State) (f k : Nat) : Option Nat := Tab.get (some (11 * f + k)) s.fence.logical (10 * f + k)

/-- The logical core at a physical position. -/
def State.logicalOf (s : State) (p : Nat) : Option Nat :=
  (List.range 10).find? fun k => s.logicalPos (p / 11) k = some p

/-- The spare position of a field (R41). -/
def State.spareOf (s : State) (f : Nat) : Option Nat :=
  ((List.range 11).map (11 * f + ·)).find? fun p => s.posCode p = 1

/-! ### Units (R428) -/

/-- Unit number of part k of a position. -/
def posUnit (p k : Nat) : Nat := p / 11 * 512 + 16 * (p % 11) + k
def regionUnit (r sub : Nat) : Nat := r * 512 + sub
def unitRegion (u : Nat) : Nat := u / 512
def linkUnit (n : Nat) : Nat := regionUnit (90 + n) 0
def portUnit (n : Nat) : Nat := regionUnit (88 + n) 0
def granUnit (c : Nat) : Nat := regionUnit (96 + c) 0
def thrUnit : Nat := regionUnit 86 0
def admUnit : Nat := regionUnit 87 0
def mgtUnit : Nat := regionUnit 85 0
def trustUnit : Nat := regionUnit 84 0
def nvsUnit : Nat := regionUnit 99 0
def tbUnit : Nat := regionUnit 98 0
def semUnit (f : Nat) : Nat := regionUnit f 0x1F1
def switchUnit (f : Nat) : Nat := regionUnit f 0x1F0

/-- The spine quadrant of a region (R12, R29). -/
def quadrant (r : Nat) : Nat :=
  if r < 80 then 2 * (if r / 10 ≥ 4 then 1 else 0) + (if r % 10 ≥ 5 then 1 else 0)
  else if r < 84 then r - 80
  else if r = 84 ∨ r = 89 ∨ r = 95 ∨ r = 97 ∨ r = 98 then (if r = 89 then 1 else 3)
  else if r = 86 ∨ r = 92 ∨ r = 93 then 1
  else if r = 87 ∨ r = 88 ∨ r = 90 ∨ r = 91 then 0
  else 2

/-- Whether two quadrants are diagonal on the ring 0-1-3-2-0 (R27). -/
def diagonal (a b : Nat) : Bool := decide (a + b = 3)

/-- The spine-port field in the row and quadrant of a field (R26). -/
def spinePort (f : Nat) : Nat := f / 10 * 10 + (if f % 10 < 5 then 4 else 5)

/-- The fields entered on the way from a to b when neighbours are `d` apart (R25). -/
def meshLine (a b d : Nat) : List Nat :=
  if a ≤ b then (List.range ((b - a) / d)).map fun k => a + (k + 1) * d
  else (List.range ((a - b) / d)).map fun k => a - (k + 1) * d

/-- The fields entered along the mesh, first in x and then in y (R25, R26). -/
def meshLeg (a b : Nat) : List Nat :=
  let corner := a / 10 * 10 + b % 10
  meshLine a corner 1 ++ meshLine corner b 10

/-- The quadrants entered on the ring 0-1-3-2-0 from one to another; `lower` chooses between the two ways of a diagonal
(R27). -/
def ringLeg (a b : Nat) (lower : Bool) : List Nat :=
  if a = b then []
  else if diagonal a b then [(if a = 0 ∨ a = 3 then (if lower then 1 else 2) else if lower then 0 else 3), b]
  else [b]

/-- The regions entered from one region to another (R26, R29): the mesh inside a quadrant; else the mesh along the source
row to its spine port, the ring, and the mesh from the spine port of the destination row, or the shared unit. -/
def route (lower : Bool) (a b : Nat) : List Nat :=
  let qa := quadrant a
  let qb := quadrant b
  if a = b then []
  else if a < 80 ∧ b < 80 ∧ qa = qb then meshLeg a b
  else
    (if a < 80 then meshLeg a (spinePort a) else []) ++ (qa :: ringLeg qa qb lower).map (80 + ·) ++
    (if b < 80 then spinePort b :: meshLeg (spinePort b) b else [b])

/-! ### Counters and events (R429 to R433) -/

/-- The key of a unit's counter. -/
def cntKey (unit n : Nat) : Nat := unit * 256 + n

/-- Advance a counter; counters wrap modulo 2^64 (R429). DESIGN CHOICE (log 44). -/
def State.count (s : State) (unit n amount : Nat) : State :=
  { s with obs := { s.obs with cnt := Tab.upd 0 (cntKey unit n) (fun v => v + BitVec.ofNat 64 amount) s.obs.cnt } }

/-- Write one record to a ring of a given depth (R432). -/
def Ring.add (r : Ring) (depth : Nat) (bs : List Byte) : Ring :=
  { events := r.events + 1, recs := Tab.put [] (r.events % depth) bs r.recs }

/-- The 16 bytes of an event record (R431). -/
def eventBytes (tb unit code data : Nat) : List Byte :=
  leBytes 6 tb ++ leBytes 2 unit ++ leBytes 2 code ++ leBytes 6 data

/-- A record for the management ring alone (R338, R432); a frozen ring takes none (R422). DEDUCED (log 52). -/
def State.mgtRecord (s : State) (bs : List Byte) : State :=
  if s.mgt.ringFrozen then s else { s with obs := { s.obs with mgt := s.obs.mgt.add 8192 bs } }

/-- Record an event at a time: in the unit's ring and in the management ring; data is zero for a confidential
instance (R396, R431 to R433). DEDUCED (log 52). -/
def State.eventAt (s : State) (tb unit code data : Nat) (conf : Bool) : State :=
  let bs := eventBytes tb unit code (if conf then 0 else data)
  let s := { s with obs := { s.obs with rings := Tab.upd {} unit (fun r => r.add 64 bs) s.obs.rings } }
  s.mgtRecord bs

/-- Record an event now. DEDUCED (log 52). -/
def State.event (s : State) (unit code data : Nat) (conf : Bool) : State :=
  s.eventAt s.tb.count unit code data conf

/-- Whether a region withholds acknowledge (R34). DEDUCED (log 46). -/
def State.held (s : State) (r : Nat) : Bool := !(s.region r).held.isEmpty

/-- A region stops for a cause of R34 and R433: 0 retention, 1 recalibration, 2 debug stop, 3 voltage change, 4 re-layout. Its
boundary records REGION_STOP when it begins to withhold acknowledge (R338). DEDUCED (log 46). -/
def State.stopRegion (s : State) (r cause : Nat) : State :=
  let s' := s.updRegion r fun g => { g with held := g.held ++ [cause] }
  if s.held r then s' else s'.mgtRecord (eventBytes s.tb.count (regionUnit r 0x1FF) 0x0020 (r + 256 * cause))

/-- A region resumes from one cause; when every cause has ended it releases its channels and REGION_RESUME is recorded (R338,
R437). -/
def State.resumeRegion (s : State) (r cause : Nat) : State :=
  let s' := s.updRegion r fun g => { g with held := g.held.erase cause }
  if s.held r && !s'.held r then s'.mgtRecord (eventBytes s.tb.count (regionUnit r 0x1FF) 0x0021 (r + 256 * cause)) else s'

/-- Whether the module works at all: powered, not stopped by a fatal event or thermal trip, start-up past the fields. -/
def State.working (s : State) : Bool := !s.mgt.stopped

/-- Whether BAR0 answers: start-up has reached stage 8, or has halted (R71, R72). -/
def State.bar0 (s : State) : Bool := s.mgt.powered && (decide (8 ≤ s.mgt.stage) || s.mgt.halted)

/-- Whether blocks other than MGT, NVS, SEC and TB answer (R72). DEDUCED (log 34). -/
def State.bar0All (s : State) : Bool := s.bar0 && !s.mgt.halted

/-- Whether a write of a register block other than MGT, NVS, SEC and TB is taken. -/
def State.regOk (s : State) : Bool := s.bar0All && s.working

/-- One tick of the time base on an idle queue (R336): the count advances while it runs, and so does the WAIT_NS counter
of every waiting core (R429). DESIGN CHOICE, log 4. -/
def State.tick (s : State) : State :=
  if s.tb.running then
    let s := { s with tb := { s.tb with count := s.tb.count + 1 } }
    s.cores.foldl (fun s e => if e.2.act = .waiting then s.count (posUnit e.1 0) 0x03 1 else s) s
  else s

/-! ### Tokens on channels (R28, R34, R429, R430) -/

/-- Whether a token's activity is left out of shared units' counters (R430). -/
def State.tokHidden (s : State) (t : Token) : Bool := s.confid t.inst

/-- One token leaves a region, or enters it (R429). -/
def State.leave (s : State) (r : Nat) : State := s.count (regionUnit r 0x1FF) 0x08 1
def State.enter (s : State) (r : Nat) : State := s.count (regionUnit r 0x1FF) 0x09 1

/-- One token passes through regions: in and out of each (R26, R435). -/
def State.passes (s : State) (rs : List Nat) : State := rs.foldl (fun s r => (s.enter r).leave r) s

/-- Put a token on the first channel of its route. DESIGN CHOICE (log 81). DESIGN CHOICE (log 83). -/
def State.send (s : State) (t : Token) : State :=
  let path := route (Config.spineVia s.nextTok) (unitRegion t.srcUnit) (unitRegion t.dstUnit)
  let t := { t with id := s.nextTok, path := path }
  let s := { s with nextTok := s.nextTok + 1, net := s.net ++ [t] }
  if path = [] ∨ s.tokHidden t then s else s.leave (unitRegion t.srcUnit)

/-- The way between two regions of a transfer that is handed over at once, to or from a tiller link or a host port.
DESIGN CHOICE (log 83). -/
def State.way (s : State) (a b : Nat) : List Nat := route (Config.spineVia s.nextTok) a b

/-- Whether a stopped region lies on the way, so that the sender waits (R34). -/
def State.wayHeld (s : State) (a b : Nat) : Bool := (s.way a b).any s.held

/-- Count a transfer handed over at once at every boundary on its way (R429). -/
def State.crossed (s : State) (a b inst : Nat) : State :=
  let w := s.way a b
  if w = [] ∨ s.confid inst then s else ((s.leave a).passes w.dropLast).enter b

/-- Tokens from the same source unit to the same destination unit keep their order, except between diagonal
quadrants (R28). DESIGN CHOICE (log 45). DEDUCED (log 46). -/
def tokBlocked (net : List Token) (t : Token) : Bool :=
  !diagonal (quadrant (unitRegion t.srcUnit)) (quadrant (unitRegion t.dstUnit)) &&
  (net.takeWhile fun u => u.id ≠ t.id).any fun u => u.srcUnit = t.srcUnit && u.dstUnit = t.dstUnit

/-- Whether the answer to a request of a tiller link can cross the device at once. DESIGN CHOICE (log 83). -/
def State.answerWay (s : State) (t : Token) : Bool :=
  match t.origin with
  | .link n _ => !s.wayHeld (unitRegion t.dstUnit) (90 + n)
  | _ => true

/-- The token of a number that may be delivered now: of one of the given kinds, no region on its way stopped; tokens inside a
region run on (R34, R436). DESIGN CHOICE (log 45). -/
def State.arriving (s : State) (tok : Nat) (kinds : List TokKind) : Option Token :=
  (s.net.find? fun t => t.id = tok).bind fun t =>
    if kinds.contains t.kind && t.path.all (fun r => !s.held r) && s.answerWay t && !tokBlocked s.net t && s.working then some t
    else none

/-- Take a token off its channel: it passes the regions on its way and enters its destination's (R26, R429). -/
def State.take (s : State) (t : Token) : State :=
  let s := { s with net := s.net.filter fun u => u.id ≠ t.id }
  match t.path.getLast? with
  | none => s
  | some r => if s.tokHidden t then s else (s.passes t.path.dropLast).enter r

/-- A token moves up to the first stopped region on its way, and waits there (R34). -/
def State.moveUp (s : State) (t : Token) : State :=
  let front := t.path.takeWhile fun r => !s.held r
  let s := { s with net := mapIf (fun u => u.id = t.id) (fun u => { u with path := u.path.drop front.length }) s.net }
  if s.tokHidden t then s else s.passes front

/-- What becomes of a token that cannot be delivered: it moves up to the region that holds it (R34, R436). -/
def State.stall (s : State) (tok : Nat) (kinds : List TokKind) : State :=
  match s.net.find? fun t => t.id = tok with
  | none => s
  | some t => if kinds.contains t.kind && t.path.any s.held && !tokBlocked s.net t && s.working then s.moveUp t else s

/-! ### The carve-up and addresses (R35 to R37, R48 to R53) -/

def granule : Nat := 0x100000
def columnBytes : Nat := 0x0E000000

/-- The region of a pan column that holds an offset (R50, R51). -/
def State.carveAt (s : State) (p off : Nat) : Option CarveRec :=
  s.zen.carves.find? fun c => c.first ≤ p && p ≤ c.last && c.offset ≤ off && off < c.offset + c.size

/-- Bytes of one column in one layer (R17). -/
def layerBytes : Nat := 0x1C00000

/-- The cell of byte a of all columns in order: columns hold their layers one after the other, and the block at column offset o
lies in layer (o / 64) mod 8 (R17). -/
def panCell (a : Nat) : Nat :=
  let o := a % columnBytes
  a / columnBytes * columnBytes + o / 64 % 8 * layerBytes + o / 512 * 64 + o % 64

/-- The byte of all columns in order that lies in a cell. -/
def panByteOf (k : Nat) : Nat :=
  let o := k % columnBytes
  k / columnBytes * columnBytes + o % layerBytes / 64 * 512 + o / layerBytes * 64 + o % 64

/-- The cell of a physical granary byte: channels hold 24 GiB each one after the other, interleaved in 512-byte granules, the
channel being address bits [13:9] (R21, R22). -/
def granCell (a : Nat) : Nat := bits a 13 9 * 0x600000000 + a / 16384 * 512 + a % 512

/-- The physical granary byte that lies in a cell. -/
def granByteOf (k : Nat) : Nat :=
  k % 0x600000000 / 512 * 16384 + k / 0x600000000 * 512 + k % 512

/-- Where a pan byte lies after retirement of its column (R416): none when its granule is unmapped (R417). -/
def State.panKey (s : State) (p off : Nat) : Option Nat :=
  (Tab.get (some (224 * p + off / granule)) s.fence.remap (224 * p + off / granule)).map fun g =>
    panCell (g * granule + off % granule)

/-- A place named by a global address (R35). -/
inductive Place where
  | pan (p off : Nat)
  | gran (off : Nat)
  | scratch (p off : Nat)
  | sem
  | reg
  | link (n rest : Nat)
  | host (a : Nat)
  | bad
  deriving DecidableEq, Repr

/-- Decoding of a global address with the checks of R36 that need no instance. DEDUCED (log 23). -/
def State.place (s : State) (a : Nat) : Place :=
  let sp := bits a 63 60
  let f := bits a 38 32
  let p := bits a 31 28
  if sp = 1 then
    if bits a 59 39 = 0 ∧ f ≤ 79 ∧ p ≤ 10 ∧ bits a 27 0 < columnBytes then .pan (11 * f + p) (bits a 27 0) else .bad
  else if sp = 2 then if bits a 59 40 = 0 then .gran (bits a 39 0) else .bad
  else if sp = 3 then
    if bits a 59 39 = 0 ∧ bits a 27 20 = 0 ∧ f ≤ 79 ∧ p ≤ 9 then
      match s.logicalPos f p with
      | some q => .scratch q (bits a 19 0)
      | none => .bad
    else .bad
  else if sp = 4 then if bits a 59 16 = 0 then .sem else .bad
  else if sp = 5 then if bits a 59 26 = 0 then .reg else .bad
  else if sp = 6 then
    let n := bits a 59 57
    let r := bits a 56 53
    if n ≤ 5 ∧ 1 ≤ r ∧ r ≤ 4 then .link n (r * 2 ^ 60 + bits a 52 0) else .bad
  else if sp = 7 then if bits a 59 57 = 0 then .host (bits a 56 0) else .bad
  else .bad

/-- A use of a place: read, write or accumulate. -/
inductive Use where
  | read | write | acc
  deriving DecidableEq, Repr

/-- Whether an instance may use a pan region (R49): its own regions, BASE regions it reads, and its own forks. -/
def State.carveAllows (s : State) (i : Nat) (u : Use) (c : CarveRec) : Bool :=
  if c.kind = 0 then
    (s.slotRec? c.owner).any fun r => (r.fork && r.owner = i) || (u = .read && bit r.readers i)
  else decide (1 ≤ c.kind) && decide (c.kind ≤ 3) && c.owner = i

/-- Whether traffic of a field may be sent to another field (R30, R48, R49). DEDUCED (log 27). -/
def State.routeOk (s : State) (src dst : Nat) : Bool :=
  src = dst || (s.fieldRec? src).any fun r => bit r.routes dst

/-- The granary range of an instance in bytes (R47). -/
def State.granSize (s : State) (i : Nat) : Nat := ((s.instRec? i).map (·.granSize)).getD 0 * 0x4000000
def State.granBase (s : State) (i : Nat) : Nat := ((s.instRec? i).map (·.granBase)).getD 0 * 0x4000000

/-- Whether every byte of [off, off+n) of a column lies in regions that an instance may use, walking region by region. -/
def State.panRange (s : State) (i : Nat) (u : Use) (p : Nat) : Nat → Nat → Nat → Bool
  | 0, _, n => decide (n = 0)
  | fuel + 1, off, n =>
    if n = 0 then true
    else
      match s.carveAt p off with
      | none => false
      | some c =>
        s.carveAllows i u c &&
        (let room := c.offset + c.size - off
         if n ≤ room then true else s.panRange i u p fuel (off + room) (n - room))

/-- The check of an access of `n` bytes by instance i from field f, before anything is sent (R30, R36);
a partner's semaphore space is no data (R37). DEDUCED (log 23). -/
def State.addrOk (s : State) (i f : Nat) (u : Use) (a n : Nat) : Bool :=
  match s.place a with
  | .pan p off => off + n ≤ columnBytes && s.routeOk f (p / 11) && s.panRange i u p 225 off n
  | .gran off => off + n ≤ s.granSize i
  | .scratch p off => off + n ≤ 0x100000 && s.routeOk f (p / 11) && s.fieldInst (p / 11) = some i && u ≠ .acc
  | .link k rest => rest / 2 ^ 60 ≠ 4 && (s.linkRec? k).any fun r => bit r.insts i
  | .host x => x + n ≤ 2 ^ 57 && u ≠ .acc
  | _ => false

/-- Whether a range of an instance lies wholly in its TRAINING or ACTIVATION regions of one column (R364, R366). -/
def State.inOwnRange (s : State) (i : Nat) (p : Nat) : Nat → Nat → Nat → Bool
  | 0, _, n => decide (n = 0)
  | fuel + 1, off, n =>
    if n = 0 then true
    else
      match s.carveAt p off with
      | none => false
      | some c =>
        (c.kind = 2 || c.kind = 3) && c.owner = i &&
        (let room := c.offset + c.size - off
         if n ≤ room then true else s.inOwnRange i p fuel (off + room) (n - room))

def State.inOwnPan (s : State) (i a n : Nat) : Bool :=
  match s.place a with
  | .pan p off => off + n ≤ columnBytes && s.inOwnRange i p 225 off n
  | _ => false

/-- The physical semaphore of a virtual identifier of an instance (R53, R320). DEDUCED (log 27). -/
def State.semPhys (s : State) (i v : Nat) : Option Nat :=
  (s.zen.sems.find? fun r => r.inst = i && r.vbase ≤ v && v < r.vbase + r.count).map fun r =>
    r.field * 4096 + r.pbase + (v - r.vbase)

/-- Translation for a task: the identifier must lie in its job's range too (R148, R320), and a route must reach the
semaphore's field from the task's field f (R30). DEDUCED (log 27). -/
def State.semOfCore (s : State) (c : Core) (f v : Nat) : Option Nat :=
  if c.semBase ≤ v ∧ v < c.semBase + c.semCount then (s.semPhys c.inst v).filter fun k => s.routeOk f (k / 4096)
  else none

/-! ### Pan and granary bytes (plaintext; the granary key is part of the ideal model, log 8) -/

/-- Read pan bytes of one column, an unmapped granule reading as zero. -/
def State.panRead (s : State) (p off n : Nat) : List Byte :=
  (List.range n).map fun k =>
    match s.panKey p (off + k) with
    | some a => Memory.byte s.pan a
    | none => 0

/-- Write pan bytes of one column. -/
def State.panWrite (s : State) (p off : Nat) : List Byte → State
  | [] => s
  | b :: bs =>
    let s' :=
      match s.panKey p off with
      | some a => { s with pan := Tab.put 0 a b s.pan }
      | none => s
    s'.panWrite p (off + 1) bs

/-- Read and write bytes at a pan global address (internal accesses of admission and the thresher). -/
def State.panReadG (s : State) (a n : Nat) : List Byte :=
  match s.place a with
  | .pan p off => s.panRead p off n
  | _ => List.replicate n 0
def State.panWriteG (s : State) (a : Nat) (bs : List Byte) : State :=
  match s.place a with
  | .pan p off => s.panWrite p off bs
  | _ => s

/-- Zero a range of one column: bytes read zero and tags are empty (R322). -/
def State.panZero (s : State) (p off n : Nat) : State :=
  let hit (a : Nat) : Bool :=
    (List.range ((n + granule - 1) / granule + 1)).any fun g =>
      let o := off / granule * granule + g * granule
      match (s.panKey p o).map panByteOf with
      | some k => k ≤ a && a < k + granule && off ≤ o + (a - k) && o + (a - k) < off + n
      | none => false
  { s with
    pan := Tab.clearIf (fun k => hit (panByteOf k)) s.pan
    panUe := Tab.clearIf (fun b => hit (panByteOf (b * 64))) s.panUe
    tags := Tab.clearIf (fun b => hit (panByteOf (b * 64))) s.tags }

/-- Read and write bytes at physical granary addresses, each in its channel (R22). -/
def State.granBytes (s : State) (a n : Nat) : List Byte := (List.range n).map fun k => Memory.byte s.gran (granCell (a + k))
def granPut (m : List Host.Cell) (a : Nat) : List Byte → List Host.Cell
  | [] => m
  | b :: bs => granPut (Tab.put 0 (granCell a) b m) (a + 1) bs
def State.granStore (s : State) (a : Nat) (bs : List Byte) : State := { s with gran := granPut s.gran a bs }

/-- Granary bytes of an instance, at offsets of its carve-up (R22, R23). -/
def State.granRead (s : State) (i off n : Nat) : List Byte := s.granBytes (s.granBase i + off) n
def State.granWrite (s : State) (i off : Nat) (bs : List Byte) : State := s.granStore (s.granBase i + off) bs
def State.granZeroAbs (s : State) (a n : Nat) : State :=
  { s with
    gran := Tab.clearIf (fun k => decide (a ≤ granByteOf k) && decide (granByteOf k < a + n)) s.gran
    granUe := Tab.clearIf (fun b => a ≤ b * 64 && b * 64 < a + n) s.granUe }

/-- Controller of a physical granary address (R22). -/
def granCtlOf (a : Nat) : Nat := bits a 13 13

/-! ### Scratchpad accesses (R107 to R109) -/

/-- What an unlisted scratch byte reads as: zero, or undefined contents after a restart (R147).
DESIGN CHOICE (log 1). DESIGN CHOICE (log 12). -/
def Core.scratchDefault (c : Core) (a : Nat) : Byte :=
  match c.scratchFree with
  | none => 0
  | some n => (Config.freeValue n a).setWidth 8

def Core.byte (c : Core) (a : Nat) : Byte := Tab.get (c.scratchDefault a) c.scratch a
def Core.bytes (c : Core) (a n : Nat) : List Byte := (List.range n).map fun k => c.byte (a + k)

/-- The uncorrectable words that an access of [a, a+n) meets, and whether there are any. -/
def Core.ueIn (c : Core) (a n : Nat) : List Nat := c.ueWords.filter fun w => decide (w * 8 < a + n ∧ a < w * 8 + 8)
def Core.readUe (c : Core) (a n : Nat) : Bool := !(c.ueIn a n).isEmpty

/-- Words of the scratchpad go past correction (R109). -/
def Core.upset (c : Core) (bad : List Nat) : Core :=
  { c with ueWords := c.ueWords ++ (bad.filter fun w => decide (w < 131072) && !c.ueWords.contains w).eraseDups }

/-- The bank of a word (R107). -/
def bankOf (w : Nat) : Nat := bits (8 * w) 9 6

/-- Write one byte. -/
def Core.putByte (c : Core) (a : Nat) (b : Byte) : Core :=
  { c with scratch := Tab.put (c.scratchDefault a) a b c.scratch }

/-- Write bytes: a whole word restores it, a partial write to an uncorrectable word is discarded and counted (R109). -/
def Core.write (c : Core) (a : Nat) (bs : List Byte) : Core :=
  let n := bs.length
  let whole (w : Nat) : Bool := decide (a ≤ w * 8 ∧ w * 8 + 8 ≤ a + n)
  let lost := (c.ueIn a n).filter fun w => !whole w
  let c1 := (List.range n).foldl
    (fun (c : Core) k => if lost.contains ((a + k) / 8) then c else c.putByte (a + k) (bs.getD k 0)) c
  let c2 := { c1 with ueWords := c1.ueWords.filter fun w => !whole w }
  if lost.isEmpty then c2
  else
    { c2 with
      uncorrected := holdAdd 0xFF c2.uncorrected lost.length
      lastBank := bankOf (lost.foldl max 0) }

/-! ### Reads and writes of host memory (R357 to R360, R398) -/

/-- Cut bytes into pieces with their offsets. -/
def pieces (n : Nat) : Nat → Nat → List Byte → List (Nat × List Byte)
  | 0, _, _ => []
  | _, _, [] => []
  | fuel + 1, off, bs => (off, bs.take n) :: pieces n fuel (off + n) (bs.drop n)

/-- Bytes that a port moves for an instance or for manager software are counted, unless the instance is confidential (R398). -/
def State.portBytes (s : State) (port : Nat) (who : Option Nat) (code n : Nat) : State :=
  if who.any s.confid then s else s.count (portUnit port) code n

/-- Posted writes of the device for an instance, with its PASID, or for manager software, none of more than 512 bytes (R357, R358,
R360). DESIGN CHOICE (log 94). -/
def State.hostWrite (s : State) (port : Nat) (who : Option Nat) (a : Nat) (bs : List Byte) (relaxed : Bool) : State :=
  let ws := (pieces 512 bs.length 0 bs).map fun x => (⟨who.map s.instPasid, a + x.1, x.2, relaxed⟩ : HostWrite)
  (s.updPort port fun p => { p with out := p.out ++ ws }).portBytes port who 0x05 bs.length

/-- Requests that wait are issued while fewer than 512 are outstanding; one for an instance may use a translation while ATS is enabled
(R357, R358). -/
def Port.issue (p : Port) : Port :=
  let k := 512 - p.reqs.length
  let go := (p.asks.take k).zipIdx.map fun x => { x.1 with id := p.nextReq + x.2, ats := p.ats && x.1.pasid.isSome }
  { p with reqs := p.reqs ++ go, asks := p.asks.drop k, nextReq := p.nextReq + go.length }

/-- A read of host memory, of length zero for a flush, is asked for and issued as soon as it may be (R105, R357, R358). -/
def State.hostAsk (s : State) (port : Nat) (who : Option Nat) (a n : Nat) (use : HostUse) : State :=
  let q : HostReq := { id := 0, pasid := who.map s.instPasid, addr := a, len := n, use := use, ats := false }
  s.updPort port fun p => ({ p with asks := p.asks ++ [q] }).issue

/-- Whether a port may issue another request at once (R357). -/
def State.hostRoom (s : State) (port : Nat) : Bool := decide ((s.port port).reqs.length + (s.port port).asks.length < 512)

/-- Offsets and lengths of the reads of a range of host memory: none longer than 4,096 bytes or across a 4 KiB boundary (R357). -/
def fetchPieces (a n : Nat) : List (Nat × Nat) :=
  let r := a % 4096
  (List.range (max 1 (ceilDiv (r + n) 4096))).map fun k => (4096 * k - r, min n (4096 * (k + 1) - r) - (4096 * k - r))

/-- A unit fetches bytes of host memory on a port, for an instance or for manager software (R358, R360). -/
def State.fetch (s : State) (port : Nat) (who : Option Nat) (use : FetchUse) (a n : Nat) : State :=
  let f := s.nextFetch
  let ps := fetchPieces a n
  let s := { s with
    nextFetch := f + 1
    fetches := s.fetches ++ [{ id := f, use := use, inst := who, len := n, pieces := [], left := ps.length, bad := false }] }
  ps.foldl (fun s x => s.hostAsk port who (a + x.1) x.2 (.fetch f x.1)) s

/-- The bytes of a fetch, from its pieces. -/
def Fetch.bytes (f : Fetch) : List Byte :=
  (f.pieces.mergeSort fun a b => a.1 ≤ b.1).flatMap (·.2)

/-! ### Messages to the host (R373) -/

/-- Fire an MSI-X vector of a port (R362). -/
def State.fire (s : State) (port vector : Nat) : State :=
  s.updPort port fun p => { p with vectors := p.vectors ++ [vector] }

/-- Pad or cut a byte string to a length. -/
def padTo (n : Nat) (bs : List Byte) : List Byte := slice bs 0 n

/-- A message without its VALID word (R373). -/
def mboxEntry (tb typ status tag : Nat) (body : List Byte) : List Byte :=
  leBytes 2 typ ++ leBytes 2 status ++ leBytes 4 tag ++ leBytes 8 tb ++ padTo 0x68 body

/-- The VALID word of message m. -/
def mboxValid (m : Nat) : List Byte := leBytes 4 m ++ leBytes 4 1

/-- Put one entry into the ring. -/
def Inst.ringPut (x : Inst) (e : List Byte) : Inst :=
  { x with ring := Tab.put [] (x.produced % 31) (e ++ mboxValid x.produced) x.ring, produced := (x.produced + 1) % 2 ^ 32 }

/-- Free entries of the ring. DEDUCED (log 51). -/
def Inst.ringFull (x : Inst) : Bool := decide ((x.produced + 2 ^ 32 - x.consumed) % 2 ^ 32 ≥ 31)

/-- Remove the oldest waiting REPLY of a queue. DEDUCED (log 51). -/
def dropReply : List (List Byte) → Option (List (List Byte))
  | [] => none
  | e :: es => if leAt e 0 1 = 1 then some es else (dropReply es).map (e :: ·)

/-- Post a message to an instance's mailbox from the device (R362, R373). DEDUCED (log 51). -/
def State.post (s : State) (i typ status tag : Nat) (body : List Byte) : State :=
  if (s.instRec? i).isNone then s
  else
    let e := mboxEntry s.tb.count typ status tag body
    let x := s.inst i
    let port := s.instPort i
    if !x.ringFull then (s.updInst i fun x => x.ringPut e).fire port i
    else if x.queue.length < 4096 then s.updInst i fun x => { x with queue := x.queue ++ [e] }
    else
      match (if typ = 3 ∨ typ = 4 then dropReply x.queue else none) with
      | some q => s.updInst i fun x => { x with queue := q ++ [e] }
      | none => s.updPort port fun p => { p with mboxDropped := holdAdd 0xFFFF p.mboxDropped 1 }

/-- A REPLY to a mailbox message; it returns one credit (R372). -/
def State.reply (s : State) (i status tag : Nat) (body : List Byte) : State :=
  (s.post i 1 status tag body).updInst i fun x => { x with credits := min 16 (x.credits + 1) }

/-! ### Stopping tasks and taking a core fault (R106, R112, R114, R412) -/

/-- Descriptors of a stopped task: those not started are discarded; a started one issues no new write and only retires
those outstanding (R106). -/
def CopyEng.stop (e : CopyEng) : CopyEng :=
  { queue := []
    act := (e.act.filter fun d => d.outstanding ≠ 0 || d.flush = 1).map fun d =>
      { d with cur := none, reads := [], buf := [], outq := [], stopped := true } }

/-- What becomes of a core's descriptors and work when its task stops (R106). -/
def Core.stopTask (c : Core) : Core :=
  { c with
    act := .idle
    wait := .none
    inflight := []
    ce0 := c.ce0.stop
    ce1 := c.ce1.stop }

/-- A core that runs or waits in a task. -/
def Core.busy (c : Core) : Bool := c.act = .running || c.act = .waiting

/-- Whether a token carries a wait, or a wake, of a core that meets a test. -/
def Token.waitOf (t : Token) (stop : Nat → Bool) : Bool :=
  match t.origin with
  | .seq p => stop p && (t.kind = .waitge || t.kind = .waitsub || t.kind = .fe || t.kind = .wake)
  | _ => false

/-- The waits of the cores that meet a test leave the waiter tables, and those in flight, and wakes, their channels (R321,
log 18). -/
def State.dropWaits (s : State) (stop : Nat → Bool) : State :=
  (s.net.filter fun t => t.waitOf stop).foldl State.take
    { s with
      semWaiters := s.semWaiters.filter fun w => !stop w.p
      feWaiters := s.feWaiters.filter fun w => !stop w.p }

/-- Stop every task of a job at once. DEDUCED (log 18). -/
def State.stopJobTasks (s : State) (i q : Nat) : State :=
  let s := s.dropWaits fun p => (s.core p).inst = i && (s.core p).seq = q && (s.core p).busy
  { s with cores := Tab.mapAll {} (fun _ c => if c.inst = i && c.seq = q && c.busy then c.stopTask else c) s.cores }

/-- A job ends with a status; its record is written by JOB_COMPLETE. DEDUCED (log 60). -/
def State.endJob (s : State) (i q status : Nat) : State :=
  (s.stopJobTasks i q).updJob i q fun j => if j.endStatus.isNone then { j with endStatus := some status } else j

/-- A job stops to be restarted from its last completed barrier (R147, R412). -/
def State.stopJob (s : State) (i q : Nat) : State :=
  (s.stopJobTasks i q).updJob i q fun j => { j with phase := .stopped }

/-- What admission does on a core fault (R412): end the job, restart it, or stop it until the core is fenced. -/
def State.respondFault (s : State) (p cause detail i q : Nat) : State :=
  if cause ≤ 3 then s.endJob i q 0x76
  else if cause = 4 then (s.stopJob i q).updCore p fun c => { c with hungAt := some s.tb.count, hangReads := 2 }
  else (s.stopJob i q).updJob i q fun j => { j with ue := if 7 ≤ cause then some detail else j.ue }

/-- Corrected scratch words are counted (R109, R112). -/
def State.corrects (s : State) (p : Nat) (fixed : List Nat) : State :=
  if fixed = [] then s
  else
    (s.updCore p fun c =>
      { c with corrected := holdAdd 0xFFFF c.corrected fixed.length, lastBank := bankOf (fixed.getLast?.getD 0) }).count
      (posUnit p 6) 0x10 fixed.length

/-- A read of an uncorrectable word at a scratch offset is counted where the word lies (R109, R112). -/
def State.scratchUe (s : State) (p off : Nat) : State :=
  (s.updCore p fun c => { c with uncorrected := holdAdd 0xFF c.uncorrected 1, lastBank := bits off 9 6 }).count
    (posUnit p 6) 0x11 1

/-- TAKING A CORE FAULT (R106, R114): the task stops, STATE becomes FAULTED, COR_FAULT is filled, the fault is counted
and a fault event with the same cause is recorded; then the response of R412. -/
def State.takeFault (s : State) (p cause unit idx detail : Nat) : State :=
  let c := s.core p
  let conf := s.fieldConfid (p / 11)
  let d := detail % 2 ^ 32
  let s := s.dropWaits fun q => q = p
  let s := s.setCore p { c.stopTask with
    act := .faulted
    fault := { cause := cause, unit := unit, idx := idx, detail := d } }
  let s := s.count (posUnit p 0) 0x12 1
  let s := s.event (posUnit p unit) cause (d + (c.taskId % 2 ^ 16) * 2 ^ 32) conf
  s.respondFault p cause detail c.inst c.seq

/-- A core fault whose uncorrectable word, if it is one, lies in the core's own scratchpad (R109, R114). -/
def State.coreFault (s : State) (p cause unit idx detail : Nat) : State :=
  (if cause = 4 then s.scratchUe p detail else s).takeFault p cause unit idx detail

/-- An ADDRESS event of a field switch that discards traffic (R30). -/
def State.discard (s : State) (f a : Nat) : State := s.event (switchUnit f) 0x01 (a % 2 ^ 32) (s.fieldConfid f)

/-- Whether a core may issue an instruction: its task runs, nothing holds its sequencer or its region.
DEDUCED (log 28). -/
def State.canIssue (s : State) (p : Nat) : Bool :=
  let c := s.core p
  p < 880 && c.act = .running && c.wait = .none && c.waking.isNone && !s.held (p / 11) && s.working

/-- The operations each class has (R123, R126, R128, R133, R134, R137, R139, R141, R145). DEDUCED (log 21). -/
def opDefined (cls op : Nat) : Bool :=
  match cls with
  | 1 => op ≤ 3 | 2 => op ≤ 3 | 3 => op = 0 | 4 => op ≤ 2 | 5 => op ≤ 3 | 6 => op ≤ 5 | 7 => op ≤ 14 | 8 => op = 0
  | _ => false

/-- A fault of an instruction: cause, unit (R112) and detail. -/
structure IFault where
  cause : Nat
  unit : Nat
  detail : Nat
  deriving DecidableEq, Repr

/-- ILLEGAL_INSTRUCTION of a unit (R124). -/
def illegal (unit : Nat) : IFault := ⟨2, unit, 0⟩

/-- Fault unless a condition holds. DEDUCED (log 22). -/
def require (b : Bool) (f : IFault) : Except IFault Unit := if b then .ok () else .error f

/-- The word at the program index of a core. -/
def Core.word (c : Core) : Nat := (Tab.get 0 c.store c.pi).toNat

/-- ISSUE of the instruction at the program index (R79, R123, R124): a word with no defined class and operation faults;
the command is the instruction that stands there; its body gives the next state or the fault it takes.
DEDUCED (log 22). -/
def issue (s : State) (p cls op : Nat) (ops : BitVec 56) (body : State → Core → Except IFault State) : State :=
  if !s.canIssue p then s
  else
    let c := s.core p
    let w := c.word
    if !opDefined (bits w 63 60) (bits w 59 56) then s.coreFault p 2 0 c.pi 0
    else if w ≠ cls * 2 ^ 60 + op * 2 ^ 56 + ops.toNat then s
    else
      match body s c with
      | .ok s' => s'
      | .error f => s.coreFault p f.cause f.unit c.pi f.detail

/-- The same for an instruction that changes its core alone. DEDUCED (log 22). -/
def issueCore (s : State) (p cls op : Nat) (ops : BitVec 56) (body : Core → Except IFault Core) : State :=
  issue s p cls op ops fun s c => (body c).map fun c' => s.setCore p c'

/-- The 13-bit program index moves past the instruction (R117). DEDUCED (log 88). -/
def Core.advance (c : Core) : Core := { c with pi := (c.pi + 1) % 8192 }

/-- Address register r; a0 reads as zero (R118). -/
def Core.areg (c : Core) (r : Nat) : Word := if r = 0 then 0 else Tab.get 0 c.a r
def Core.setA (c : Core) (r : Nat) (v : Word) : Core := if r = 0 then c else { c with a := Tab.put 0 r v c.a }

/-- The scratch operand a[r] + offset with its alignment (R119); ADDRESS otherwise. -/
def Core.scratchOp (c : Core) (unit r off align n : Nat) : Except IFault Nat :=
  let a := (c.areg r + BitVec.ofNat 64 off).toNat
  if a + n ≤ 0x100000 ∧ a % align = 0 then .ok a else .error ⟨1, unit, a⟩

/-- A scratch read by a unit: SCRATCH_UE at its first byte in an uncorrectable word (R109). -/
def Core.scratchRead (c : Core) (unit a n : Nat) : Except IFault (List Byte) :=
  match c.ueIn a n with
  | [] => .ok (c.bytes a n)
  | w :: ws => .error ⟨4, unit, max a (8 * ws.foldl min w)⟩

end Sys2Proof.Machine
end

