-- ==== Sys2Proof/Machine/Operands.lean ====
section
/-! DEFINITION. Operand forms of the engines: tile descriptors (R120, R121), packed rows (R181), operand ports and the
accumulator tile (R88, R125), rescale (R196), lane masks (R132) and the statistics (R185 to R187). -/

namespace Sys2Proof.Machine

/-! ### Tile descriptors -/

/-- A tile descriptor (R120). -/
structure Tile where
  base : Nat
  fmt : Nat
  rows : Nat
  cols : Nat
  byRow : Bool
  rowStride : Nat
  segStride : Nat
  scale : Nat
  reserved : Nat
  deriving DecidableEq, Repr

/-- The fields of the 128 bits of a descriptor register (R120). -/
def Tile.ofBits (d : BitVec 128) : Tile :=
  let w0 := d.toNat % 2 ^ 64
  let w1 := d.toNat / 2 ^ 64
  { base := bits w0 19 0, fmt := bits w0 23 20, rows := bits w0 39 24, cols := bits w0 55 40, byRow := bit w0 56,
    rowStride := bits w1 19 0, segStride := bits w1 39 20, scale := bits w1 59 40, reserved := bits w0 63 57 }

/-- Code bytes of one block of 64 codes (R181). -/
def blockBytes (f : Nat) : Nat := if f = 5 ∨ f = 6 then 48 else if f = 7 ∨ f = 9 then 32 else 64

/-- Blocks of a packed row (R181). -/
def blocksOf (cols : Nat) : Nat := ceilDiv cols 64

/-- Bytes of one row (R121, R181); for BIT, bytes that hold its bits from a byte boundary. -/
def rowBytes (f cols : Nat) : Nat :=
  if isPacked f then blocksOf cols * (blockBytes f + 1) else ceilDiv (cols * fmtBits f) 8

/-- A descriptor that an instruction may name: shape in range, a defined format, a packed row that fits its stride
(R116, R120, R121, R181). -/
def Tile.valid (t : Tile) : Bool :=
  decide (t.rows ≠ 0) && decide (t.cols ≠ 0) && fmtDefined t.fmt && decide (t.reserved = 0) &&
  (!isPacked t.fmt || decide (rowBytes t.fmt t.cols ≤ t.rowStride))

/-- Byte, bit within it and width of element c of row r (R121, R181). -/
def Tile.loc (t : Tile) (r c : Nat) : Nat × Nat × Nat :=
  let row := t.base + r * t.rowStride
  let j := c / 64
  let i := c % 64
  if t.fmt = fBIT then
    let k := r * t.rowStride + c
    (t.base + k / 8, k % 8, 1)
  else if t.fmt = 5 ∨ t.fmt = 6 then (row + 48 * j + 3 * (i / 4), 6 * (i % 4), 6)
  else if t.fmt = 7 ∨ t.fmt = 9 then (row + 32 * j + i / 2, 4 * (i % 2), 4)
  else if isPacked t.fmt then (row + 64 * j + i, 0, 8)
  else (row + c * (fmtBits t.fmt / 8), 0, fmtBits t.fmt)

/-- Byte of the exponent of block j of row r (R181). -/
def Tile.expLoc (t : Tile) (r j : Nat) : Nat := t.base + r * t.rowStride + blockBytes t.fmt * blocksOf t.cols + j

/-- Read `n` bytes of scratch for a unit with the address check of R36. -/
def Core.load (c : Core) (unit a n : Nat) : Except IFault Nat :=
  if a + n ≤ 0x100000 then (c.scratchRead unit a n).map leNat else .error ⟨1, unit, a⟩

/-- Write bytes of scratch for a unit with the address check of R36. -/
def Core.store' (c : Core) (unit a : Nat) (bs : List Byte) : Except IFault Core :=
  if a + bs.length ≤ 0x100000 then .ok (c.write a bs) else .error ⟨1, unit, a⟩

/-- The raw code of an element. -/
def Core.getCode (c : Core) (unit : Nat) (t : Tile) (r col : Nat) : Except IFault Nat :=
  let l := t.loc r col
  (c.load unit l.1 (ceilDiv (l.2.1 + l.2.2) 8)).map fun v => (v >>> l.2.1) % 2 ^ l.2.2

/-- Write the raw code of an element; a code narrower than its bytes changes only its own bits. -/
def Core.putCode (c : Core) (unit : Nat) (t : Tile) (r col code : Nat) : Except IFault Core :=
  let l := t.loc r col
  let n := ceilDiv (l.2.1 + l.2.2) 8
  let v := code % 2 ^ l.2.2
  if l.2.1 = 0 ∧ l.2.2 = 8 * n then c.store' unit l.1 (leBytes n v)
  else if l.1 + n ≤ 0x100000 then
    let old := leNat (c.bytes l.1 n)
    let keep := old % 2 ^ l.2.1 + (old >>> (l.2.1 + l.2.2)) * 2 ^ (l.2.1 + l.2.2)
    .ok (c.write l.1 (leBytes n (keep + v * 2 ^ l.2.1)))
  else .error ⟨1, unit, l.1⟩

/-- The exponent byte of an element's block; 127 for formats without block exponents (R179). -/
def Core.getExp (c : Core) (unit : Nat) (t : Tile) (r col : Nat) : Except IFault Nat :=
  if isPacked t.fmt then c.load unit (t.expLoc r (col / 64)) 1 else .ok 127

/-- The value an element stands for, its block exponent applied (R179). -/
def Core.getNum (c : Core) (unit : Nat) (t : Tile) (r col : Nat) : Except IFault Num := do
  let code ← c.getCode unit t r col
  let b ← c.getExp unit t r col
  .ok ((decodeNum t.fmt code).scale ((b : Int) - 127))

/-! ### The accumulator file (R88, R156, R175) -/

/-- What an unlisted accumulator holds: zero, or an undefined value after a restart (R147). DESIGN CHOICE (log 12). -/
def Core.accDefault (c : Core) (k : Nat) : BitVec 40 :=
  match c.accFree with
  | none => 0
  | some n => (Config.freeValue n k).setWidth 40

def Core.accAt (c : Core) (k : Nat) : BitVec 40 := Tab.get (c.accDefault k) c.acc k
def Core.accPut (c : Core) (k : Nat) (v : BitVec 40) : Core :=
  { c with acc := Tab.put (c.accDefault k) k v c.acc }
def Core.accFlagsAt (c : Core) (b : Nat) : Flags := Tab.get 0 c.accFlags b
def Core.accFlagsOr (c : Core) (b : Nat) (f : Flags) : Core :=
  { c with accFlags := Tab.upd 0 b (· ||| f) c.accFlags }

/-- The accumulator block of element (r, c) of a tile of N columns from block b (R88). -/
def accBlock (b n r c : Nat) : Nat := b + r / 8 * (n / 4) + c / 4
/-- Its place in the file. -/
def accIndex (b n r c : Nat) : Nat := accBlock b n r c * 32 + r % 8 * 4 + c % 4
/-- The blocks of a tile. -/
def accBlocks (b m n : Nat) : List Nat := (List.range (m / 8 * (n / 4))).map (b + ·)

/-! ### Operand ports (R125) -/

/-- An operand port: a tile, the accumulator tile (first block, rows, columns), or none. -/
inductive Port' where
  | tile (d : Nat) (t : Tile)
  | acc (b m n : Nat)
  | none
  deriving DecidableEq, Repr

/-- The descriptor held by t[d] (R117). -/
def Core.tile (c : Core) (d : Nat) : Tile := Tile.ofBits (Tab.get 0 c.t d)

/-- Values a port field and an RSC field may hold; the others are reserved (R125). -/
def portField (f : Nat) : Bool := decide (f ≤ 0x10) || f = 0x1F
def rscField (f : Nat) : Bool := decide (f ≤ 0xF) || f = 0x1F

/-- The descriptor register that an RSC field names (R125). -/
def rscDesc (f : Nat) : List Nat := if f ≤ 0xF then [f] else []

/-- The port of a 5-bit field with its accumulator fields; other values are reserved (R125). -/
def Core.port (c : Core) (unit f accb m8 n4 : Nat) : Except IFault Port' :=
  if f ≤ 0xF then
    let t := c.tile f
    if t.valid then .ok (.tile f t) else .error (illegal unit)
  else if f = 0x10 then
    if accb + (m8 + 1) * (n4 + 1) ≤ 64 then .ok (.acc accb (8 * (m8 + 1)) (4 * (n4 + 1))) else .error (illegal unit)
  else if f = 0x1F then .ok .none
  else .error (illegal unit)

def Port'.shape : Port' → Option (Nat × Nat)
  | .tile _ t => some (t.rows, t.cols)
  | .acc _ m n => some (m, n)
  | .none => Option.none

def Port'.isNone : Port' → Bool
  | .none => true
  | _ => false

def Port'.isAcc : Port' → Bool
  | .acc _ _ _ => true
  | _ => false

/-- Descriptor registers a port names (R122, R142). -/
def Port'.desc : Port' → List Nat
  | .tile d _ => [d]
  | _ => []

/-- Accumulator blocks of a port (R80). -/
def Port'.blocks : Port' → List Nat
  | .acc b m n => accBlocks b m n
  | _ => []

/-- The element format of a port: A40 for the accumulator (R133). -/
def Port'.fmt : Port' → Nat
  | .tile _ t => t.fmt
  | .acc _ _ _ => fA40
  | .none => 15

/-! ### Rescale (R125, R196, R197) -/

/-- The scale table an RSC field selects: none, or offset and axis. Reserved values are undefined whatever the ports
are; the table is looked at only when the accumulator tile of m by n is read (`acc`); the descriptor that is named must be one that an
instruction may name (R181). -/
def Core.rescale (c : Core) (unit f : Nat) (acc : Bool) (m n : Nat) : Except IFault (Option (Nat × Bool)) :=
  if f = 0x1F then .ok .none
  else if f > 0xF then .error (illegal unit)
  else
    let t := c.tile f
    if !t.valid then .error (illegal unit)
    else if !acc then .ok .none
    else if t.scale = 0xFFFFF then .ok .none
    else if t.scale % 4 = 0 ∧ t.scale + 4 * (if t.byRow then m else n) ≤ 0x100000 then .ok (some (t.scale, t.byRow))
    else .error ⟨1, unit, t.scale⟩

/-- The exact value read from an accumulator element after any rescale (R93, R196), and its block's flags (R175). -/
def Core.accNum (c : Core) (unit : Nat) (rs : Option (Nat × Bool)) (b n r col : Nat) : Except IFault (Num × Flags) := do
  let v := decodeNum fA40 (c.accAt (accIndex b n r col)).toNat
  let fl := c.accFlagsAt (accBlock b n r col)
  match rs with
  | none => .ok (v, fl)
  | some (a, byRow) =>
    let g ← c.load unit (a + 4 * (if byRow then r else col)) 4
    .ok (Num.mul v (decodeNum fF32 g), fl)

/-- The exact source value of an element of a port (R133, R189, R196), and the flags it carries. -/
def Core.portNum (c : Core) (unit : Nat) (rs : Option (Nat × Bool)) (p : Port') (r col : Nat) :
    Except IFault (Num × Flags) :=
  match p with
  | .tile _ t => (c.getNum unit t r col).map fun v => (v, 0)
  | .acc b _ n => c.accNum unit rs b n r col
  | .none => .error (illegal unit)

/-! ### Lane masks (R95, R132) -/

/-- Whether a coordinate lies outside an inclusive range whose high bound 0xFFF reaches the end. -/
def outside (lo hi x : Nat) : Bool := decide (x < lo) || (decide (hi ≠ 0xFFF) && decide (hi < x))

/-- The mask an instruction applies, checked against its tile (R132). -/
def Core.maskFor (c : Core) (unit : Nat) (apply : Bool) (rows cols : Nat) : Except IFault (Option LaneMask) :=
  if !apply then .ok .none
  else
    match c.mask with
    | none => .ok .none
    | some m =>
      match m.bmp with
      | none => .ok (some m)
      | some d =>
        let t := Tile.ofBits d
        if t.rows = rows ∧ t.cols = cols then .ok (some m) else .error (illegal unit)

/-- Whether an element is masked. -/
def Core.masked (c : Core) (unit : Nat) (m : Option LaneMask) (r col : Nat) : Except IFault Bool := do
  match m with
  | none => .ok false
  | some m =>
    let byRange : Bool :=
      match m.ranges with
      | none => false
      | some (rl, rh, cl, ch) => outside rl rh r || outside cl ch col
    if byRange then .ok true
    else
      match m.bmp with
      | none => .ok false
      | some d => (c.getCode unit (Tile.ofBits d) r col).map fun b => b = 0

/-! ### Statistics (R185 to R188) -/

/-- The F32 that holds a maximum (R185, R186). -/
def statCode (v : Num) : BitVec 32 := BitVec.ofNat 32 (convertNum fF32 .rne true v).1

/-- One maximum over the contributions that meet a test. -/
def statOver (xs : List (Nat × Nat × Num)) (p : Nat → Nat → Bool) : BitVec 32 :=
  statCode (xs.foldl (fun m x => if p x.1 x.2.1 then Num.maxAbs m x.2.2 else m) (.fin false 0 0))

/-- The four statistics of the elements an instruction contributed (R185). -/
def gather (rows cols : Nat) (xs : List (Nat × Nat × Num)) : Stats :=
  { rows := rows, cols := cols,
    block := (List.range (rows * blocksOf cols)).map fun k =>
      statOver xs fun r c => r = k / blocksOf cols && c / 64 = k % blocksOf cols
    row := (List.range rows).map fun k => statOver xs fun r _ => r = k
    col := (List.range cols).map fun k => statOver xs fun _ c => c = k
    tile := statOver xs fun _ _ => true }

/-- Shapes whose statistics the crystalliser can hold (R187). -/
def statFits (rows cols : Nat) : Bool :=
  decide (rows ≤ 16384) && decide (cols ≤ 16384) && decide (rows * blocksOf cols ≤ 16384)

/-! ### Issue to an engine (R79, R80, R122) -/

/-- Accesses of two instructions of different engines conflict on a block (R80). -/
def conflict (a b : InFlight) : Bool :=
  a.blocksWritten.any (fun x => b.blocksRead.contains x || b.blocksWritten.contains x) ||
  b.blocksWritten.any (fun x => a.blocksRead.contains x)

/-- Whether an engine has started its oldest instruction: no earlier conflicting one of the other engine (R80).
DEDUCED (log 28). -/
def Core.headStarted (c : Core) (eng : Nat) : Bool :=
  match c.inflight.find? fun x => x.eng = eng with
  | none => false
  | some h => !(c.inflight.any fun x => x.eng ≠ eng && x.id < h.id && conflict x h)

/-- Free room in the 4-entry queue of an engine (R79). DEDUCED (log 28). -/
def Core.queueRoom (c : Core) (eng : Nat) : Bool :=
  let n := (c.inflight.filter fun x => x.eng = eng).length
  decide (n - (if c.headStarted eng then 1 else 0) < 4)

/-- What an engine instruction names: descriptor registers, and accumulator blocks read and written (R80, R142). -/
structure Foot where
  descs : List Nat := []
  rd : List Nat := []
  wr : List Nat := []
  deriving DecidableEq, Repr

/-- The instruction at the program index enters an engine's queue, which takes copies of the registers it names (R79, R90,
R122). -/
def Core.enqueue (c : Core) (eng : Nat) (f : Foot) : Core :=
  { c.advance with
    nextId := c.nextId + 1
    inflight := c.inflight ++
      [{ id := c.nextId, eng := eng, idx := c.pi, word := c.word, t := c.t, a := c.a, v0 := c.v0, mask := c.mask,
         descs := f.descs, blocksRead := f.rd, blocksWritten := f.wr }] }

/-- Issue to an engine: the sequencer stalls while the queue is full; `foot` checks what the word and its descriptors show, and
says what the instruction names. DESIGN CHOICE (log 6). -/
def issueEngine (s : State) (p cls op : Nat) (ops : BitVec 56) (eng : Nat) (foot : Core → Except IFault Foot) : State :=
  issueCore s p cls op ops fun c => if !c.queueRoom eng then .ok c else (foot c).map (c.enqueue eng)

/-- The core as the engine sees it for an instruction in flight, and back (R122). -/
def Core.seenBy (c : Core) (x : InFlight) : Core := { c with t := x.t, a := x.a, v0 := x.v0, mask := x.mask }
def Core.unseen (c d : Core) : Core := { d with t := c.t, a := c.a, v0 := c.v0, mask := c.mask }

/-- What an engine instruction did: the core after it, its flags, and the descriptor registers that take them (R122). -/
abbrev Effect := Core × Flags × List Nat

/-- The SR draw of a lane, advancing its 48-bit counter (R169). -/
def Core.draw (c : Core) (p lane : Nat) : Core × Nat :=
  let k := Tab.get 0 c.srCtr lane
  ({ c with srCtr := Tab.put 0 lane ((k + 1) % 2 ^ 48) c.srCtr }, (Config.srDraw c.seed c.srBarrier p lane k).toNat)

/-- The rounding of an RND field, drawing when it is SR (R133, R167 to R169). -/
def Core.rounding (c : Core) (p lane rnd : Nat) : Core × Rnd :=
  if rnd = 2 then let d := c.draw p lane; (d.1, .sr d.2)
  else if rnd = 1 then (c, .rtz)
  else (c, .rne)

/-- Run a body over a list of items, threading a state. -/
def foldE {α β : Type} (f : β → α → Except IFault β) : β → List α → Except IFault β
  | b, [] => .ok b
  | b, x :: xs => (f b x).bind fun b' => foldE f b' xs

/-- Row-major coordinates of a tile. -/
def coords (rows cols : Nat) : List (Nat × Nat) := (List.range (rows * cols)).map fun k => (k / cols, k % cols)

end Sys2Proof.Machine
end

