-- ==== Sys2Proof/Machine/Convert.lean ====
section
/-! DEFINITION. The convert class and the statistics and scale class: CVT, STAT.MAXABS, XTL.PACK and XTL.ROT
(R133 to R136, R185 to R199). -/

namespace Sys2Proof.Machine

/-- Write one converted element to a port: a code to a tile, an A40 value and its flags to an accumulator. -/
def Core.putPort (c : Core) (unit : Nat) (q : Port') (r col code : Nat) (f : Flags) : Except IFault Core :=
  match q with
  | .tile _ t => c.putCode unit t r col code
  | .acc b _ n =>
    .ok ((c.accPut (accIndex b n r col) (BitVec.ofNat 40 code)).accFlagsOr (accBlock b n r col) f)
  | .none => .error (illegal unit)

/-- Write the exponent byte of block j of row r and zero the block's padding codes (R133, R182). -/
def Core.closeBlock (c : Core) (unit : Nat) (t : Tile) (r j b : Nat) : Except IFault Core := do
  let c ← c.store' unit (t.expLoc r j) [BitVec.ofNat 8 b]
  let pad := (List.range 64).filter fun i => decide (t.cols ≤ 64 * j + i)
  foldE (fun c i => c.putCode unit t r (64 * j + i) 0) c pad

/-- What runs through a conversion: core, flags, statistics, and the (row, block) pairs written. -/
structure CvtState where
  core : Core
  flags : Flags
  stats : List (Nat × Nat × Num)
  touched : List (Nat × Nat)

/-- One element of a CVT (R133, R167 to R172). -/
def cvtElement (p : Nat) (rs : Option (Nat × Bool)) (src dst : Port') (lm : Option LaneMask) (dfmt rnd : Nat)
    (satm : Bool) (cols : Nat) (st : CvtState) (rc : Nat × Nat) : Except IFault CvtState := do
  let mk ← st.core.masked 2 lm rc.1 rc.2
  let d := st.core.rounding p ((rc.1 * cols + rc.2) % 32) rnd
  if mk then .ok { st with core := d.1 }
  else
    let v ← st.core.portNum 2 rs src rc.1 rc.2
    let x := convertNum dfmt d.2 satm v.1
    let f := x.2 ||| v.2
    let c ← d.1.putPort 2 dst rc.1 rc.2 x.1 f
    let b := (rc.1, rc.2 / 64)
    .ok { core := c, flags := st.flags ||| f, stats := st.stats ++ [(rc.1, rc.2, v.1.abs)],
          touched := if st.touched.getLast? = some b then st.touched else st.touched ++ [b] }

/-- The checks of the word and ports of a CVT, and what it names (R80, R133). -/
def cvtFoot (ops : BitVec 56) (c : Core) : Except IFault Foot := do
  let o := ops.toNat
  require (bits o 19 0 = 0 && bits o 51 50 ≠ 3 && fmtDefined (bits o 55 52) && portField (bits o 48 44) &&
    portField (bits o 43 39) && rscField (bits o 38 34)) (illegal 0)
  let port (f : Nat) := c.port 2 f (bits o 33 28) (bits o 27 25) (bits o 24 22)
  let src ← port (bits o 48 44)
  let dst ← port (bits o 43 39)
  .ok { descs := src.desc ++ dst.desc ++ rscDesc (bits o 38 34), rd := src.blocks, wr := dst.blocks }

/-- CVT (R133). -/
def cvtBody (p : Nat) (ops : BitVec 56) (c : Core) : Except IFault Effect := do
  let o := ops.toNat
  let dfmt := bits o 55 52
  let rnd := bits o 51 50
  let _ ← cvtFoot ops c
  let port (f : Nat) := c.port 2 f (bits o 33 28) (bits o 27 25) (bits o 24 22)
  let src ← port (bits o 48 44)
  let dst ← port (bits o 43 39)
  require (!src.isNone && !dst.isNone && dst.fmt = dfmt && dfmt ≠ fBIT && dst.shape = src.shape) (illegal 2)
  let shape := src.shape.getD (0, 0)
  let rs ← c.rescale 2 (bits o 38 34) src.isAcc shape.1 shape.2
  let stat := bit o 20
  require (!stat || statFits shape.1 shape.2) (illegal 2)
  let lm ← c.maskFor 2 (bit o 21) shape.1 shape.2
  let st ← foldE (cvtElement p rs src dst lm dfmt rnd (bit o 49) shape.2)
    { core := c, flags := 0, stats := [], touched := [] } (coords shape.1 shape.2)
  let c1 ←
    match dst with
    | .tile _ t =>
      if isPacked t.fmt then foldE (fun c (b : Nat × Nat) => c.closeBlock 2 t b.1 b.2 127) st.core st.touched
      else .ok st.core
    | _ => .ok st.core
  let c2 := if stat then { c1 with stats := some (gather shape.1 shape.2 st.stats) } else c1
  .ok (c2, st.flags, dst.desc)

/-- The value STAT.MAXABS writes at (r, j), +0 when nothing was gathered (R188). -/
def statAt (s : Option Stats) (kind r j : Nat) : BitVec 32 :=
  match s with
  | none => 0
  | some x =>
    if kind = 0 then x.block.getD (r * blocksOf x.cols + j) 0
    else if kind = 1 then x.row.getD r 0
    else if kind = 2 then x.col.getD j 0
    else x.tile

/-- Destination shape for a statistic tile (R188). -/
def statShape (x : Stats) (kind : Nat) : Nat × Nat :=
  if kind = 0 then (x.rows, blocksOf x.cols) else if kind = 1 then (x.rows, 1)
  else if kind = 2 then (1, x.cols) else (1, 1)

/-- The checks of the word and descriptor of a STAT.MAXABS, and what it names (R135, R188). -/
def maxabsFoot (ops : BitVec 56) (c : Core) : Except IFault Foot := do
  require (fld ops 49 0 = 0) (illegal 0)
  let t := c.tile (fld ops 55 52)
  require (t.valid && t.fmt = fF32) (illegal 3)
  .ok { descs := [fld ops 55 52] }

/-- STAT.MAXABS (R135, R188). -/
def maxabsBody (ops : BitVec 56) (c : Core) : Except IFault Effect := do
  let o := ops.toNat
  let d := bits o 55 52
  let kind := bits o 51 50
  let t := c.tile d
  let _ ← maxabsFoot ops c
  require (c.stats.all fun x => statShape x kind = (t.rows, t.cols)) (illegal 3)
  let c' ← foldE (fun (acc : Core) (rc : Nat × Nat) => acc.putCode 3 t rc.1 rc.2 (statAt c.stats kind rc.1 rc.2).toNat)
    c (coords t.rows t.cols)
  .ok (c', 0, [d])

/-- The largest finite value of a packed format (R190). -/
def packMax (f : Nat) : Nat × Int :=
  match fmtOf f with
  | some t => t.maxFin
  | none => (if f = 8 then 127 else 7, 0)

/-- The block exponent for a largest magnitude m * 2^e (R190). -/
def packExp (f m : Nat) (e : Int) : Nat :=
  if m = 0 then 127
  else
    let mx := packMax f
    let k0 := leadExp m e - leadExp mx.1 mx.2
    let k := if leScaled m e mx.1 (mx.2 + k0) then k0 else k0 + 1
    (min 254 (max 0 (127 + k))).toNat

/-- Source values of one block: column, exact value and flags of each unmasked element, none for a masked one. -/
def blockValues (c : Core) (rs : Option (Nat × Bool)) (src : Port') (lm : Option LaneMask) (cols r j : Nat) :
    Except IFault (List (Nat × Option (Num × Flags))) :=
  foldE
    (fun acc i => do
      let col := 64 * j + i
      if cols ≤ col then .ok acc
      else
        let mk ← c.masked 3 lm r col
        if mk then .ok (acc ++ [(col, none)])
        else do
          let v ← c.portNum 3 rs src r col
          .ok (acc ++ [(col, some v)]))
    [] (List.range 64)

/-- One block of XTL.PACK (R190, R191). -/
def packBlock (p : Nat) (rs : Option (Nat × Bool)) (src : Port') (t : Tile) (lm : Option LaneMask) (rnd : Nat)
    (satm : Bool) (st : CvtState) (rj : Nat × Nat) : Except IFault CvtState := do
  let vs ← blockValues st.core rs src lm t.cols rj.1 rj.2
  let m := vs.foldl
    (fun (m : Num) x =>
      match x.2 with
      | some (.fin n k e, _) => if Num.lt m (Num.fin n k e).abs then (Num.fin n k e).abs else m
      | _ => m) (.fin false 0 0)
  let b : Nat := match m with
    | .fin _ k e => packExp t.fmt k e
    | _ => 127
  let st1 ← foldE
    (fun (st : CvtState) (x : Nat × Option (Num × Flags)) => do
      let d := st.core.rounding p ((rj.1 * t.cols + x.1) % 32) rnd
      match x.2 with
      | none => .ok { st with core := d.1 }
      | some v =>
        let y := convertNum t.fmt d.2 satm (v.1.scale (127 - (b : Int)))
        let f := y.2 ||| v.2
        let c ← d.1.putCode 3 t rj.1 x.1 y.1
        .ok { st with core := c, flags := st.flags ||| f, stats := st.stats ++ [(rj.1, x.1, v.1.abs)] })
    st vs
  if vs.any fun x => x.2.isSome then (st1.core.closeBlock 3 t rj.1 rj.2 b).map fun c => { st1 with core := c }
  else .ok st1

/-- The checks of the word and ports of an XTL.PACK, and what it names (R80, R136). -/
def packFoot (ops : BitVec 56) (c : Core) : Except IFault Foot := do
  let o := ops.toNat
  require (!bit o 46 && bits o 23 0 = 0 && bits o 45 44 ≠ 3 && portField (bits o 55 51) && rscField (bits o 42 38)) (illegal 0)
  let src ← c.port 3 (bits o 55 51) (bits o 37 32) (bits o 31 29) (bits o 28 26)
  require ((c.tile (bits o 50 47)).valid) (illegal 3)
  .ok { descs := src.desc ++ [bits o 50 47] ++ rscDesc (bits o 42 38), rd := src.blocks }

/-- XTL.PACK (R136, R189 to R191). -/
def packBody (p : Nat) (ops : BitVec 56) (c : Core) : Except IFault Effect := do
  let o := ops.toNat
  let rnd := bits o 45 44
  let _ ← packFoot ops c
  let src ← c.port 3 (bits o 55 51) (bits o 37 32) (bits o 31 29) (bits o 28 26)
  let d := bits o 50 47
  let t := c.tile d
  require (t.valid && isPacked t.fmt && (src.isAcc || decide (src.fmt ≤ 2)) && src.shape = some (t.rows, t.cols)) (illegal 3)
  let rs ← c.rescale 3 (bits o 42 38) src.isAcc t.rows t.cols
  let stat := bit o 24
  require (!stat || statFits t.rows t.cols) (illegal 3)
  let lm ← c.maskFor 3 (bit o 25) t.rows t.cols
  let st ← foldE (packBlock p rs src t lm rnd (bit o 43)) { core := c, flags := 0, stats := [], touched := [] }
    (coords t.rows (blocksOf t.cols))
  let c' := if stat then { st.core with stats := some (gather t.rows t.cols st.stats) } else st.core
  .ok (c', st.flags, [d])

/-- The sign vector of a rotation: true where the sign is minus (R192). -/
def signVector (seed : Nat) : Nat → Nat → List Bool
  | 0, _ => []
  | n + 1, s =>
    if seed = 0 then false :: signVector seed n s
    else
      let b := s % 2 = 1
      let s' := s / 2
      decide b :: signVector seed n (if b then s' ^^^ 0xE10000 else s')

/-- A rotation value: an F32 code with the flags raised for its element. -/
abbrev RotVal := Nat × Flags

def rotNeg (neg : Bool) (x : RotVal) : RotVal :=
  if neg then let r := arith 0 (decodeNum fF32 x.1).neg; (r.1, x.2 ||| r.2) else x

/-- One butterfly stage (R193). -/
def butterfly (st : Nat) (u : List RotVal) : List RotVal :=
  (List.range u.length).map fun l =>
    let d := 2 ^ st
    let hi := bit l st
    let a := u.getD (if hi then l - d else l) (0, 0)
    let b := u.getD (if hi then l else l + d) (0, 0)
    let x := decodeNum fF32 a.1
    let y := decodeNum fF32 b.1
    let r := arith 0 (if hi then x.add y.neg else x.add y)
    (r.1, (u.getD l (0, 0)).2 ||| r.2)

/-- The F32 nearest to the inverse square root of the size (R193). -/
def rotScale (n : Nat) : Nat := if n = 32 then 0x3E3504F3 else if n = 64 then 0x3E000000 else 0x3DB504F3

/-- The winnow rotation of one block, or its inverse (R193). -/
def rotateBlock (n stages : Nat) (signs : List Bool) (inv : Bool) (x : List RotVal) : List RotVal :=
  let sgn (u : List RotVal) := List.zipWith rotNeg signs u
  let u0 := if inv then x else sgn x
  let u1 := (List.range stages).foldl (fun u s => butterfly s u) u0
  let u2 := u1.map fun v =>
    let r := arith 0 (Num.mul (decodeNum fF32 v.1) (decodeNum fF32 (rotScale n)))
    (r.1, v.2 ||| r.2)
  if inv then sgn u2 else u2

/-- One block of XTL.ROT (R194). -/
def rotBlock (src dst : Port') (lm : Option LaneMask) (n stages : Nat) (signs : List Bool) (inv : Bool)
    (st : CvtState) (rj : Nat × Nat) : Except IFault CvtState := do
  let xs ← foldE
    (fun (acc : List (Bool × RotVal)) i => do
      let col := n * rj.2 + i
      let mk ← st.core.masked 3 lm rj.1 col
      if mk then .ok (acc ++ [(true, ((0, 0) : RotVal))])
      else do
        let v ← st.core.portNum 3 none src rj.1 col
        let x := convertNum fF32 .rne true v.1
        .ok (acc ++ [(false, (x.1, x.2 ||| v.2))]))
    [] (List.range n)
  let ys := rotateBlock n stages signs inv (xs.map (·.2))
  foldE
    (fun (st : CvtState) i => do
      if (xs.getD i (true, (0, 0))).1 then .ok st
      else
        let y := ys.getD i (0, 0)
        let v := decodeNum fF32 y.1
        let z := convertNum dst.fmt .rne true v
        let f := z.2 ||| y.2
        let c ← st.core.putPort 3 dst rj.1 (n * rj.2 + i) z.1 f
        .ok { st with core := c, flags := st.flags ||| f, stats := st.stats ++ [(rj.1, n * rj.2 + i, v.abs)] })
    st (List.range n)

/-- The checks of the word and ports of an XTL.ROT, and what it names (R80, R136). -/
def rotFoot (ops : BitVec 56) (c : Core) : Except IFault Foot := do
  let o := ops.toNat
  require (bits o 41 38 = 0 && !bit o 24 && bits o 45 44 ≠ 3 && portField (bits o 55 51) && portField (bits o 50 46)) (illegal 0)
  let port (f : Nat) := c.port 3 f (bits o 37 32) (bits o 31 29) (bits o 28 26)
  let src ← port (bits o 55 51)
  let dst ← port (bits o 50 46)
  .ok { descs := src.desc ++ dst.desc, rd := src.blocks, wr := dst.blocks }

/-- XTL.ROT (R136, R192 to R194). -/
def rotBody (ops : BitVec 56) (c : Core) : Except IFault Effect := do
  let o := ops.toNat
  let size := bits o 45 44
  let _ ← rotFoot ops c
  let port (f : Nat) := c.port 3 f (bits o 37 32) (bits o 31 29) (bits o 28 26)
  let src ← port (bits o 55 51)
  let dst ← port (bits o 50 46)
  let okPort (q : Port') : Bool := q.isAcc || decide (q.fmt ≤ 2)
  require (okPort src && okPort dst && dst.shape = src.shape) (illegal 3)
  let shape := src.shape.getD (0, 0)
  let n := 32 * 2 ^ size
  require (shape.2 % n = 0) (illegal 3)
  let stat := bit o 25
  require (!stat || statFits shape.1 shape.2) (illegal 3)
  let lm ← c.maskFor 3 (bit o 42) shape.1 shape.2
  let seed := bits o 23 0
  let st ← foldE (rotBlock src dst lm n (5 + size) (signVector seed n seed) (bit o 43))
    { core := c, flags := 0, stats := [], touched := [] } (coords shape.1 (shape.2 / n))
  let c' := if stat then { st.core with stats := some (gather shape.1 shape.2 st.stats) } else st.core
  .ok (c', st.flags, dst.desc)

/-- CVT (R133). -/
def execCvt (p : Nat) (ops : BitVec 56) (s : State) : Out := .next (issueEngine s p 3 0 ops 1 (cvtFoot ops))
/-- STAT.MAXABS (R188). -/
def execStatMaxabs (p : Nat) (ops : BitVec 56) (s : State) : Out := .next (issueEngine s p 4 0 ops 1 (maxabsFoot ops))
/-- XTL.PACK (R190). -/
def execXtlPack (p : Nat) (ops : BitVec 56) (s : State) : Out := .next (issueEngine s p 4 1 ops 1 (packFoot ops))
/-- XTL.ROT (R193). -/
def execXtlRot (p : Nat) (ops : BitVec 56) (s : State) : Out := .next (issueEngine s p 4 2 ops 1 (rotFoot ops))

end Sys2Proof.Machine
end

