-- ==== Sys2Proof/Machine/Element.lean ====
section
/-! DEFINITION. The element class: ELT.RUN, ELT.BCAST, ELT.LOADP, ELT.MASK and the micro-operations
(R91 to R95, R128 to R132, R151 to R153, R163 to R166). -/

namespace Sys2Proof.Machine

/-- A micro-operation (R151). -/
structure UOp where
  opc : Nat
  d : Nat
  sa : Nat
  sb : Nat
  sc : Nat
  fmt : Nat
  imm : Nat
  deriving DecidableEq, Repr

def UOp.ofBits (w : BitVec 32) : UOp :=
  { opc := fld w 31 26, d := fld w 25 23, sa := fld w 22 20, sb := fld w 19 17, sc := fld w 16 14,
    fmt := fld w 13 12, imm := fld w 11 0 }

/-- What an element program runs over. `core0` is the core at the start, from which the vector is read once (R94). -/
structure EltCtx where
  p : Nat
  core0 : Core
  in0 : Port'
  in1 : Port'
  out0 : Port'
  out1 : Port'
  rs : Option (Nat × Bool)
  vec : Port'
  colVec : Bool
  rows : Nat
  cols : Nat

/-- The port of an LD (R152): IN0, IN1 or the vector. -/
def EltCtx.src (x : EltCtx) (k : Nat) : Port' :=
  if k = 0 then x.in0 else if k = 1 then x.in1 else if k = 2 then x.vec else .none

/-- The port of an ST (R152). -/
def EltCtx.out (x : EltCtx) (k : Nat) : Port' := if k = 0 then x.out0 else x.out1

/-- Micro-operations for which FMT 1 is permitted (R152). -/
def fmt1Ok (opc : Nat) : Bool :=
  [0x01, 0x02, 0x04, 0x06, 0x08, 0x09, 0x0A, 0x0B, 0x0C, 0x0D, 0x0E, 0x0F, 0x10, 0x11, 0x12, 0x13].contains opc

/-- Listed operation codes (R152). -/
def opcDefined (opc : Nat) : Bool :=
  opc ≤ 6 || (decide (8 ≤ opc) && opc ≤ 0x13) || (decide (0x18 ≤ opc) && opc ≤ 0x1C) || (decide (0x20 ≤ opc) && opc ≤ 0x25)

/-- Whether a micro-operation is permitted under R151 to R153. -/
def UOp.ok (u : UOp) (x : EltCtx) : Bool :=
  opcDefined u.opc && u.fmt ≠ 3 &&
  (u.fmt ≠ 1 || (fmt1Ok u.opc && u.d % 2 = 0 && u.sa % 2 = 0 && u.sb % 2 = 0 && u.sc % 2 = 0)) &&
  (if u.opc = 0x01 then !(x.src (u.imm % 4)).isNone && !((x.src (u.imm % 4)).isAcc && u.fmt = 2)
   else if u.opc = 0x02 then !(x.out (u.imm % 2)).isNone && !((x.out (u.imm % 2)).isAcc && u.fmt = 2)
   else if u.opc = 0x03 then !x.in1.isNone
   else if u.opc = 0x06 then
     let sf := bits u.imm 11 8
     let tf := bits u.imm 7 4
     fmtDefined sf && fmtDefined tf && tf ≠ fBIT && bits u.imm 3 2 ≠ 3 && ((u.fmt = 1) = (sf = fA40 ∨ tf = fA40))
   else if 0x20 ≤ u.opc ∧ u.opc ≤ 0x23 then u.fmt = 0
   else true)

/-- One lane of a group of 32 elements: place, mask, registers e0 to e7 (R91), flags and accumulator blocks stored. -/
structure Lane where
  r : Nat
  col : Nat
  lane : Nat
  masked : Bool
  regs : List Nat
  flags : Flags
  blocks : List Nat

def Lane.reg (l : Lane) (k : Nat) : Nat := l.regs.getD k 0
def Lane.set (l : Lane) (k v : Nat) : Lane := { l with regs := l.regs.set k (v % 2 ^ 32) }

/-- A value of a register, or of a pair with FMT 1 (R151, R156). DEDUCED (log 50). -/
def Lane.get (l : Lane) (fmt k : Nat) : Nat :=
  if fmt = 1 then l.reg k + l.reg (k + 1) % 256 * 2 ^ 32 else l.reg k
def Lane.put (l : Lane) (fmt k v : Nat) : Lane :=
  if fmt = 1 then (l.set k v).set (k + 1) (v / 2 ^ 32 % 256) else l.set k v
def Lane.or (l : Lane) (f : Flags) : Lane := { l with flags := l.flags ||| f }

/-- The raw element LD reads, and the flags it brings (R93, R153, R196). DEDUCED (log 50). -/
def loadElement (c : Core) (rs : Option (Nat × Bool)) (port : Port') (fmt r col : Nat) : Except IFault (Nat × Flags) :=
  match port with
  | .tile _ t => do
    let code ← c.getCode 2 t r col
    if isPacked t.fmt then do
      let b ← c.getExp 2 t r col
      .ok (code + 256 * b, 0)
    else .ok (code, 0)
  | .acc b _ n => do
    let v ← c.accNum 2 rs b n r col
    let x := convertNum (arithFmt fmt) .rne true v.1
    .ok (x.1, x.2 ||| v.2)
  | .none => .error (illegal 2)

/-- What ST does at one element (R153): the core, the flags and the accumulator block written. DEDUCED (log 50). -/
def storeElement (c : Core) (port : Port') (fmt r col v : Nat) : Except IFault (Core × Flags × List Nat) :=
  match port with
  | .tile _ t => (c.putCode 2 t r col v).map fun c' => (c', 0, [])
  | .acc b _ n =>
    let x := if fmt = 1 then (v % 2 ^ 40, 0) else convertNum fA40 .rne true (decodeNum (arithFmt fmt) v)
    .ok (c.accPut (accIndex b n r col) (BitVec.ofNat 40 x.1), x.2, [accBlock b n r col])
  | .none => .error (illegal 2)

/-- Float arithmetic of FMT 0 and 1 (R163, R164): three operand codes to a code and flags. DEDUCED (log 49). -/
def floatOp (opc fmt a b c : Nat) : Nat × Flags :=
  let f := arithFmt fmt
  let x := decodeNum f a
  let y := decodeNum f b
  let z := decodeNum f c
  if opc = 0x08 then arith fmt (x.add y)
  else if opc = 0x09 then arith fmt (x.add y.neg)
  else if opc = 0x0A then arith fmt (x.mul y)
  else if opc = 0x0B then arith fmt ((x.mul y).add z)
  else if opc = 0x0C then minMax fmt false a b
  else if opc = 0x0D then minMax fmt true a b
  else if opc = 0x0E then arith fmt x.abs
  else arith fmt x.neg

/-- I32 arithmetic of FMT 2 (R163): wraps modulo 2^32, signed, no flag. -/
def intOp (opc a b c : Nat) : Nat :=
  let x := sext 32 a
  let y := sext 32 b
  let z := sext 32 c
  let v : Int :=
    if opc = 0x08 then x + y
    else if opc = 0x09 then x - y
    else if opc = 0x0A then x * y
    else if opc = 0x0B then x * y + z
    else if opc = 0x0C then min x y
    else if opc = 0x0D then max x y
    else if opc = 0x0E then x.natAbs
    else -x
  (v % 2 ^ 32).toNat

/-- Comparisons (R165): 0x10 less, 0x11 less or equal, 0x12 equal. DEDUCED (log 49). -/
def compareOp (opc fmt a b : Nat) : Bool :=
  if fmt = 2 then
    let x := sext 32 a
    let y := sext 32 b
    if opc = 0x10 then decide (x < y) else if opc = 0x11 then decide (x ≤ y) else decide (x = y)
  else
    let x := decodeNum (arithFmt fmt) a
    let y := decodeNum (arithFmt fmt) b
    if opc = 0x10 then x.lt y else if opc = 0x11 then x.lt y || x.eq y else x.eq y

/-- The test of SEL (R165). -/
def selTest (fmt a : Nat) : Bool := if fmt = 2 then a ≠ 0 else !(decodeNum (arithFmt fmt) a).isZero

/-- The magnitude an ST to OUT0 contributes to the statistics (R185). -/
def statValue (fmt v : Nat) : Num := (decodeNum (if fmt = 2 then fI32 else arithFmt fmt) v).abs

/-- What runs through a group: the core and the statistics gathered so far. -/
structure EltState where
  core : Core
  stats : List (Nat × Nat × Num)

/-- CVT micro-operation (R152, R153, R167). -/
def cvtOp (x : EltCtx) (u : UOp) (st : EltState) (l : Lane) : EltState × Lane :=
  let sf := bits u.imm 11 8
  let tf := bits u.imm 7 4
  let d := st.core.rounding x.p l.lane (bits u.imm 3 2)
  let raw := if sf = fA40 then l.get 1 u.sa else l.reg u.sa
  let v : Num :=
    if isPacked sf then (decodeNum sf raw).scale ((bits raw 15 8 : Int) - 127) else decodeNum sf raw
  let r := convertNum tf d.2 (bit u.imm 1) v
  ({ st with core := d.1 }, (if tf = fA40 then l.put 1 u.d r.1 else l.set u.d r.1).or r.2)

/-- One micro-operation on one unmasked element (R152). -/
def elementOp (x : EltCtx) (u : UOp) (st : EltState) (l : Lane) : Except IFault (EltState × Lane) :=
  let a := l.get u.fmt u.sa
  let b := l.get u.fmt u.sb
  let c := l.get u.fmt u.sc
  let pure1 (v : Nat) : Except IFault (EltState × Lane) := .ok (st, l.put u.fmt u.d v)
  let pure32 (v : Nat) : Except IFault (EltState × Lane) := .ok (st, l.set u.d v)
  if u.opc = 0x00 then .ok (st, l)
  else if u.opc = 0x01 then do
    let k := u.imm % 4
    let v ←
      if k = 2 then
        loadElement x.core0 x.rs x.vec u.fmt (if x.colVec then l.r else 0) (if x.colVec then 0 else l.col)
      else loadElement st.core x.rs (x.src k) u.fmt l.r l.col
    .ok (st, (l.put u.fmt u.d v.1).or v.2)
  else if u.opc = 0x02 then do
    let k := u.imm % 2
    let w ← storeElement st.core (x.out k) u.fmt l.r l.col a
    .ok ({ core := w.1, stats := if k = 0 then st.stats ++ [(l.r, l.col, statValue u.fmt a)] else st.stats },
      { l.or w.2.1 with blocks := l.blocks ++ w.2.2 })
  else if u.opc = 0x03 then do
    let i := sext 32 (l.reg u.sa)
    require (decide (0 ≤ i) && decide (i < (x.rows * x.cols : Nat))) ⟨1, 2, l.reg u.sa⟩
    let v ← loadElement st.core x.rs x.in1 0 (i.toNat / x.cols) (i.toNat % x.cols)
    .ok (st, (l.set u.d v.1).or v.2)
  else if u.opc = 0x04 then pure1 a
  else if u.opc = 0x05 then
    pure32 (if u.fmt = 0 then u.imm * 2 ^ 20 else (sext 12 u.imm % 2 ^ 32).toNat)
  else if u.opc = 0x06 then .ok (cvtOp x u st l)
  else if u.opc ≤ 0x0F then
    if u.fmt = 2 then pure32 (intOp u.opc a b c)
    else
      let r := floatOp u.opc u.fmt a b c
      .ok (st, (l.put u.fmt u.d r.1).or r.2)
  else if u.opc ≤ 0x12 then pure1 (b2n (compareOp u.opc u.fmt a b))
  else if u.opc = 0x13 then pure1 (if selTest u.fmt a then b else c)
  else if u.opc = 0x18 then pure32 (a &&& b)
  else if u.opc = 0x19 then pure32 (a ||| b)
  else if u.opc = 0x1A then pure32 (a ^^^ b)
  else if u.opc = 0x1B then pure32 (a * 2 ^ (u.imm % 32))
  else if u.opc = 0x1C then pure32 (a / 2 ^ (u.imm % 32))
  else if u.opc ≤ 0x23 then
    let r := transcendental u.opc (BitVec.ofNat 32 a)
    .ok (st, (l.set u.d r.1).or r.2)
  else if u.opc = 0x24 then pure32 l.r
  else pure32 l.col

/-- One micro-operation on one lane: a masked element only draws for a stochastic conversion (R95, R169). -/
def laneOp (x : EltCtx) (u : UOp) (st : EltState) (l : Lane) : Except IFault (EltState × Lane) :=
  if l.masked then
    if u.opc = 0x06 ∧ bits u.imm 3 2 = 2 then .ok ({ st with core := (st.core.draw x.p l.lane).1 }, l) else .ok (st, l)
  else elementOp x u st l

/-- One micro-operation on every lane of a group (R92). -/
def groupOp (x : EltCtx) (u : UOp) (st : EltState × List Lane) : Except IFault (EltState × List Lane) :=
  foldE (fun (acc : EltState × List Lane) l => (laneOp x u acc.1 l).map fun r => (r.1, acc.2 ++ [r.2])) (st.1, []) st.2

/-- One group of at most 32 elements runs the whole program (R92); stored blocks take the elements' flags (R175). -/
def runGroup (x : EltCtx) (prog : List UOp) (st : EltState × Flags) (lanes : List Lane) :
    Except IFault (EltState × Flags) :=
  (foldE (fun acc u => groupOp x u acc) (st.1, lanes) prog).map fun r =>
    let core := r.2.foldl (fun c l => l.blocks.foldl (fun c b => c.accFlagsOr b l.flags) c) r.1.core
    ({ r.1 with core := core }, st.2 ||| Flags.all (r.2.map (·.flags)))

/-- Cut a list into pieces of at most n, for at most `fuel` pieces. -/
def chunks {α : Type} (n : Nat) : Nat → List α → List (List α)
  | 0, _ => []
  | _, [] => []
  | fuel + 1, xs => xs.take n :: chunks n fuel (xs.drop n)

/-- The checks of the word and ports of an ELT.RUN or ELT.BCAST, and what it names (R80, R129, R130). -/
def eltFoot (bcast : Bool) (ops : BitVec 56) (c : Core) : Except IFault Foot := do
  let o := ops.toNat
  let vecF := bits o 13 10
  require (bits o 8 0 = 0 && (bcast || (vecF = 0 && !bit o 9)) && bits o 52 48 ≠ 0x1F && portField (bits o 52 48) &&
    portField (bits o 47 43) && portField (bits o 42 38) && portField (bits o 37 33) && rscField (bits o 32 28)) (illegal 0)
  let port (f : Nat) := c.port 2 f (bits o 27 22) (bits o 21 19) (bits o 18 16)
  let in0 ← port (bits o 52 48)
  let in1 ← port (bits o 47 43)
  let out0 ← port (bits o 42 38)
  let out1 ← port (bits o 37 33)
  let vec ← if bcast then c.port 2 vecF 0 0 0 else .ok .none
  .ok { descs := in0.desc ++ in1.desc ++ out0.desc ++ out1.desc ++ vec.desc ++ rscDesc (bits o 32 28)
        rd := in0.blocks ++ in1.blocks
        wr := out0.blocks ++ out1.blocks }

/-- The shared meaning of ELT.RUN and ELT.BCAST (R92 to R95, R129, R130). Registers e0 to e7 of each element are zero when its
program begins. DESIGN CHOICE (log 86). -/
def eltBody (bcast : Bool) (p : Nat) (ops : BitVec 56) (c : Core) : Except IFault Effect := do
  let o := ops.toNat
  let vecF := bits o 13 10
  let _ ← eltFoot bcast ops c
  let prog := (Tab.get [] c.slots (bits o 55 53)).map UOp.ofBits
  require (!prog.isEmpty) (illegal 2)
  let port (f : Nat) := c.port 2 f (bits o 27 22) (bits o 21 19) (bits o 18 16)
  let in0 ← port (bits o 52 48)
  let in1 ← port (bits o 47 43)
  let out0 ← port (bits o 42 38)
  let out1 ← port (bits o 37 33)
  let shape := in0.shape.getD (0, 0)
  let same (q : Port') : Bool := q.isNone || q.shape = some shape
  require (same in1 && same out0 && same out1) (illegal 2)
  let rs ← c.rescale 2 (bits o 32 28) (in0.isAcc || in1.isAcc) (8 * (bits o 21 19 + 1)) (4 * (bits o 18 16 + 1))
  let colVec := bit o 9
  let vec ← if bcast then c.port 2 vecF 0 0 0 else .ok .none
  require (!bcast || vec.shape = some (if colVec then (shape.1, 1) else (1, shape.2))) (illegal 2)
  let x : EltCtx :=
    { p := p, core0 := c, in0 := in0, in1 := in1, out0 := out0, out1 := out1,
      rs := rs, vec := vec, colVec := colVec, rows := shape.1, cols := shape.2 }
  require (prog.all fun u => u.ok x) (illegal 2)
  let stat := bit o 14
  require (!stat || statFits shape.1 shape.2) (illegal 2)
  let lm ← c.maskFor 2 (bit o 15) shape.1 shape.2
  let lanes ← foldE
    (fun (acc : List Lane) (rc : Nat × Nat) =>
      (c.masked 2 lm rc.1 rc.2).map fun mk =>
        acc ++ [{ r := rc.1, col := rc.2, lane := (rc.1 * shape.2 + rc.2) % 32, masked := mk,
                  regs := List.replicate 8 0, flags := 0, blocks := [] }])
    [] (coords shape.1 shape.2)
  let r ← foldE (fun acc g => runGroup x prog acc g) ({ core := c, stats := [] }, 0) (chunks 32 lanes.length lanes)
  let c' := if stat then { r.1.core with stats := some (gather shape.1 shape.2 r.1.stats) } else r.1.core
  .ok (c', r.2, out0.desc ++ out1.desc)

/-- The check of the word of an ELT.LOADP, which names no descriptor and no block. -/
def loadpFoot (ops : BitVec 56) (_ : Core) : Except IFault Foot := (require (fld ops 41 20 = 0) (illegal 0)).map fun _ => {}

/-- ELT.LOADP (R131): loads micro-operations into a slot. -/
def loadpBody (ops : BitVec 56) (c : Core) : Except IFault Effect := do
  let o := ops.toNat
  let n := bits o 52 47 + 1
  let a ← c.scratchOp 2 (bits o 46 42) (bits o 19 0) 4 (4 * n)
  let bs ← c.scratchRead 2 a (4 * n)
  let prog := (List.range n).map fun k => BitVec.ofNat 32 (leAt bs (4 * k) 4)
  .ok ({ c with slots := Tab.put [] (bits o 55 53) prog c.slots }, 0, [])

/-- The mask an ELT.MASK sets (R132). -/
def maskOf (ops : BitVec 56) (c : Core) : LaneMask :=
  { bmp := if bit ops.toNat 51 then some (Tab.get 0 c.t (fld ops 55 52)) else none
    ranges := if bit ops.toNat 50 then some (fld ops 47 36, fld ops 35 24, fld ops 23 12, fld ops 11 0) else none }

/-- The checks of an ELT.MASK, and what it names (R132). -/
def maskFoot (ops : BitVec 56) (c : Core) : Except IFault Foot := do
  let t := c.tile (fld ops 55 52)
  require (fld ops 49 48 = 0) (illegal 0)
  require (!bit ops.toNat 51 || (t.valid && t.fmt = fBIT)) (illegal 0)
  .ok { descs := if bit ops.toNat 51 then [fld ops 55 52] else [] }

/-- ELT.MASK (R79, R132): it enters the element queue; the mask applies to every later instruction in program order, of either
engine, each of which takes a copy of it at issue. DEDUCED (log 87). -/
def maskBody (ops : BitVec 56) (c : Core) : Except IFault Core :=
  if !c.queueRoom 1 then .ok c
  else (maskFoot ops c).map fun f => { c.enqueue 1 f with mask := some (maskOf ops c) }

/-- Beats per group of 32 elements of one micro-operation (R92, R152). -/
def UOp.cost (u : UOp) : Nat :=
  if u.fmt = 1 then 2 else if u.opc = 0x20 ∨ u.opc = 0x21 then 3 else if u.opc = 0x22 ∨ u.opc = 0x23 then 4 else 1

/-- Beats of an ELT.RUN or ELT.BCAST: the program's cost for every group of the tile (R92). DESIGN CHOICE (log 44). -/
def eltBeats (ops : BitVec 56) (c : Core) : Nat :=
  let prog := (Tab.get [] c.slots (fld ops 55 53)).map UOp.ofBits
  let n :=
    if fld ops 52 48 = 0x10 then 8 * (fld ops 21 19 + 1) * (4 * (fld ops 18 16 + 1))
    else let t := c.tile (fld ops 52 48); t.rows * t.cols
  ceilDiv n 32 * (prog.map UOp.cost).sum

/-- ELT.RUN (R92). -/
def execEltRun (p : Nat) (ops : BitVec 56) (s : State) : Out :=
  .next (issueEngine s p 2 0 ops 1 (eltFoot false ops))
/-- ELT.BCAST (R94). -/
def execEltBcast (p : Nat) (ops : BitVec 56) (s : State) : Out :=
  .next (issueEngine s p 2 1 ops 1 (eltFoot true ops))
/-- ELT.LOADP (R131). -/
def execEltLoadp (p : Nat) (ops : BitVec 56) (s : State) : Out := .next (issueEngine s p 2 2 ops 1 (loadpFoot ops))
/-- ELT.MASK (R132). -/
def execEltMask (p : Nat) (ops : BitVec 56) (s : State) : Out := .next (issueCore s p 2 3 ops (maskBody ops))

end Sys2Proof.Machine
end

