-- ==== Sys2Proof/Machine/Matrix.lean ====
section
/-! DEFINITION. The matrix class (R81 to R90, R126, R127, R157 to R161, R175). -/

namespace Sys2Proof.Machine

/-- Formats each mode accepts (R81). -/
def narrowFmt (f : Nat) : Bool := (decide (3 ≤ f) && decide (f ≤ 7)) || f = 9
def wideFmt (f : Nat) : Bool := f = 1 || f = 2 || f = 8

/-- One expanded row of K codes (R85, R157). -/
def expandRow (c : Core) (mb : Nat) (t : Tile) (r : Nat) : Except IFault (List Num × Flags) :=
  foldE
    (fun (acc : List Num × Flags) k => do
      let code ← c.getCode 1 t r k
      let b ← c.getExp 1 t r k
      let x := expand mb (decodeNum t.fmt code) b
      .ok (acc.1 ++ [x.1], acc.2 ||| x.2))
    ([], 0) (List.range t.cols)

/-- Several expanded rows. -/
def expandRows (c : Core) (mb : Nat) (t : Tile) (r0 n : Nat) : Except IFault (List (List Num × Flags)) :=
  foldE (fun acc k => (expandRow c mb t (r0 + k)).map fun x => acc ++ [x]) [] (List.range n)

/-- One output over all dot groups of depth g (R86, R87). -/
def dotOutput (g : Nat) (a b : List Num) (acc : BitVec 40) : BitVec 40 × Flags :=
  let ps := List.zipWith Num.mul a b
  (List.range (ceilDiv ps.length g)).foldl
    (fun (st : BitVec 40 × Flags) j =>
      let s := groupSum ((ps.drop (j * g)).take g)
      let r := accumulate st.1 s.1
      (r.1, st.2 ||| r.2 ||| Flags.when s.2 Flags.shed))
    (acc, 0)

/-- One 8-by-4 block of output: values and flags of the block (R88, R175). -/
def matrixBlock (c : Core) (g b0 n rg cb : Nat) (add : Bool) (a bs : List (List Num × Flags)) : Core :=
  let blk := b0 + rg * (n / 4) + cb
  let c0 := if add then c else { c with accFlags := Tab.put 0 blk 0 c.accFlags }
  (List.range 32).foldl
    (fun (c : Core) k =>
      let r := k / 4
      let col := k % 4
      let ar := a.getD r ([], 0)
      let br := bs.getD (4 * cb + col) ([], 0)
      let idx := blk * 32 + k
      let o := dotOutput g ar.1 br.1 (if add then c.accAt idx else 0)
      (c.accPut idx o.1).accFlagsOr blk (o.2 ||| ar.2 ||| br.2))
    c0

/-- Whether a row group's elements of the M by N tile are all masked (R90, R132). -/
def groupMasked (c : Core) (m : Option LaneMask) (n rg : Nat) : Except IFault Bool :=
  match m with
  | none => .ok false
  | some m =>
    foldE (fun acc k => if acc then (c.masked 1 (some m) (8 * rg + k / n) (k % n)) else .ok false) true
      (List.range (8 * n))

/-- Bytes a tile reaches past its base: the last byte of its last row, plus one (R90). -/
def Tile.span (t : Tile) : Nat := (t.rows - 1) * t.rowStride + rowBytes t.fmt t.cols

/-- The checks of the word and descriptors of a matrix instruction, and what it names (R80, R82, R88, R126). -/
def matrixFoot (narrow seg : Bool) (ops : BitVec 56) (c : Core) : Except IFault Foot := do
  let ta := fld ops 55 52
  let tb := fld ops 51 48
  let accb := fld ops 47 42
  require (fld ops 39 0 = 0 && (seg || !bit ops.toNat 40)) (illegal 0)
  let a := c.tile ta
  let b := c.tile tb
  require (a.valid && b.valid) (illegal 1)
  let okFmt := if narrow then narrowFmt else wideFmt
  require (okFmt a.fmt && okFmt b.fmt) (illegal 1)
  require (a.rows % 8 = 0 && a.rows ≤ 64 && b.rows % 4 = 0 && b.rows ≤ 32 && a.cols = b.cols && a.cols % 16 = 0)
    (illegal 1)
  require (accb + a.rows / 8 * (b.rows / 4) ≤ 64) (illegal 1)
  let blks := accBlocks accb a.rows b.rows
  .ok { descs := [ta, tb], rd := if bit ops.toNat 41 then blks else [], wr := blks }

/-- The shared meaning of the four matrix operations (R126, R127): `narrow` chooses the mode, `seg` segmented B. A row group whose
elements are all masked leaves its blocks and their flags as they are, without ACC too. DESIGN CHOICE (log 85). -/
def matrixBody (narrow seg : Bool) (ops : BitVec 56) (c : Core) : Except IFault Effect := do
  let _ ← matrixFoot narrow seg ops c
  let accb := fld ops 47 42
  let add := bit ops.toNat 41
  let a := c.tile (fld ops 55 52)
  let b := c.tile (fld ops 51 48)
  let m := a.rows
  let n := b.rows
  let lm ← c.maskFor 1 (bit ops.toNat 40) m n
  let mb := if narrow then 3 else 10
  let g := if narrow then 64 else 32
  let shared ← if seg then .ok [] else expandRows c mb b 0 n
  let r ← foldE
    (fun (st : Core × Flags) rg => do
      let skip ← groupMasked c lm n rg
      if skip then .ok st
      else
        let ar ← expandRows c mb a (8 * rg) 8
        let br ←
          if seg then do
            let v := bits c.v0.toNat (16 * rg + 15) (16 * rg)
            let t := { b with base := b.base + v * b.segStride }
            require (t.base + t.span ≤ 0x100000) ⟨1, 1, t.base⟩
            expandRows c mb t 0 n
          else .ok shared
        let c' := (List.range (n / 4)).foldl (fun c cb => matrixBlock c g accb n rg cb add ar br) st.1
        let blks := (List.range (n / 4)).map fun cb => accb + rg * (n / 4) + cb
        .ok (c', st.2 ||| Flags.all (blks.map c'.accFlagsAt)))
    (c, 0) (List.range (m / 8))
  .ok (r.1, r.2, [])

/-- Busy beats of a matrix instruction, counted under R429. DESIGN CHOICE (log 44). -/
def matrixBeats (narrow seg : Bool) (ops : BitVec 56) (c : Core) : Nat :=
  let a := c.tile (fld ops 55 52)
  let b := c.tile (fld ops 51 48)
  a.rows / 8 * (b.rows / 4) * ceilDiv a.cols (if narrow then 64 else 32) * (if seg then 2 else 1)

/-- Busy beats are counted for the engine and the field. -/
def State.countBusy (s : State) (p n : Nat) : State :=
  ((s.count (posUnit p 1) 0x00 n).count (regionUnit (p / 11) 0x1FF) 0x00 n).updRegion (p / 11)
    fun r => { r with busyBeats := r.busyBeats + n }

/-- Issue of a matrix instruction. -/
def doMatrix (narrow seg : Bool) (op p : Nat) (ops : BitVec 56) (s : State) : State :=
  issueEngine s p 1 op ops 0 (matrixFoot narrow seg ops)

/-- MMA.N: narrow mode (R126). -/
def execMmaN (p : Nat) (ops : BitVec 56) (s : State) : Out := .next (doMatrix true false 0 p ops s)
/-- MMA.W: wide mode (R126). -/
def execMmaW (p : Nat) (ops : BitVec 56) (s : State) : Out := .next (doMatrix false false 1 p ops s)
/-- MMA.SEG.N: narrow, segmented (R90). -/
def execMmaSegN (p : Nat) (ops : BitVec 56) (s : State) : Out := .next (doMatrix true true 2 p ops s)
/-- MMA.SEG.W: wide, segmented (R90). -/
def execMmaSegW (p : Nat) (ops : BitVec 56) (s : State) : Out := .next (doMatrix false true 3 p ops s)

end Sys2Proof.Machine
end

