-- ==== Sys2Proof/Machine/LinkOps.lean ====
section
/-! DEFINITION. The sending side of a tiller link: messages, their sealing, and the flits that carry them (R276 to R280, R285,
R286, R288). -/

namespace Sys2Proof.Machine

/-- Whether an instance may send on a link now: the link is up and the instance has a session on it (R286, R288). -/
def State.linkReady (s : State) (n i : Nat) : Bool :=
  let l := s.link n
  l.state = .up && l.sessions.any fun x => x.inst = i && x.live

/-- The plaintext of a message from offset 0x04 (R279). -/
def linkPlain (kind status tag addr arg : Nat) (payload : List Byte) : List Byte :=
  [BitVec.ofNat 8 kind, BitVec.ofNat 8 status, 0, 0] ++ leBytes 4 tag ++ leBytes 8 addr ++ leBytes 4 arg ++
  leBytes 8 0 ++ payload

/-- What a link holds of one time of being up is gone: it begins afresh (R288, R290). -/
def Link.clear (l : Link) : Link :=
  { l with
    electrical := false, capOk := false, spread := false, sessions := [], ephs := [], rxSeq := 0xFFFF, txSeq := 0, gap := false
    ackOwed := false, replay := [], rxTail := [], bufs := [], owed := [], credits := [], out := [], tx := [], inStream := []
    instStream := [] }

/-! ### Flits (R276, R277) -/

/-- A flit: header, body and CRC-64 (R276). -/
def flitBytes (vc kind first seq ack creditVc credits : Nat) (body : List Byte) : List Byte :=
  let b := leBytes 1 (vc + 4 * kind) ++ leBytes 1 first ++ leBytes 2 seq ++ leBytes 2 ack ++
    leBytes 1 (creditVc + 4 * credits) ++ leBytes 1 0 ++ padTo 240 body
  b ++ leBytes 8 (crc64 b)

/-- The VC whose receive buffers the next flit returns; 3 for none. -/
def Link.creditVc (l : Link) : Nat := ((List.range 3).find? fun vc => Tab.get 0 l.owed vc ≠ 0).getD 3

/-- The next flit, with the acknowledgement and the credits that it carries. -/
def Link.flit (l : Link) (vc kind first seq : Nat) (body : List Byte) : List Byte :=
  flitBytes vc kind first seq l.rxSeq l.creditVc (min 63 (Tab.get 0 l.owed l.creditVc)) body

/-- A flit leaves: what it acknowledges and returns is no longer owed. -/
def Link.emit (l : Link) (f : List Byte) : Link :=
  { l with
    flits := l.flits ++ [f]
    ackOwed := false
    owed := if l.creditVc = 3 then l.owed else Tab.upd 0 l.creditVc (fun k => k - min 63 k) l.owed }

/-- Where, past offset `r`, the first message begins that does not begin within the next 240 of the waiting bytes (R276, R279). -/
def nextStart : Nat → Nat → List Byte → Nat
  | 0, r, _ => r
  | fuel + 1, r, b => if 240 ≤ r ∨ b.length ≤ r then r else nextStart fuel (r + 4 + leAt b r 2 + 16) b

/-- A DATA flit with the next bytes of a VC leaves: it takes one credit and enters the replay buffer (R276 to R278). -/
def Link.sendData (l : Link) (vc : Nat) : Link :=
  let x := Tab.get (0, []) l.tx vc
  let f := l.flit vc 0 (if x.1 < 240 ∧ x.1 < x.2.length then x.1 else 0xFF) l.txSeq (x.2.take 240)
  let rest := if x.2.length ≤ 240 then (0, []) else (nextStart 6 x.1 x.2 - 240, x.2.drop 240)
  { l.emit f with
    tx := Tab.put (0, []) vc rest l.tx
    credits := Tab.upd 0 vc (· - 1) l.credits
    txSeq := (l.txSeq + 1) % 65536
    replay := l.replay ++ [⟨l.txSeq, f, 0⟩] }

/-- An IDLE or REPLAY flit leaves (R276, R277). -/
def Link.sendControl (l : Link) (kind : Nat) : Link := l.emit (l.flit 3 kind 0xFF 0 [])

/-- IDLE flits leave until nothing is owed. -/
def Link.settle : Nat → Link → Link
  | 0, l => l
  | fuel + 1, l => if l.ackOwed || l.creditVc ≠ 3 then (l.sendControl 1).settle fuel else l

/-! ### Messages (R278, R279, R286) -/

/-- Buffers of the RESPONSE VC that the response to a request may take: its frame word, plaintext and tag in bodies of 240 bytes, and
one more when it begins inside one. DESIGN CHOICE (log 96). -/
def LinkReq.room (q : LinkReq) : Nat := ceilDiv (4 + 28 + (if q.kind = 2 then q.len else 0) + 16) 240 + 1

/-- Whether room for the response to a request can be reserved now (R278). -/
def Link.mayAdmit (l : Link) (m : OutMsg) : Bool :=
  match m.tag.bind fun t => l.reqs.find? fun q => q.tag = t with
  | none => true
  | some q =>
    let taken := ((l.reqs.filter fun r => r.sentAt.isSome).map LinkReq.room).sum
    if taken = 0 then true else decide (taken + q.room ≤ Config.linkBuffers 1)

/-- The bytes of a message on the wire: in clear with a tag of zero, or sealed under the session of its instance, whose counter
advances; none when that session is not in service (R279, R286, R288). -/
def Link.sealMsg (l : Link) (m : OutMsg) : List Byte × Link :=
  let frame := leBytes 2 m.plain.length ++ leBytes 1 m.inst ++ leBytes 1 0
  if m.clear then (frame ++ m.plain ++ leBytes 16 0, l)
  else
    match l.sessions.find? fun x => x.inst = m.inst && x.live with
    | none => ([], l)
    | some x =>
      let nonce := slice x.txKey 32 4 ++ leBytes 1 m.vc ++ leBytes 7 (Tab.get 0 x.tx m.vc)
      (frame ++ padTo (m.plain.length + 16) (Config.gcmSeal (x.txKey.take 32) nonce frame m.plain),
       { l with sessions := mapIf (fun y => y.inst = m.inst) (fun y => { y with tx := Tab.upd 0 m.vc (· + 1) y.tx }) l.sessions })

/-- A message goes behind the sealed bytes of its VC; a request is sent from now on (R285). -/
def Link.takeMsg (l : Link) (now : Nat) (m : OutMsg) : Link :=
  let r := l.sealMsg m
  { r.2 with
    out := l.out.erase m
    tx := Tab.upd (0, []) m.vc (fun x => (x.1, x.2 ++ r.1)) l.tx
    reqs := mapIf (fun q => m.tag = some q.tag) (fun q => { q with sentAt := some now }) l.reqs }

/-- The next thing the sender does on a VC: nothing without a credit or room in the replay buffer of 512 flits (R277, R278). -/
def Link.sendOn (l : Link) (now vc : Nat) : Option Link :=
  let bytes := (Tab.get (0, []) l.tx vc).2
  let more := if bytes.length < 240 then l.out.find? fun m => m.vc = vc else none
  if Tab.get 0 l.credits vc = 0 ∨ 512 ≤ l.replay.length then none
  else
    match more.filter l.mayAdmit with
    | some m => some (l.takeMsg now m)
    | none => if bytes.isEmpty then none else some (l.sendData vc)

/-- Everything that may leave leaves: the RESPONSE VC before REQUEST and STREAM, then what is owed. DESIGN CHOICE (log 96). -/
def Link.pump (now : Nat) : Nat → Link → Link
  | 0, l => l
  | fuel + 1, l =>
    match [1, 0, 2].findSome? (l.sendOn now) with
    | some l' => l'.pump now fuel
    | none => l.settle 64

/-- The sender of a link runs while its lanes are trained and its region is not stopped; what it sends is counted, but for
confidential instances (R34, R288, R398, R429). -/
def State.linkPump (s : State) (n : Nat) : State :=
  let l := s.link n
  if l.electrical && s.working && !s.held (90 + n) then
    let l' := l.pump s.tb.count 4096
    let sizes (l : Link) := (l.out.filter fun m => !s.confid m.inst).map fun m => m.plain.length
    ((s.updLink n fun _ => l').count (linkUnit n) 0x0A ((sizes l).length - (sizes l').length)).count (linkUnit n) 0x05
      ((sizes l).sum - (sizes l').sum)
  else s

/-- Hand a message to the sender. Without a session in service there is none to hand over (R288). -/
def State.linkPut (s : State) (n : Nat) (m : OutMsg) : State :=
  if !(if m.clear then (s.link n).electrical else s.linkReady n m.inst) then s
  else (s.updLink n fun l => { l with out := l.out ++ [m] }).linkPump n

/-- Hand over a message that is no request. -/
def State.linkSend (s : State) (n vc i : Nat) (plain : List Byte) : State :=
  s.linkPut n { vc := vc, inst := i, plain := plain, clear := false, tag := none }

/-- Hand over a request and remember it until its response (R279, R285); `len` is the length of a READ. -/
def State.linkRequest (s : State) (n i kind addr arg : Nat) (payload : List Byte) (origin : Origin) (seq : Nat) : State :=
  let tag := (s.link n).nextTag
  let q : LinkReq := { tag := tag, kind := kind, inst := i, origin := origin, n := seq, addr := addr, len := arg,
                       sentAt := if s.linkReady n i then none else some s.tb.count }
  (s.updLink n fun l => { l with nextTag := (l.nextTag + 1) % 2 ^ 32, reqs := l.reqs ++ [q] }).linkPut n
    { vc := 0, inst := i, plain := linkPlain kind 0 tag addr arg payload, clear := false, tag := some tag }

/-- Send a response (R280, R282). -/
def State.linkResponse (s : State) (n i kind status tag : Nat) (payload : List Byte) : State :=
  s.linkSend n 1 i (linkPlain (kind + 8) status tag 0 0 payload)

/-- Send a CONTROL message (R280, R291): CAPABILITY and SESSION in clear, the others in the module session (R288). -/
def State.linkControl (s : State) (n sub : Nat) (payload : List Byte) : State :=
  s.linkPut n { vc := 0, inst := 0xFF, plain := linkPlain 6 0 0 0 sub payload, clear := decide (sub ≤ 2), tag := none }

end Sys2Proof.Machine
end

