-- ==== Sys2Proof/Machine/Copy.lean ====
section
/-! DEFINITION. The copy class and the copy engines (R99 to R106, R137, R138, R281, R296). -/

namespace Sys2Proof.Machine

def Core.ce (c : Core) (e : Nat) : CopyEng := if e = 0 then c.ce0 else c.ce1
def Core.setCe (c : Core) (e : Nat) (x : CopyEng) : Core := if e = 0 then { c with ce0 := x } else { c with ce1 := x }
def CopyEng.find (x : CopyEng) (d : Nat) : Option ActDesc := x.act.find? fun a => a.id = d
def CopyEng.put (x : CopyEng) (a : ActDesc) : CopyEng := { x with act := mapIf (fun b => b.id = a.id) (fun _ => a) x.act }
def CopyEng.outstanding (x : CopyEng) : Nat := (x.act.map (·.outstanding)).sum
def State.putDesc (s : State) (p e : Nat) (a : ActDesc) : State :=
  s.updCore p fun c => c.setCe e ((c.ce e).put a)

/-! ### CPY (R137) -/

/-- The shared meaning of the four CPY operations: the descriptor enters the engine's queue (R79, R104, R137). -/
def cpyBody (op : Nat) (ops : BitVec 56) (c : Core) : Except IFault Core := do
  let o := ops.toNat
  let e := bits o 55 55
  require (bits o 37 20 = 0) (illegal 0)
  let a ← c.scratchOp (4 + e) (bits o 54 50) (bits o 19 0) 64 64
  let x := c.ce e
  if x.queue.length ≥ 8 then .ok c
  else
    let ids (eng : Nat) := (c.inflight.filter fun f => f.eng = eng).map (·.id)
    let waits := (if bit o 39 then ids 1 else []) ++ (if bit o 38 then ids 0 else [])
    let q : CpyEntry :=
      { id := c.nextId, idx := c.pi, op := op, scratch := a, srcAdd := c.areg (bits o 49 45),
        dstAdd := c.areg (bits o 44 40), waits := waits, desc := none }
    .ok { (c.advance.setCe e { x with queue := x.queue ++ [q] }) with nextId := c.nextId + 1 }

/-! ### Descriptors (R100 to R103) -/

/-- FLAGS of a descriptor (R100). -/
def Desc.dim (d : Desc) : Nat := bits d.flags 1 0
def Desc.transpose (d : Desc) : Bool := bit d.flags 2
def Desc.elem (d : Desc) : Nat := 2 ^ bits d.flags 4 3
def Desc.expand (d : Desc) : Bool := bit d.flags 5
def Desc.acc (d : Desc) : Bool := bit d.flags 6
def Desc.afterPrior (d : Desc) : Bool := bit d.flags 7

/-- The packed formats whose rows can have a length (R181). DESIGN CHOICE (log 17). -/
def packedFits (x : Nat) : List Nat := (List.range 11).filter fun f => isPacked f && x % (blockBytes f + 1) = 0

/-- A descriptor read from its 64 bytes, with SREG and TREG added (R100, R138). DESIGN CHOICE (log 17).
DEDUCED (log 48). -/
def Desc.ofBytes (bs : List Byte) (sa da : Word) : Desc :=
  let x := leAt bs 0x10 4
  let fits := packedFits x
  { src := BitVec.ofNat 64 (leAt bs 0 8) + sa, dst := BitVec.ofNat 64 (leAt bs 8 8) + da, xLen := x,
    yCount := leAt bs 0x14 2, zCount := leAt bs 0x16 2, srcY := sext 32 (leAt bs 0x18 4), srcZ := sext 32 (leAt bs 0x1C 4),
    dstY := sext 32 (leAt bs 0x20 4), dstZ := sext 32 (leAt bs 0x24 4), sem := leAt bs 0x28 2, semAdd := leAt bs 0x2A 2,
    flags := leAt bs 0x2C 2, reserved := !allZero (bs.drop 0x2E),
    fmt := fits.getD (Config.expandFmt bs % fits.length) 0 }

/-- The space code of the destination, and for a link its remote space code (R35). -/
def Desc.dstSpace (d : Desc) : Nat := bits d.dst.toNat 63 60
def Desc.remoteSpace (d : Desc) : Nat := bits d.dst.toNat 56 53

/-- A remote signal: a 1-D copy to a link destination with remote space code 0x4 (R296). -/
def Desc.remoteSignal (d : Desc) : Bool := d.dim = 0 && d.dstSpace = 6 && d.remoteSpace = 4

/-- Whether the destination names the engine's own scratchpad (R101). -/
def State.ownScratch (s : State) (p : Nat) (d : Desc) : Bool :=
  match s.place d.dst.toNat with
  | .scratch q _ => q = p
  | _ => false

/-- Whether a descriptor agrees with its CPY operation (R137). DEDUCED (log 48). -/
def Desc.agrees (d : Desc) (op : Nat) : Bool :=
  if op = 3 then d.transpose && (d.dim = 1 || d.dim = 2) else d.dim = op && !d.transpose

/-- The checks of R103 and R296. EXPAND without TRANSPOSE, or with elements of other than two bytes, is used outside R101 and faults.
DEDUCED (log 48). DESIGN CHOICE (log 90). -/
def State.descOk (s : State) (p : Nat) (d : Desc) : Bool :=
  !d.reserved && bits d.flags 15 8 = 0 && d.dim ≠ 3 && bits d.flags 4 3 ≠ 3 &&
  decide (1 ≤ d.xLen) && decide (d.xLen ≤ 0x1000000) && decide (1 ≤ d.yCount) && decide (1 ≤ d.zCount) &&
  (d.dim ≠ 0 || d.yCount = 1) && (d.dim = 2 || d.zCount = 1) &&
  (!d.transpose || (d.expand || d.xLen % d.elem = 0) && s.ownScratch p d) &&
  (!d.expand || (d.transpose && bits d.flags 4 3 = 1 && s.ownScratch p d && !(packedFits d.xLen).isEmpty)) &&
  (!d.acc || ((d.dstSpace = 1 || d.dstSpace = 2 || (d.dstSpace = 6 && (d.remoteSpace = 1 || d.remoteSpace = 2))) &&
    d.xLen % 2 = 0)) &&
  (!d.remoteSignal || (d.xLen = 4 && d.flags % 2 ^ 7 = 0))

/-- Source and destination of byte x of row y of plane z (R101, R102). -/
def Desc.srcAt (d : Desc) (z y x : Nat) : Word :=
  d.src + BitVec.ofInt 64 ((z : Int) * d.srcZ + (y : Int) * d.srcY + x)
def Desc.dstAt (d : Desc) (z y x : Nat) : Word :=
  if d.transpose then
    d.dst + BitVec.ofInt 64 ((z : Int) * d.dstZ + ((x / d.elem : Nat) : Int) * d.dstY + (y : Int) * d.elem)
  else d.dst + BitVec.ofInt 64 ((z : Int) * d.dstZ + (y : Int) * d.dstY + (if d.acc then 2 * x else x))

/-- Bytes of the piece that starts at byte x of a row: to the next boundary of its source, 4 KiB on a link (R281) and 64 bytes
elsewhere. -/
def Desc.pieceLen (d : Desc) (z y x : Nat) : Nat :=
  let lim := if bits d.src.toNat 63 60 = 6 then 4096 else 64
  min (d.xLen - x) (lim - (d.srcAt z y x).toNat % lim)

/-- How far a row's destination lies from DST (R101). -/
def Desc.rowAt (d : Desc) (z y : Nat) : Int := (z : Int) * d.dstZ + (y : Int) * d.dstY

/-- Whether planes and rows in order are rows in the order of their destination addresses. -/
def Desc.rising (d : Desc) : Bool :=
  d.transpose || ((d.yCount = 1 || decide (0 ≤ d.dstY)) && (d.zCount = 1 || decide ((d.yCount - 1 : Nat) * d.dstY ≤ d.dstZ)))

/-- Whether row a leaves before row b: a lower destination address, or the same and earlier in planes and rows. -/
def Desc.before (d : Desc) (a b : Nat × Nat) : Bool :=
  let x := d.rowAt a.1 a.2
  let y := d.rowAt b.1 b.2
  decide (x < y) || (decide (x = y) && (decide (a.1 < b.1) || (a.1 = b.1 && decide (a.2 < b.2))))

/-- Of the rows that meet a test, the one that leaves first. -/
def Desc.least (d : Desc) (test : Nat × Nat → Bool) : Option (Nat × Nat) :=
  (List.range (d.zCount * d.yCount)).foldl
    (fun m k =>
      let r := (k / d.yCount, k % d.yCount)
      if test r && m.all (d.before r) then some r else m) none

/-- The row that leaves first, and the row after one, in the order of destination addresses (R104). -/
def Desc.firstRow (d : Desc) : Nat × Nat := if d.rising then (0, 0) else (d.least fun _ => true).getD (0, 0)
def Desc.nextRow (d : Desc) (z y : Nat) : Option (Nat × Nat) :=
  if d.rising then if y + 1 < d.yCount then some (z, y + 1) else if z + 1 < d.zCount then some (z + 1, 0) else none
  else d.least (d.before (z, y))

/-- The place in a copy after a piece (R104). -/
def Desc.after (d : Desc) (z y x : Nat) : Option (Nat × Nat × Nat) :=
  if x < d.xLen then some (z, y, x) else (d.nextRow z y).map fun r => (r.1, r.2, 0)

/-! ### Moving data -/

/-- Cut data into the writes that go to a destination block by block; `lim` is the block, `acc` doubles the distance.
DEDUCED (log 47). -/
def cutWrites (lim : Nat) (acc : Bool) : Nat → Word → List Byte → List CopyWrite
  | 0, _, _ => []
  | _, _, [] => []
  | fuel + 1, dst, bs =>
    let room := lim - dst.toNat % lim
    let n := if acc then max 2 (room / 4 * 2) else room
    ⟨dst, bs.take n⟩ :: cutWrites lim acc fuel (dst + BitVec.ofNat 64 (if acc then 2 * (min n bs.length) else n)) (bs.drop n)

/-- The block of a destination: 4 KiB messages on a link (R281), 64 bytes elsewhere. -/
def Desc.dstLim (d : Desc) : Nat := if d.dstSpace = 6 then 4096 else 64

/-- Codes of a packed row expanded to BF16 (R101, R181), with the flags. -/
def expandCodes (f : Nat) (bs : List Byte) : List (List Byte) × Flags :=
  let nb := bs.length / (blockBytes f + 1)
  let t : Tile := { base := 0, fmt := f, rows := 1, cols := nb * 64, byRow := false, rowStride := 0, segStride := 0,
                    scale := 0, reserved := 0 }
  let r := (List.range (nb * 64)).map fun c =>
    let l := t.loc 0 c
    let code := (leAt bs l.1 (ceilDiv (l.2.1 + l.2.2) 8) >>> l.2.1) % 2 ^ l.2.2
    let b := leAt bs (t.expLoc 0 (c / 64)) 1
    convertNum fBF16 .rne true ((decodeNum f code).scale ((b : Int) - 127))
  (r.map fun x => leBytes 2 x.1, Flags.all (r.map (·.2)))

/-- A write takes its place among waiting ones in the order of addresses, after those of its own address (R104). -/
def sortWrite (w : CopyWrite) : List CopyWrite → List CopyWrite
  | [] => [w]
  | v :: vs => if w.dst.toNat < v.dst.toNat then w :: v :: vs else v :: sortWrite w vs

/-- The writes of a transposed row of elements (R101). -/
def Desc.scatter (d : Desc) (z y n : Nat) (es : List (List Byte)) : List CopyWrite :=
  es.zipIdx.map fun e => ⟨d.dstAt z y (n * e.2), e.1⟩

/-- A source row cut into elements. -/
def cutElems (n : Nat) (row : List Byte) : List (List Byte) := (List.range (row.length / n)).map fun k => slice row (k * n) n

/-- The writes that data make which may not leave yet: where the next data continue them (R281), or end inside an operand. -/
def Desc.keeps (d : Desc) (a : ActDesc) (n : Nat) (endDst : Word) : Bool :=
  let next : Option Word :=
    match a.reads with
    | r :: _ => some (d.dstAt r.plane r.row r.x)
    | [] => a.cur.map fun k => d.dstAt k.1 k.2.1 k.2.2
  (next = some endDst && d.dstSpace = 6 && endDst.toNat % 4096 ≠ 0) || (d.acc && n % 2 = 1)

/-- Data of a piece turned into waiting writes (R101, R102, R281, R296). Transposed rows are sorted among the waiting writes. -/
def Desc.deliver (d : Desc) (a : ActDesc) (pc : Piece) (data : List Byte) : Except IFault (ActDesc × Flags) :=
  let all := a.buf ++ data
  let rowDone := decide (d.xLen ≤ pc.x + pc.len)
  if d.remoteSignal then
    if !rowDone then .ok ({ a with buf := all }, 0)
    else if leAt all 3 1 ≠ 0 then .error ⟨3, 0, a.scratch⟩
    else .ok ({ a with buf := [], outq := a.outq ++ [⟨d.dst, all⟩] }, 0)
  else if d.transpose then
    if !rowDone then .ok ({ a with buf := all }, 0)
    else
      let r : List (List Byte) × Flags := if d.expand then expandCodes d.fmt all else (cutElems d.elem all, 0)
      .ok ({ a with buf := [], outq := (d.scatter pc.plane pc.row d.elem r.1).foldl (fun q w => sortWrite w q) a.outq }, r.2)
  else
    let start := if a.buf.isEmpty then d.dstAt pc.plane pc.row pc.x else a.bufDst
    let ws := cutWrites d.dstLim d.acc (all.length + 1) start all
    if d.keeps a all.length (start + BitVec.ofNat 64 (if d.acc then 2 * all.length else all.length)) then
      let last := ws.getLast?.getD ⟨start, []⟩
      .ok ({ a with buf := last.data, bufDst := last.dst, outq := a.outq ++ ws.dropLast }, 0)
    else .ok ({ a with buf := [], outq := a.outq ++ ws }, 0)

/-- 64-byte writes that one message or piece counts for (R99). -/
def writesOf (n : Nat) : Nat := max 1 (ceilDiv n 64)

/-- The region that a transfer handed over at once leaves the device's mesh at: a tiller link's or a host port's. -/
def State.exitRegion (s : State) (i : Nat) (a : Word) : Option Nat :=
  match s.place a.toNat with
  | .link k _ => some (90 + k)
  | .host _ => some (88 + s.instPort i)
  | _ => none

/-- Whether a stopped region holds back a transfer of a copy engine to a tiller link or a host port (R34). -/
def State.exitHeld (s : State) (p i : Nat) (a : Word) : Bool := (s.exitRegion i a).any (s.wayHeld (p / 11))

/-- One write leaves its engine, its address checked first (R36, R99, R281, R357). A write to the host is outstanding until a flush
returns. -/
def State.emitWrite (s : State) (p e : Nat) (a : ActDesc) (w : CopyWrite) : Except IFault State :=
  let c := s.core p
  let d := a.desc
  let unit := 4 + e
  let from' := posUnit p unit
  let n := w.data.length
  let use := if d.acc then Use.acc else Use.write
  let dest := w.dst.toNat
  let span := if d.acc then 2 * n else n
  let tok (dst : Nat) : Token :=
    { id := 0, kind := if d.acc then .accumulate else .write, origin := .ce p e a.id, inst := c.inst,
      srcUnit := from', dstUnit := dst, addr := w.dst, n := n, data := w.data }
  let go (k : Nat) (s : State) : State :=
    (s.count from' 0x02 n).putDesc p e { a with outq := a.outq.drop 1, outstanding := a.outstanding + k }
  if d.remoteSignal ∨ s.addrOk c.inst (p / 11) use dest span then
    match s.place dest with
    | .pan q _ => .ok ((go 1 s).send (tok (posUnit q 7)))
    | .gran off => .ok ((go 1 s).send (tok (granUnit (granCtlOf (s.granBase c.inst + off)))))
    | .scratch q _ => .ok ((go 1 s).send (tok (posUnit q 6)))
    | .link k rest =>
      if (s.linkRec? k).any (fun r => bit r.insts c.inst) = false ∨ (d.remoteSignal ∧ rest % 2 ^ 60 / 2 ^ 16 ≠ 0) then
        .error ⟨1, unit, dest⟩
      else if s.linkReady k c.inst = false then .error ⟨6, unit, dest⟩
      else
        let m := writesOf n
        let s := s.crossed (p / 11) (90 + k) c.inst
        if d.remoteSignal then
          .ok ((go m s).linkRequest k c.inst 4 (4 * 2 ^ 60 + rest % 2 ^ 16) (leAt w.data 0 3) [] (.ce p e a.id) m)
        else .ok ((go m s).linkRequest k c.inst (if d.acc then 3 else 1) rest 0 w.data (.ce p e a.id) m)
    | .host x =>
      let port := s.instPort c.inst
      .ok ((go 1 (s.crossed (p / 11) (88 + port) c.inst)).hostWrite port (some c.inst) x w.data true)
    | _ => .error ⟨1, unit, dest⟩
  else .error ⟨1, unit, dest⟩

/-- One piece is asked for from its source, its address checked first (R36, R42, R281). -/
def State.askRead (s : State) (p e : Nat) (a : ActDesc) (k : Nat × Nat × Nat) : Except IFault State :=
  let c := s.core p
  let d := a.desc
  let unit := 4 + e
  let n := d.pieceLen k.1 k.2.1 k.2.2
  let w := d.srcAt k.1 k.2.1 k.2.2
  let pc : Piece := { seq := a.nextSeq, src := w, len := n, plane := k.1, row := k.2.1, x := k.2.2 }
  let a' := { a with cur := d.after k.1 k.2.1 (k.2.2 + n), nextSeq := a.nextSeq + 1, reads := a.reads ++ [pc] }
  let tok (dst : Nat) : Token :=
    { id := 0, kind := .readReq, origin := .ce p e a.id, inst := c.inst, srcUnit := posUnit p unit, dstUnit := dst,
      addr := w, n := n, seq := pc.seq }
  if s.addrOk c.inst (p / 11) .read w.toNat n then
    match s.place w.toNat with
    | .pan q _ => .ok ((s.putDesc p e a').send (tok (posUnit q 7)))
    | .gran off => .ok ((s.putDesc p e a').send (tok (granUnit (granCtlOf (s.granBase c.inst + off)))))
    | .scratch _ _ => .ok (s.putDesc p e a')
    | .link l rest =>
      if s.linkReady l c.inst = false then .error ⟨6, unit, w.toNat⟩
      else
        .ok (((s.crossed (p / 11) (90 + l) c.inst).putDesc p e a').linkRequest l c.inst 2 rest n [] (.ce p e a.id) pc.seq)
    | .host x =>
      let port := s.instPort c.inst
      .ok (((s.crossed (p / 11) (88 + port) c.inst).putDesc p e a').hostAsk port (some c.inst) x n
        (.copy p e a.id pc.seq))
    | _ => .error ⟨1, unit, w.toNat⟩
  else .error ⟨1, unit, w.toNat⟩

/-- Whether the next write of a descriptor may leave: its engine has room for it among 256 (R99), no stopped region holds it back
(R34), and a transposing descriptor has read all it will write, so that its writes leave in order of address (R104).
DESIGN CHOICE (log 89). -/
def State.mayWrite (s : State) (p e : Nat) (a : ActDesc) (w : CopyWrite) : Bool :=
  let c := s.core p
  (c.ce e).outstanding + (if a.desc.dstSpace = 6 then writesOf w.data.length else 1) ≤ 256 && !s.exitHeld p c.inst w.dst &&
  (!a.desc.transpose || (a.cur.isNone && a.reads.isEmpty)) && a.flush ≠ 1

/-- Whether the next piece of a descriptor may be asked for: room among 256 pieces, no stopped region on the way of a read of a
link or the host (R34), and room at the port (R357). -/
def State.mayRead (s : State) (p : Nat) (a : ActDesc) (k : Nat × Nat × Nat) : Bool :=
  let c := s.core p
  let w := a.desc.srcAt k.1 k.2.1 k.2.2
  a.reads.length + a.outstanding < 256 && !s.exitHeld p c.inst w &&
  (bits w.toNat 63 60 ≠ 7 || s.hostRoom (s.instPort c.inst))

/-- Send waiting writes and read requests while the engine has room (R99): a write first, else a read. DEDUCED (log 47). -/
def State.pump (s : State) (p e d : Nat) : Nat → State
  | 0 => s
  | fuel + 1 =>
    match ((s.core p).ce e).find d with
    | none => s
    | some a =>
      let step : Option (Except IFault State) :=
        match a.outq, a.cur with
        | w :: _, cur =>
          if s.mayWrite p e a w then some (s.emitWrite p e a w)
          else
            match cur with
            | some k => if a.desc.transpose && s.mayRead p a k then some (s.askRead p e a k) else none
            | none => none
        | [], some k => if s.mayRead p a k then some (s.askRead p e a k) else none
        | [], none => none
      match step with
      | none => s
      | some (.error f) => s.coreFault p f.cause (4 + e) a.idx f.detail
      | some (.ok s') => s'.pump p e d fuel

/-- Whether all of a descriptor's writes have left and been acknowledged. -/
def ActDesc.drained (a : ActDesc) : Bool :=
  a.cur.isNone && a.reads.isEmpty && a.buf.isEmpty && a.outq.isEmpty && a.outstanding = 0

/-- Whether a descriptor to the host is flushed now: writes are outstanding, and either it has none left to send or its engine has
no room for more (R99, R105). DESIGN CHOICE (log 89). -/
def State.mayFlush (s : State) (p e : Nat) (a : ActDesc) : Bool :=
  let c := s.core p
  a.desc.dstSpace = 7 && a.flush = 0 && a.outstanding ≠ 0 &&
  ((a.cur.isNone && a.reads.isEmpty && a.outq.isEmpty) || 256 ≤ (c.ce e).outstanding) &&
  s.hostRoom (s.instPort c.inst) && !s.wayHeld (p / 11) (88 + s.instPort c.inst)

/-- DESCRIPTOR_COMPLETE (R105): the last acknowledgement is in; writes to the host are flushed first; then SEM_ADD is
added to SEM. A descriptor of a stopped task raises nothing (R106). DEDUCED (log 47). -/
def State.finish (s : State) (p e d : Nat) : State :=
  let c := s.core p
  match (c.ce e).find d with
  | none => s
  | some a =>
    if s.mayFlush p e a then
      let port := s.instPort c.inst
      ((s.crossed (p / 11) (88 + port) c.inst).putDesc p e { a with flush := 1 }).hostAsk port (some c.inst)
        (bits a.desc.dst.toNat 56 0) 0 (.flush p e d)
    else if !a.drained || a.flush = 1 then s
    else
      let s := s.updCore p fun c => c.setCe e { (c.ce e) with act := (c.ce e).act.filter fun b => b.id ≠ d }
      match a.sem with
      | some k =>
        if a.stopped then s
        else
          s.send { id := 0, kind := .semAdd, origin := .none, inst := c.inst, srcUnit := posUnit p (4 + e),
                   dstUnit := semUnit (k / 4096), addr := BitVec.ofNat 64 k, n := a.desc.semAdd }
      | none => s

/-- Move what can move, then complete if nothing is left. -/
def State.run (s : State) (p e d : Nat) : State := (s.pump p e d 600).finish p e d

/-! ### DESCRIPTOR_START (R104) -/

/-- Start the descriptor at the queue head once it has been read (steps 3 and 4 of R104). -/
def State.startRead (s : State) (p e : Nat) (q : CpyEntry) (d : Desc) : State :=
  let c := s.core p
  let x := c.ce e
  if d.afterPrior ∧ x.act ≠ [] then
    s.updCore p fun c => c.setCe e { x with queue := { q with desc := some d } :: x.queue.drop 1 }
  else
    let sem := if d.semAdd = 0 then some none else (s.semOfCore c (p / 11) d.sem).map some
    match sem with
    | none => s.coreFault p 1 (4 + e) q.idx d.sem
    | some k =>
      let a : ActDesc :=
        { id := q.id, idx := q.idx, scratch := q.scratch, desc := d, sem := k, cur := some (d.firstRow.1, d.firstRow.2, 0), nextSeq := 0, reads := [], buf := [],
          bufDst := 0, outq := [], outstanding := 0, flush := 0, stopped := false }
      (s.updCore p fun c => c.setCe e { queue := x.queue.drop 1, act := x.act ++ [a] }).run p e q.id

/-- Every started descriptor, and the sender of every link, moves on as far as it can: a stopped region or a full port held it
back. -/
def State.runAll (s : State) : State :=
  (List.range 6).foldl State.linkPump
    (s.cores.foldl (fun s x => (List.range 2).foldl (fun s e => (x.2.ce e).act.foldl (fun s a => s.run x.1 e a.id) s) s) s)

/-- DESCRIPTOR_START (R103, R104, R137). `fixed` and `bad`: as for ENGINE_INSTRUCTION_COMPLETE. -/
def doDescriptorStart (p e : Nat) (fixed bad : List Nat) (s : State) : State :=
  let c := s.core p
  if !c.busy || s.held (p / 11) || !s.working || 2 ≤ e || 880 ≤ p then s
  else
    match (c.ce e).queue with
    | [] => s
    | q :: _ =>
      if c.inflight.any fun f => q.waits.contains f.id then s
      else
        match q.desc with
        | some d => s.startRead p e q d
        | none =>
          let c := c.upset bad
          let s := s.setCore p c
          match c.scratchRead (4 + e) q.scratch 64 with
          | .error f => s.coreFault p f.cause (4 + e) q.idx f.detail
          | .ok bs =>
            let s := s.corrects p fixed
            let d := Desc.ofBytes bs q.srcAdd q.dstAdd
            if !d.agrees q.op then s.coreFault p 2 (4 + e) q.idx q.scratch
            else if !s.descOk p d then s.coreFault p 3 (4 + e) q.idx q.scratch
            else s.startRead p e q d

/-! ### READ_DATA_ARRIVAL (R42, R106) -/

/-- A core in retention is woken by an access, which waits 2 microseconds for it (R110). -/
def State.wake (s : State) (p : Nat) : State :=
  s.updCore p fun c => if c.act = .retention ∧ c.waking.isNone then { c with waking := some (s.tb.count + 2000) } else c

/-- Data of the oldest piece a descriptor asked for is written onward. -/
def State.deliverPiece (s : State) (p e : Nat) (a : ActDesc) (pc : Piece) (data : List Byte) (ue : Nat) : State :=
  match a.desc.deliver { a with reads := a.reads.drop 1 } pc data with
  | .error f => s.coreFault p f.cause (4 + e) a.idx f.detail
  | .ok r =>
    let s := s.putDesc p e r.1
    let s := s.updCore p fun c =>
      { c with
        sticky := c.sticky ||| r.2
        ueCause := if c.ueCause = 0 then ue else c.ueCause
        ueAddr := if c.ueCause = 0 ∧ ue ≠ 0 then pc.src.toNat else c.ueAddr }
    s.run p e a.id

/-- A piece of another core's or the own scratchpad is read there (R30, R109): a bad word is counted where it lies and faults the
reader. -/
def State.readScratch (s : State) (p e q off : Nat) (a : ActDesc) (pc : Piece) (fixed bad : List Nat) : State :=
  let i := (s.core p).inst
  let cq := (s.core q).upset bad
  let s := ((s.setCore q cq).crossed (p / 11) (q / 11) i).crossed (q / 11) (p / 11) i
  if s.fieldInst (q / 11) ≠ some i then (s.discard (q / 11) pc.src.toNat).takeFault p 1 (4 + e) a.idx pc.src.toNat
  else
    match cq.scratchRead (4 + e) off pc.len with
    | .error f => (s.scratchUe q f.detail).takeFault p f.cause (4 + e) a.idx f.detail
    | .ok bs => (s.corrects q fixed).deliverPiece p e a pc bs 0

/-- READ_DATA_ARRIVAL: pieces arrive in the order in which their writes leave (R104). -/
def doReadDataArrival (p e d : Nat) (fixed bad : List Nat) (s : State) : State :=
  let c := s.core p
  if !s.working then s
  else
    match (c.ce e).find d with
    | none => s
    | some a =>
      match a.reads with
      | [] => s
      | pc :: _ =>
        match s.place pc.src.toNat with
        | .scratch q off =>
          if s.wayHeld (p / 11) (q / 11) ∨ s.wayHeld (q / 11) (p / 11) then s
          else if (s.core q).act = .retention then s.wake q
          else s.readScratch p e q off a pc fixed bad
        | _ =>
          match s.net.find? fun t => t.kind = .readData && t.origin = .ce p e d && t.seq = pc.seq with
          | none => s
          | some t =>
            match s.arriving t.id [.readData] with
            | none => s.stall t.id [.readData]
            | some t => (s.take t).deliverPiece p e a pc t.data t.ue

/-! ### WRITE_ACKNOWLEDGE (R105) -/

/-- Acknowledgements reach their engine; on the last, the descriptor completes. -/
def State.ackWrites (s : State) (p e d n : Nat) : State :=
  match ((s.core p).ce e).find d with
  | none => s
  | some a => (s.putDesc p e { a with outstanding := a.outstanding - n }).run p e d

/-- One acknowledgement reaches its engine. -/
def State.ackCopy (s : State) (p e d : Nat) : State := s.ackWrites p e d 1

/-- Acknowledgements of a plan record are counted by the sequencer (R145). -/
def Core.planAck (c : Core) : Core :=
  match c.wait with
  | .planAck n id => { c with wait := .planAck (n - 1) id }
  | _ => c

/-- WRITE_ACKNOWLEDGE: a destination acknowledgement reaches the unit that waits for it. -/
def doWriteAcknowledge (tok : Nat) (s : State) : State :=
  match s.arriving tok [.ack] with
  | none => s.stall tok [.ack]
  | some t =>
    let s := s.take t
    match t.origin with
    | .ce p e d => s.ackCopy p e d
    | .seq p => s.updCore p Core.planAck
    | _ => s

/-- The acknowledgement of a performed write, or for a link request its response (R105, R282). -/
def State.acknowledge (s : State) (t : Token) : State :=
  match t.origin with
  | .ce _ _ _ => s.send { t with kind := .ack, srcUnit := t.dstUnit, dstUnit := t.srcUnit, data := [] }
  | .seq _ => s.send { t with kind := .ack, srcUnit := t.dstUnit, dstUnit := t.srcUnit, data := [] }
  | .link n tag => s.linkResponse n t.inst (if t.kind = .accumulate then 3 else 1) 0 tag []
  | .none => s

/-- A refusal at the destination: a link request is answered ADDRESS (R282); other traffic is discarded with an
ADDRESS event of the destination field switch (R30), and its writer is still released. -/
def State.refuseAt (s : State) (f : Nat) (t : Token) : State :=
  match t.origin with
  | .link n tag =>
    s.linkResponse n t.inst
      (if t.kind = .accumulate then 3 else if t.kind = .readReq then 2 else if t.kind = .semAdd then 4 else 1) 1 tag []
  | _ => (s.discard f t.addr.toNat).acknowledge t

/-! ### SCRATCH_WRITE_ARRIVAL (R107 to R109) -/

/-- A write reaches a scratchpad. `err` is what the bank's code finds in the words a partial write reads: 0 nothing,
1 a corrected error, 2 an uncorrectable word. -/
def doScratchWriteArrival (tok err : Nat) (s : State) : State :=
  match s.arriving tok [.write] with
  | none => s.stall tok [.write]
  | some t =>
    match s.place t.addr.toNat with
    | .scratch q off =>
      let c := s.core q
      if c.act = .retention then s.wake q
      else
        let s := s.take t
        if s.fieldInst (q / 11) ≠ some t.inst then s.refuseAt (q / 11) t
        else
          let n := t.data.length
          let word := if off % 8 ≠ 0 then off / 8 else (off + n) / 8
          let partial' := off % 8 ≠ 0 || (off + n) % 8 ≠ 0
          let c1 : Core :=
            if partial' && err = 1 then { c with corrected := holdAdd 0xFFFF c.corrected 1, lastBank := bits (word * 8) 9 6 }
            else if partial' && err = 2 && !c.ueWords.contains word then { c with ueWords := c.ueWords ++ [word] }
            else c
          let c2 := c1.write off t.data
          let s := s.setCore q c2
          let s := if c2.corrected = c.corrected then s else s.count (posUnit q 6) 0x10 1
          let s := if c2.uncorrected = c.uncorrected then s else s.count (posUnit q 6) 0x11 1
          s.acknowledge t
    | _ => s

/-- CPY.1D (R137). -/
def execCpy1d (p : Nat) (ops : BitVec 56) (s : State) : Out := .next (issueCore s p 5 0 ops (cpyBody 0 ops))
/-- CPY.2D (R137). -/
def execCpy2d (p : Nat) (ops : BitVec 56) (s : State) : Out := .next (issueCore s p 5 1 ops (cpyBody 1 ops))
/-- CPY.3D (R137). -/
def execCpy3d (p : Nat) (ops : BitVec 56) (s : State) : Out := .next (issueCore s p 5 2 ops (cpyBody 2 ops))
/-- CPY.T (R137). -/
def execCpyT (p : Nat) (ops : BitVec 56) (s : State) : Out := .next (issueCore s p 5 3 ops (cpyBody 3 ops))
/-- DESCRIPTOR_START (R104). -/
def execDescriptorStart (p e : Nat) (fixed bad : List Nat) (s : State) : Out := .next (doDescriptorStart p e fixed bad s)
/-- WRITE_ACKNOWLEDGE (R105). -/
def execWriteAcknowledge (tok : Nat) (s : State) : Out := .next (doWriteAcknowledge tok s)
/-- READ_DATA_ARRIVAL (R42). -/
def execReadDataArrival (p e d : Nat) (fixed bad : List Nat) (s : State) : Out :=
  .next (doReadDataArrival p e d fixed bad s)
/-- SCRATCH_WRITE_ARRIVAL (R107). -/
def execScratchWriteArrival (tok err : Nat) (s : State) : Out := .next (doScratchWriteArrival tok err s)

end Sys2Proof.Machine
end

