-- ==== Sys2Proof/Machine/Semaphore.lean ====
section
/-! DEFINITION. The semaphore and full/empty class, the semaphore memories and the waits (R139, R140, R313 to R327). -/

namespace Sys2Proof.Machine

/-! ### Issue (R139, R140) -/

/-- Whether a copy engine has completed every descriptor it was given (R105). -/
def CopyEng.idle (x : CopyEng) : Bool := x.queue.isEmpty && x.act.isEmpty

/-- Whether every unit an AFTER field names has completed the earlier instructions (R139). -/
def Core.afterDone (c : Core) (after : Nat) : Bool :=
  (!bit after 0 || c.inflight.all fun f => f.eng ≠ 0) && (!bit after 1 || c.inflight.all fun f => f.eng ≠ 1) &&
  (!bit after 2 || c.ce0.idle) && (!bit after 3 || c.ce1.idle)

/-- Whether every engine queue is empty and every descriptor has completed (R142, R144, R145). -/
def Core.drained (c : Core) : Bool := c.afterDone 0xF

/-- The shared meaning of the four SEM instructions: translation, then the operation leaves for its semaphore memory;
an amount of zero completes at once (R139, R148, R320). -/
def semBody (p : Nat) (kind : TokKind) (o : Nat) (s : State) (c : Core) : Except IFault State := do
  let isWait : Bool := kind = .waitge || kind = .waitsub
  require (bits o 50 48 = 0 && bits o 27 24 = 0 && (!isWait || bits o 31 28 = 0)) (illegal 0)
  if !c.afterDone (bits o 31 28) then .ok s
  else
    let v := (bits o 47 32 + (c.areg (bits o 55 51)).toNat) % 65536
    match s.semOfCore c (p / 11) v with
    | none => .error ⟨1, 0, v⟩
    | some k =>
      if bits o 23 0 = 0 then .ok (s.setCore p c.advance)
      else
        let c' := if isWait then { c with act := .waiting, wait := .semWait } else { c with wait := .semPerformed }
        .ok ((s.setCore p c').send
          { id := 0, kind := kind, origin := .seq p, inst := c.inst, srcUnit := posUnit p 0, dstUnit := semUnit (k / 4096),
            addr := BitVec.ofNat 64 k, n := bits o 23 0, seq := c.taskId })

/-- The tagged region check of R322 and the route of R30. -/
def State.feTarget (s : State) (p : Nat) (c : Core) (a : Word) : Option (Nat × Nat) :=
  match s.place a.toNat with
  | .pan q off =>
    match s.carveAt q off with
    | some r => if off % 64 = 0 && r.tagged && s.carveAllows c.inst .write r && s.routeOk (p / 11) (q / 11) then some (q, off) else none
    | none => none
  | _ => none

/-- Send a full/empty operation to its column controller; FE.STORE reads its line now. -/
def State.feSend (s : State) (p : Nat) (c : Core) (op : FeOp) : Except IFault State :=
  match s.feTarget p c op.addr with
  | none => .error ⟨1, 0, op.addr.toNat⟩
  | some t => do
    let data ← if op.load then .ok [] else c.scratchRead 0 op.line 64
    .ok ((s.setCore p { c with act := .waiting, wait := .fe op }).send
      { id := 0, kind := .fe, origin := .seq p, inst := c.inst, srcUnit := posUnit p 0, dstUnit := posUnit t.1 7,
        addr := op.addr, n := 64, seq := c.taskId, data := data, fe := some op })

/-- The shared meaning of FE.LOAD and FE.STORE (R140, R322). -/
def feBody (p : Nat) (load : Bool) (o : Nat) (s : State) (c : Core) : Except IFault State := do
  require (bits o 44 20 = 0 && (load || !bit o 45)) (illegal 0)
  let line ← c.scratchOp 0 (bits o 50 46) (bits o 19 0) 64 64
  s.feSend p c { load := load, addr := c.areg (bits o 55 51), line := line, keep := bit o 45 }

/-! ### Semaphore memories (R313 to R318) -/

/-- Examine the waiters of a semaphore in arrival order: those whose condition holds complete (R317). -/
def examine (k : Nat) : Nat → List SemWaiter → Nat × List SemWaiter × List SemWaiter
  | c, [] => (c, [], [])
  | c, w :: ws =>
    if w.phys = k ∧ w.n ≤ c then
      let r := examine k (if w.sub then c - w.n else c) ws
      (r.1, r.2.1, w :: r.2.2)
    else
      let r := examine k c ws
      (r.1, w :: r.2.1, r.2.2)

/-- Send a wake token to a waiting core (R318). -/
def State.wakeCore (s : State) (unit p inst taskId : Nat) : State :=
  s.send { id := 0, kind := .wake, origin := .seq p, inst := inst, srcUnit := unit, dstUnit := posUnit p 0, addr := 0, n := 0,
           seq := taskId }

/-- Set the count of a semaphore, and complete the waiters whose condition now holds (R317). -/
def State.semChange (s : State) (k c : Nat) : State :=
  let r := examine k c s.semWaiters
  let s := { s with sem := Tab.put 0 k (BitVec.ofNat 24 r.1) s.sem, semWaiters := r.2.1 }
  r.2.2.foldl (fun s w => s.wakeCore (semUnit (k / 4096)) w.p w.inst w.taskId) s

/-- The count of a semaphore. -/
def State.semCount (s : State) (k : Nat) : Nat := (Tab.get 0 s.sem k).toNat

/-- One operation is counted, unless its instance is confidential (R328 to R330, R430). -/
def State.semCounted (s : State) (k : Nat) : State :=
  let f := k / 4096
  if s.fieldConfid f then s
  else (s.updField f fun x => { x with semOps := holdAdd 0xFFFFFFFF x.semOps 1 }).count (semUnit f) 0x07 1

/-- ADD (R314, R316). -/
def State.semAddTo (s : State) (k n : Nat) : State :=
  let f := k / 4096
  let s := s.semCounted k
  let c := s.semCount k
  if n = 0 then s
  else if c + n > 0xFFFFFF then
    ((s.updField f fun x => { x with saturated := holdAdd 0xFFFF x.saturated 1 }).event (semUnit f) 0x40 k
      (s.fieldConfid f)).semChange k 0xFFFFFF
  else s.semChange k (c + n)

/-- SUB (R314, R316). -/
def State.semSubFrom (s : State) (k n : Nat) : State :=
  let f := k / 4096
  let s := s.semCounted k
  let c := s.semCount k
  if n > c then
    ((s.updField f fun x => { x with clamped := holdAdd 0xFFFF x.clamped 1 }).event (semUnit f) 0x41 k
      (s.fieldConfid f)).semChange k 0
  else s.semChange k (c - n)

/-- SEM.ADD and SEM.SUB retire when performed (R139). -/
def State.semRetire (s : State) (t : Token) : State :=
  match t.origin with
  | .seq p =>
    s.updCore p fun c => if c.wait = .semPerformed ∧ c.taskId = t.seq then { c.advance with wait := .none } else c
  | .link n tag => s.linkResponse n t.inst 4 0 tag []
  | _ => s

/-- The instance tag is checked again by the destination field switch (R30). -/
def State.semTagOk (s : State) (t : Token) : Bool := s.fieldInst (t.addr.toNat / 4096) = some t.inst

/-- SEMAPHORE_ADD (R314, R316). -/
def doSemaphoreAdd (tok : Nat) (s : State) : State :=
  match s.arriving tok [.semAdd] with
  | none => s.stall tok [.semAdd]
  | some t =>
    let s := s.take t
    if s.semTagOk t then (s.semAddTo t.addr.toNat t.n).semRetire t
    else
      match t.origin with
      | .link _ _ => s.refuseAt (t.addr.toNat / 4096) t
      | _ => s.discard (t.addr.toNat / 4096) t.addr.toNat

/-- SEMAPHORE_SUB (R314, R316). -/
def doSemaphoreSub (tok : Nat) (s : State) : State :=
  match s.arriving tok [.semSub] with
  | none => s.stall tok [.semSub]
  | some t =>
    let s := s.take t
    if s.semTagOk t then (s.semSubFrom t.addr.toNat t.n).semRetire t else s.discard (t.addr.toNat / 4096) t.addr.toNat

/-- A core that still waits for the operation of a token. -/
def State.stillWaits (s : State) (p taskId : Nat) : Bool :=
  let c := s.core p
  c.act = .waiting && c.taskId = taskId && (match c.wait with | .semWait => true | .fe _ => true | _ => false)

/-- The shared meaning of WAITGE and WAITSUB at the semaphore memory (R314, R315, R317). -/
def doSemWait (sub : Bool) (tok : Nat) (s : State) : State :=
  match s.arriving tok [if sub then .waitsub else .waitge] with
  | none => s.stall tok [if sub then .waitsub else .waitge]
  | some t =>
    let s := s.take t
    let k := t.addr.toNat
    let f := k / 4096
    match t.origin with
    | .seq p =>
      if !s.semTagOk t then s.discard f k
      else if !s.stillWaits p t.seq then s
      else
        let s := s.semCounted k
        let c := s.semCount k
        if t.n ≤ c then
          (if sub then s.semChange k (c - t.n) else s).wakeCore (semUnit f) p t.inst t.seq
        else
          let w : SemWaiter := { phys := k, n := t.n, sub := sub, p := p, inst := t.inst, taskId := t.seq }
          let s : State := { s with semWaiters := s.semWaiters ++ [w] }
          if s.fieldConfid f then s
          else s.updField f fun x =>
            { x with semPeak := max x.semPeak (s.semWaiters.filter fun w => w.phys / 4096 = f).length }
    | _ => s

/-- WAKE_TOKEN (R318): the waiting core resumes issue after its instruction. -/
def doWakeToken (tok : Nat) (s : State) : State :=
  match s.arriving tok [.wake] with
  | none => s.stall tok [.wake]
  | some t =>
    let s := s.take t
    match t.origin with
    | .seq p =>
      if s.stillWaits p t.seq then s.updCore p fun c => { c.advance with act := .running, wait := .none } else s
    | _ => s

/-- Whether a token carries an operation on a physical semaphore that meets a test. -/
def Token.semOf (t : Token) (hit : Nat → Bool) : Bool :=
  (t.kind = .semAdd || t.kind = .semSub || t.kind = .waitge || t.kind = .waitsub) && hit t.addr.toNat

/-- Clear the counts and waiters of physical semaphores that meet a test; operations on them in flight are discarded at the
region boundaries (R321). -/
def State.semClear (s : State) (hit : Nat → Bool) : State :=
  (s.net.filter fun t => t.semOf hit).foldl State.take
    { s with sem := Tab.clearIf hit s.sem, semWaiters := s.semWaiters.filter fun w => !hit w.phys }

/-- Whether a physical semaphore belongs to an instance, in a range of its virtual identifiers. -/
def State.semIn (s : State) (i base count k : Nat) : Bool :=
  s.zen.sems.any fun r =>
    r.inst = i && r.field = k / 4096 && r.pbase ≤ k % 4096 && k % 4096 < r.pbase + r.count &&
    base ≤ r.vbase + (k % 4096 - r.pbase) && r.vbase + (k % 4096 - r.pbase) < base + count

/-! ### Full/empty operations at a column controller (R322 to R324) -/

/-- Tag number of a tagged block: that of the place it lies in. -/
def State.tagNo (s : State) (q off : Nat) : Nat := ((s.panKey q off).getD 0) / 64

/-- Whether the condition of a full/empty operation holds. -/
def State.feHolds (s : State) (k : Nat) (op : FeOp) : Bool := Tab.get false s.tags k = op.load

/-- Perform one full/empty operation: transfer, tag change and wake (R140, R323). DEDUCED (log 24). -/
def State.fePerform (s : State) (q off : Nat) (w : FeWaiter) : State :=
  let k := s.tagNo q off
  let s :=
    if w.op.load then
      let bs := s.panRead q off 64
      let ue := Tab.get false s.panUe k
      let s := s.updCore w.p fun c =>
        { c.write w.op.line bs with
          ueCause := if ue && c.ueCause = 0 then 7 else c.ueCause
          ueAddr := if ue && c.ueCause = 0 then w.op.addr.toNat else c.ueAddr }
      if w.op.keep then s else { s with tags := Tab.put false k false s.tags }
    else
      let s := s.panWrite q off w.data
      { s with tags := Tab.put false k true s.tags, panUe := Tab.put false k false s.panUe }
  s.wakeCore (posUnit q 7) w.p w.inst w.taskId

/-- After a tag change, perform every waiter of the block whose condition now holds, in arrival order (R324).
DEDUCED (log 24). -/
def State.feExamine (q off : Nat) : Nat → State → State
  | 0, s => s
  | fuel + 1, s =>
    let k := s.tagNo q off
    match s.feWaiters.find? fun w => w.pos = q && w.block = off / 64 && s.feHolds k w.op with
    | none => s
    | some w => State.feExamine q off fuel (({ s with feWaiters := s.feWaiters.erase w }).fePerform q off w)

/-- FE_ARRIVAL (R324): performed, entered as a waiter, or answered RETRY. DEDUCED (log 24). -/
def doFeArrival (tok : Nat) (s : State) : State :=
  match s.arriving tok [.fe] with
  | none => s.stall tok [.fe]
  | some t =>
    if (Tab.get {} s.panCtl (match s.place t.addr.toNat with | .pan q _ => q | _ => 0)).retraining then s
    else
    let s := s.take t
    match t.origin, t.fe, s.place t.addr.toNat with
    | .seq p, some op, .pan q off =>
      if s.fieldInst (p / 11) ≠ some t.inst then s.discard (q / 11) t.addr.toNat
      else if !s.stillWaits p t.seq then s
      else if (s.panKey q off).isNone then s.coreFault p 1 0 (s.core p).pi t.addr.toNat
      else
        let k := s.tagNo q off
        let w : FeWaiter := { block := off / 64, pos := q, p := p, inst := t.inst, taskId := t.seq, op := op, data := t.data }
        if s.feHolds k op then State.feExamine q off 33 (s.fePerform q off w)
        else if (s.feWaiters.filter fun x => x.pos = q).length < 32 then { s with feWaiters := s.feWaiters ++ [w] }
        else
          let r := (s.region (p / 11)).rate
          let due := s.tb.count + (if r = 0 then 0 else ceilDiv (64 * 1000) r)
          s.updCore p fun c => { c with act := .running, wait := .feRetry due op }
    | _, _, _ => s

/-- FE_RETRY (R324): 64 beats after RETRY the sequencer reissues the operation. -/
def doFeRetry (p : Nat) (s : State) : State :=
  let c := s.core p
  match c.wait with
  | .feRetry due op =>
    if s.tb.count < due || s.held (p / 11) || !s.working then s
    else
      match s.feSend p c op with
      | .ok s' => s'
      | .error f => s.coreFault p f.cause f.unit c.pi f.detail
  | _ => s

/-- SEM.ADD (R139). -/
def execSemAdd (p : Nat) (ops : BitVec 56) (s : State) : Out := .next (issue s p 6 0 ops (semBody p .semAdd ops.toNat))
/-- SEM.SUB (R139). -/
def execSemSub (p : Nat) (ops : BitVec 56) (s : State) : Out := .next (issue s p 6 1 ops (semBody p .semSub ops.toNat))
/-- SEM.WAITGE (R139). -/
def execSemWaitge (p : Nat) (ops : BitVec 56) (s : State) : Out := .next (issue s p 6 2 ops (semBody p .waitge ops.toNat))
/-- SEM.WAITSUB (R139). -/
def execSemWaitsub (p : Nat) (ops : BitVec 56) (s : State) : Out := .next (issue s p 6 3 ops (semBody p .waitsub ops.toNat))
/-- FE.LOAD (R140). -/
def execFeLoad (p : Nat) (ops : BitVec 56) (s : State) : Out := .next (issue s p 6 4 ops (feBody p true ops.toNat))
/-- FE.STORE (R140). -/
def execFeStore (p : Nat) (ops : BitVec 56) (s : State) : Out := .next (issue s p 6 5 ops (feBody p false ops.toNat))
/-- SEMAPHORE_ADD (R314). -/
def execSemaphoreAdd (tok : Nat) (s : State) : Out := .next (doSemaphoreAdd tok s)
/-- SEMAPHORE_SUB (R314). -/
def execSemaphoreSub (tok : Nat) (s : State) : Out := .next (doSemaphoreSub tok s)
/-- WAITGE (R317). -/
def execWaitge (tok : Nat) (s : State) : Out := .next (doSemWait false tok s)
/-- WAITSUB (R317). -/
def execWaitsub (tok : Nat) (s : State) : Out := .next (doSemWait true tok s)
/-- WAKE_TOKEN (R318). -/
def execWakeToken (tok : Nat) (s : State) : Out := .next (doWakeToken tok s)
/-- FE_ARRIVAL (R324). -/
def execFeArrival (tok : Nat) (s : State) : Out := .next (doFeArrival tok s)
/-- FE_RETRY (R324). -/
def execFeRetry (p : Nat) (s : State) : Out := .next (doFeRetry p s)

end Sys2Proof.Machine
end

