-- ==== Sys2Proof/Machine/Control.lean ====
section
/-! DEFINITION. The control class (R141 to R144), the PLAN instruction (R145), and the completion of an engine
instruction (R122). -/

namespace Sys2Proof.Machine

/-- Whether every bit outside the listed fields is zero (R124). DEDUCED (log 21). -/
def onlyFields (o : Nat) (fs : List (Nat × Nat)) : Bool :=
  (List.range 56).all fun i => !bit o i || fs.any fun f => f.2 ≤ i && i ≤ f.1

/-- A branch target lies below 8,192 (R141). -/
def target (o : Nat) : Except IFault Nat :=
  let t := bits o 19 0
  if t < 8192 then .ok t else .error (illegal 0)

/-- An immediate of n bits sign-extended to 64 (R141). -/
def immSx (n v : Nat) : Word := BitVec.ofInt 64 (sext n v)

def Core.creg (c : Core) (r : Nat) : Nat := (Tab.get 0 c.c r).toNat
def Core.setC (c : Core) (r v : Nat) : Core := { c with c := Tab.put 0 r (BitVec.ofNat 32 v) c.c }
def Core.kbit (c : Core) (r : Nat) : Bool := c.k.getLsbD r
def Core.setK (c : Core) (r : Nat) (v : Bool) : Core :=
  { c with k := BitVec.ofNat 8 (c.k.toNat - (if bit c.k.toNat r then 2 ^ r else 0) + (if v then 2 ^ r else 0)) }

/-- BR (R141). -/
def brBody (ops : BitVec 56) (c : Core) : Except IFault Core := do
  let o := ops.toNat
  require (onlyFields o [(55, 54), (53, 50), (19, 0)]) (illegal 0)
  let t ← target o
  let sel := bits o 53 50
  let cond := bits o 55 54
  require (cond = 0 || cond = 3 || sel ≤ 7) (illegal 0)
  let taken : Bool :=
    if cond = 0 then true else if cond = 1 then c.kbit sel else if cond = 2 then !c.kbit sel else decide (c.creg sel = 1)
  .ok (if taken then { c with pi := t } else c.advance)

/-- LOOP (R141): a counter already at 0 stays 0 and does not branch. -/
def loopBody (ops : BitVec 56) (c : Core) : Except IFault Core := do
  let o := ops.toNat
  require (onlyFields o [(55, 52), (19, 0)]) (illegal 0)
  let t ← target o
  let r := bits o 55 52
  let v := c.creg r - 1
  let c' := c.setC r v
  .ok (if v ≠ 0 then { c' with pi := t } else c'.advance)

/-- CALL (R141): a ninth entry is undefined. -/
def callBody (ops : BitVec 56) (c : Core) : Except IFault Core := do
  let o := ops.toNat
  require (onlyFields o [(19, 0)] && decide (c.stack.length < 8)) (illegal 0)
  let t ← target o
  .ok { c with stack := c.stack ++ [(c.pi + 1) % 8192], pi := t }

/-- RET (R141): with an empty stack it is undefined. -/
def retBody (ops : BitVec 56) (c : Core) : Except IFault Core := do
  require (ops.toNat = 0 && !c.stack.isEmpty) (illegal 0)
  .ok { c with stack := c.stack.dropLast, pi := c.stack.getLast?.getD 0 }

/-- HALT (R144): issue stops; TASK_END ends the task once every engine has drained. -/
def haltBody (ops : BitVec 56) (c : Core) : Except IFault Core := do
  require (ops.toNat = 0) (illegal 0)
  .ok { c with wait := .halt }

/-- SETA (R141). -/
def setaBody (ops : BitVec 56) (c : Core) : Except IFault Core := do
  let o := ops.toNat
  require (onlyFields o [(55, 51), (50, 50), (31, 0)]) (illegal 0)
  let d := bits o 55 51
  let imm := bits o 31 0
  let v := if bit o 50 then (c.areg d).toNat % 2 ^ 32 + imm * 2 ^ 32 else imm
  .ok (c.advance.setA d (BitVec.ofNat 64 v))

/-- ADDA (R141). -/
def addaBody (ops : BitVec 56) (c : Core) : Except IFault Core := do
  let o := ops.toNat
  require (onlyFields o [(55, 51), (50, 46), (31, 0)]) (illegal 0)
  .ok (c.advance.setA (bits o 55 51) (c.areg (bits o 50 46) + immSx 32 (bits o 31 0)))

/-- ADDAR (R141). -/
def addarBody (ops : BitVec 56) (c : Core) : Except IFault Core := do
  let o := ops.toNat
  require (onlyFields o [(55, 51), (50, 46), (45, 41)]) (illegal 0)
  .ok (c.advance.setA (bits o 55 51) (c.areg (bits o 50 46) + c.areg (bits o 45 41)))

/-- SETC (R141). -/
def setcBody (ops : BitVec 56) (c : Core) : Except IFault Core := do
  let o := ops.toNat
  require (onlyFields o [(55, 52), (31, 0)]) (illegal 0)
  .ok (c.advance.setC (bits o 55 52) (bits o 31 0))

/-- LDT (R141). -/
def ldtBody (ops : BitVec 56) (c : Core) : Except IFault Core := do
  let o := ops.toNat
  require (onlyFields o [(55, 52), (50, 46), (19, 0)]) (illegal 0)
  let a ← c.scratchOp 0 (bits o 50 46) (bits o 19 0) 16 16
  let bs ← c.scratchRead 0 a 16
  .ok { c.advance with t := Tab.put 0 (bits o 55 52) (BitVec.ofNat 128 (leNat bs)) c.t }

/-- STT (R141, R142): waits for every earlier instruction that names t[T]. -/
def sttBody (ops : BitVec 56) (c : Core) : Except IFault Core := do
  let o := ops.toNat
  require (onlyFields o [(55, 52), (50, 46), (19, 0)]) (illegal 0)
  let t := bits o 55 52
  if c.inflight.any fun f => f.descs.contains t then .ok c
  else
    let a ← c.scratchOp 0 (bits o 50 46) (bits o 19 0) 1 16
    .ok ((c.advance).write a (leBytes 16 (Tab.get 0 c.t t).toNat))

/-- TADD (R141, R142): a BASE above 0xF_FFFF is undefined. -/
def taddBody (ops : BitVec 56) (c : Core) : Except IFault Core := do
  let o := ops.toNat
  let d := Tab.get 0 c.t (bits o 51 48)
  let base := BitVec.ofNat 64 (bits d.toNat 19 0) + c.areg (bits o 47 43) + immSx 20 (bits o 19 0)
  require (onlyFields o [(55, 52), (51, 48), (47, 43), (19, 0)] && decide (base.toNat ≤ 0xFFFFF)) (illegal 0)
  .ok { c.advance with
    t := Tab.put 0 (bits o 55 52) (BitVec.ofNat 128 (d.toNat - bits d.toNat 19 0 + base.toNat)) c.t }

/-- LDV (R141). -/
def ldvBody (ops : BitVec 56) (c : Core) : Except IFault Core := do
  let o := ops.toNat
  require (onlyFields o [(50, 46), (19, 0)]) (illegal 0)
  let a ← c.scratchOp 0 (bits o 50 46) (bits o 19 0) 16 16
  let bs ← c.scratchRead 0 a 16
  .ok { c.advance with v0 := BitVec.ofNat 128 (leNat bs) }

/-- LDK (R141). -/
def ldkBody (ops : BitVec 56) (c : Core) : Except IFault Core := do
  let o := ops.toNat
  require (onlyFields o [(55, 53), (50, 46), (19, 0)]) (illegal 0)
  let a ← c.scratchOp 0 (bits o 50 46) (bits o 19 0) 1 1
  let bs ← c.scratchRead 0 a 1
  .ok (c.advance.setK (bits o 55 53) (decide (leNat bs ≠ 0)))

/-- SETK (R141, R142): with FROM_STICKY it waits for all engines. -/
def setkBody (ops : BitVec 56) (c : Core) : Except IFault Core := do
  let o := ops.toNat
  require (onlyFields o [(55, 53), (52, 52), (51, 51), (3, 0)]) (illegal 0)
  let k := bits o 55 53
  if bit o 51 then
    if c.drained then .ok (c.advance.setK k (decide (c.sticky.toNat &&& bits o 3 0 ≠ 0))) else .ok c
  else .ok (c.advance.setK k (bit o 52))

/-- PLAN (R145, R410): the sequencer stops issuing; a consumed uncorrectable block faults here. -/
def planBody (ops : BitVec 56) (c : Core) : Except IFault Core := do
  let o := ops.toNat
  require (onlyFields o [(55, 40)]) (illegal 0)
  if c.ueCause ≠ 0 then .error ⟨c.ueCause, 0, c.ueAddr⟩ else .ok { c with wait := .plan (bits o 55 40) }

/-- The effect of the engine instruction of a word (R123): matrix, element, convert, statistics and scale classes. ELT.MASK has
had its effect at issue. -/
def engineBody (p word : Nat) (c : Core) : Except IFault Effect :=
  let cls := bits word 63 60
  let op := bits word 59 56
  let ops := BitVec.ofNat 56 word
  if cls = 1 then matrixBody (op % 2 = 0) (decide (2 ≤ op)) ops c
  else if cls = 2 then
    if op ≤ 1 then eltBody (op = 1) p ops c else if op = 2 then loadpBody ops c else .ok (c, 0, [])
  else if cls = 3 then cvtBody p ops c
  else if op = 0 then maxabsBody ops c
  else if op = 1 then packBody p ops c
  else rotBody ops c

/-- The beats of a matrix or element instruction are counted for its engine (R429). -/
def State.countBeats (s : State) (p word : Nat) (c : Core) : State :=
  let cls := bits word 63 60
  let op := bits word 59 56
  let ops := BitVec.ofNat 56 word
  if cls = 1 then s.countBusy p (matrixBeats (op % 2 = 0) (decide (2 ≤ op)) ops c)
  else if cls = 2 ∧ op ≤ 1 then s.count (posUnit p 2) 0x01 (eltBeats ops c)
  else s

/-- Flags are ORed into the STICKY of descriptor registers, and into the core's (R122). -/
def Core.orSticky (c : Core) (f : Flags) (dst : List Nat) : Core :=
  { c with
    t := dst.foldl (fun t d => Tab.upd 0 d (fun v => v ||| BitVec.ofNat 128 (f.toNat * 2 ^ 124)) t) c.t
    sticky := c.sticky ||| f }

/-- ENGINE_INSTRUCTION_COMPLETE (R79, R80, R122): the engine's oldest instruction, once started, has its effect and leaves; its
flags are ORed into the STICKY of each destination descriptor as it then stands, and into the core's. `fixed` and `bad` are the
scratch words its reads found corrected, or past correction (R109). DESIGN CHOICE (log 6). DESIGN CHOICE (log 16). -/
def doEngineComplete (p eng : Nat) (fixed bad : List Nat) (s : State) : State :=
  let c := (s.core p).upset bad
  if !s.working || !c.headStarted eng then s
  else
    match c.inflight.find? fun x => x.eng = eng with
    | none => s
    | some x =>
      let seen := c.seenBy x
      match engineBody p x.word seen with
      | .error f => (s.setCore p c).coreFault p f.cause f.unit x.idx f.detail
      | .ok r =>
        let c' := c.unseen r.1
        let s := s.setCore p { c'.orSticky r.2.1 r.2.2 with inflight := c.inflight.filter fun y => y.id ≠ x.id }
        (s.countBeats p x.word seen).corrects p fixed

/-- BR (R141). -/
def execBr (p : Nat) (ops : BitVec 56) (s : State) : Out := .next (issueCore s p 7 0 ops (brBody ops))
/-- LOOP (R141). -/
def execLoop (p : Nat) (ops : BitVec 56) (s : State) : Out := .next (issueCore s p 7 1 ops (loopBody ops))
/-- CALL (R141). -/
def execCall (p : Nat) (ops : BitVec 56) (s : State) : Out := .next (issueCore s p 7 2 ops (callBody ops))
/-- RET (R141). -/
def execRet (p : Nat) (ops : BitVec 56) (s : State) : Out := .next (issueCore s p 7 3 ops (retBody ops))
/-- HALT (R144). -/
def execHalt (p : Nat) (ops : BitVec 56) (s : State) : Out := .next (issueCore s p 7 4 ops (haltBody ops))
/-- SETA (R141). -/
def execSeta (p : Nat) (ops : BitVec 56) (s : State) : Out := .next (issueCore s p 7 5 ops (setaBody ops))
/-- ADDA (R141). -/
def execAdda (p : Nat) (ops : BitVec 56) (s : State) : Out := .next (issueCore s p 7 6 ops (addaBody ops))
/-- ADDAR (R141). -/
def execAddar (p : Nat) (ops : BitVec 56) (s : State) : Out := .next (issueCore s p 7 7 ops (addarBody ops))
/-- SETC (R141). -/
def execSetc (p : Nat) (ops : BitVec 56) (s : State) : Out := .next (issueCore s p 7 8 ops (setcBody ops))
/-- LDT (R141). -/
def execLdt (p : Nat) (ops : BitVec 56) (s : State) : Out := .next (issueCore s p 7 9 ops (ldtBody ops))
/-- STT (R141). -/
def execStt (p : Nat) (ops : BitVec 56) (s : State) : Out := .next (issueCore s p 7 10 ops (sttBody ops))
/-- TADD (R141). -/
def execTadd (p : Nat) (ops : BitVec 56) (s : State) : Out := .next (issueCore s p 7 11 ops (taddBody ops))
/-- LDV (R141). -/
def execLdv (p : Nat) (ops : BitVec 56) (s : State) : Out := .next (issueCore s p 7 12 ops (ldvBody ops))
/-- LDK (R141). -/
def execLdk (p : Nat) (ops : BitVec 56) (s : State) : Out := .next (issueCore s p 7 13 ops (ldkBody ops))
/-- SETK (R141). -/
def execSetk (p : Nat) (ops : BitVec 56) (s : State) : Out := .next (issueCore s p 7 14 ops (setkBody ops))
/-- PLAN (R145). -/
def execPlan (p : Nat) (ops : BitVec 56) (s : State) : Out := .next (issueCore s p 8 0 ops (planBody ops))
/-- ENGINE_INSTRUCTION_COMPLETE (R122). -/
def execEngineInstructionComplete (p eng : Nat) (fixed bad : List Nat) (s : State) : Out :=
  .next (doEngineComplete p eng fixed bad s)

end Sys2Proof.Machine
end

