-- ==== Sys2Proof/Machine/Memory.lean ====
section
/-! DEFINITION. Retention and the march test (R110, R111), pan and granary accesses at their controllers (R17 to R23,
R202, R219, R292 to R295, R405 to R408). -/

namespace Sys2Proof.Machine

/-! ### Retention (R110) and the march test (R111) -/

/-- RETENTION_ENTRY (R110, R338). DESIGN CHOICE (log 30). -/
def doRetentionEntry (p : Nat) (s : State) : State :=
  let c := s.core p
  if p < 880 && c.act = .idle && c.retain && c.ce0.idle && c.ce1.idle && s.posCode p = 0 && c.march.busy = 0 &&
      !s.held (p / 11) && s.working then
    (s.setCore p { c with act := .retention, waking := none }).mgtRecord
      (eventBytes s.tb.count (regionUnit (p / 11) 0x1FF) 0x20 (p / 11))
  else s

/-- RETENTION_WAKE (R110): 2 µs after its trigger the core leaves retention. DESIGN CHOICE (log 30). -/
def doRetentionWake (p : Nat) (s : State) : State :=
  let c := s.core p
  match c.waking with
  | none => s
  | some t =>
    if c.act = .retention ∧ t ≤ s.tb.count then
      (s.setCore p { c with act := .idle, waking := none }).mgtRecord
        (eventBytes s.tb.count (regionUnit (p / 11) 0x1FF) 0x21 (p / 11))
    else s

/-- COR_CTRL_WRITE (R110, R112). -/
def doCorCtrlWrite (p : Nat) (v : BitVec 32) (s : State) : State :=
  if p < 880 ∧ s.regOk then
    let s := s.updCore p fun c => { c with retain := bit v.toNat 0 }
    if bit v.toNat 0 then s else s.wake p
  else s

/-- Whether a march mode is permitted in the core's state (R111). -/
def State.marchAllowed (s : State) (p mode : Nat) : Bool :=
  let c := s.core p
  c.march.busy = 0 &&
  (if mode = 1 then 1 ≤ s.posCode p || (c.act = .idle && (s.fieldInst (p / 11)).isNone)
   else s.posCode p = 0 && c.act = .idle)

/-- A write of COR_MARCH_CTRL with a mode (R111, R112). A write whose request is refused still sets BANKS, which a test that runs takes
when it completes. DESIGN CHOICE (log 93). -/
def doMarch (p mode : Nat) (v : BitVec 32) (s : State) : State :=
  if 880 ≤ p ∨ bits v.toNat 1 0 ≠ mode ∨ s.regOk = false then s
  else
    let ok := s.marchAllowed p mode
    s.updCore p fun c =>
      { c with march :=
        if ok then { c.march with banks := BitVec.ofNat 16 (bits v.toNat 31 16), busy := mode }
        else { c.march with banks := BitVec.ofNat 16 (bits v.toNat 31 16), refused := true } }

/-- Zero the scratch bytes of the tested banks (R107, R111). -/
def Core.zeroBanks (c : Core) (banks : BitVec 16) : Core :=
  let hit (a : Nat) : Bool := banks.getLsbD (bits a 9 6)
  let c1 := { c with ueWords := c.ueWords.filter fun w => !hit (w * 8) }
  if banks = 0xFFFF then { c1 with scratch := [], scratchFree := none }
  else if c.scratchFree.isNone then { c1 with scratch := Tab.clearIf hit c1.scratch }
  else (List.range 0x100000).foldl (fun c a => if hit a then c.putByte a 0 else c) c1

/-- MARCH_TEST_COMPLETE (R111). DESIGN CHOICE (log 30). -/
def doMarchTestComplete (p failBank failLines : Nat) (s : State) : State :=
  let c := s.core p
  if c.march.busy = 0 then s
  else
    let c1 := if c.march.busy = 1 then c.zeroBanks c.march.banks else c
    let s := s.setCore p { c1 with march :=
      { c.march with busy := 0, done := true, fail := decide (failLines ≠ 0), firstBank := failBank % 16,
                     failLines := failLines % 65536 } }
    if failLines = 0 then s
    else s.event (posUnit p 6) 0x10 (failBank % 16 + failLines % 65536 * 16) (s.fieldConfid (p / 11))

/-! ### Checks at a pan column controller (R30, R202, R219, R292, R417) -/

/-- Whether every region that holds a part of [off, off+n) meets a test. -/
def State.carvesAll (s : State) (test : CarveRec → Bool) (p : Nat) : Nat → Nat → Nat → Bool
  | 0, _, n => decide (n = 0)
  | fuel + 1, off, n =>
    if n = 0 then true
    else
      match s.carveAt p off with
      | none => false
      | some c =>
        test c &&
        (let room := c.offset + c.size - off
         if n ≤ room then true else s.carvesAll test p fuel (off + room) (n - room))

/-- The slots that an operation may read although they retire: those that were ACTIVE when its job was accepted, or, for a request of
a link, when some job of its instance was (R201). DEDUCED (log 35). -/
def State.basesOf (s : State) (t : Token) : List Nat :=
  match t.origin with
  | .ce p _ _ => ((s.job? (s.core p).inst (s.core p).seq).map (·.bases)).getD []
  | _ => (s.jobs.filter fun j => j.inst = t.inst).flatMap (·.bases)

/-- Whether a slot may be read (R201, R202). -/
def State.slotReadable (s : State) (old : List Nat) (k : Nat) : Bool :=
  let x := (s.slot k).state
  x = .active || (x = .retiring && old.contains k)

/-- The controller's own check of an operation on a region (R202, R219, R292). -/
def State.ctlAllows (s : State) (i : Nat) (old : List Nat) (u : Use) (c : CarveRec) : Bool :=
  s.carveAllows i u c &&
  (if c.kind = 0 then (if u = .read then s.slotReadable old c.owner else (s.slot c.owner).state = .active)
   else if c.kind = 1 then u = .read
   else true)

/-- Whether every byte of a range lies in a mapped granule (R417). -/
def State.mapped (s : State) (p off n : Nat) : Bool :=
  (s.panKey p off).isSome && (n = 0 || (s.panKey p (off + n - 1)).isSome)

/-- A refused operation is discarded and not acknowledged; its core faults with ADDRESS, or its link request is answered
ADDRESS (R202, R282). -/
def State.faultOrigin (s : State) (t : Token) : State :=
  match t.origin with
  | .ce p e d =>
    match ((s.core p).ce e).find d with
    | none => s
    | some a =>
      let s := if t.kind = .readReq then s else s.putDesc p e { a with outstanding := a.outstanding - 1 }
      (if a.stopped then s else s.coreFault p 1 (4 + e) a.idx t.addr.toNat).finish p e d
  | .seq p => if (s.core p).busy then s.coreFault p 1 0 (s.core p).pi t.addr.toNat else s
  | .link n tag =>
    s.linkResponse n t.inst (if t.kind = .accumulate then 3 else if t.kind = .readReq then 2 else 1) 1 tag []
  | .none => s

/-- Whether a pan column serves: not being retrained (R421). -/
def State.panServes (s : State) (p : Nat) : Bool := !(Tab.get {} s.panCtl p).retraining

/-- A corrected block is counted (R407). -/
def State.panCorrected (s : State) (p : Nat) : State :=
  (s.updPan p fun m => { m with corrected := holdAdd 0xFFFF m.corrected 1 }).count (posUnit p 7) 0x10 1

/-- What the decoder finds of the block at a column offset, whose symbols an error pattern hits (R405 to R407): a correction is
written back; an uncorrectable block keeps its data as read. DESIGN CHOICE (log 29). -/
def State.panDecode (s : State) (p off : Nat) (err : List Byte) : State :=
  match s.panKey p (off / 64 * 64) with
  | none => s
  | some k =>
    if Tab.get false s.panUe (k / 64) then s
    else
      match rsRead (Memory.read s.pan k 64) err with
      | .intact => s
      | .corrected => s.panCorrected p
      | .wrong reported d =>
        let s := { s with pan := Memory.write s.pan k d }
        if reported then s.panCorrected p else s
      | .uncorrectable d =>
        let s := { s with panUe := Tab.put false (k / 64) true s.panUe, pan := Memory.write s.pan k d }
        (s.updPan p fun m => { m with uncorrected := holdAdd 0xFF m.uncorrected 1, ueAt := (m.ueAt ++ [s.tb.count]).drop (m.ueAt.length - 254) }).count
          (posUnit p 7) 0x11 1

/-- Decode the blocks that an access reads, each hit by its 72 bytes of a pattern. -/
def State.panDecodes (s : State) (p off n : Nat) (reads : Nat → Bool) (err : List Byte) : State :=
  (List.range ((off + n + 63) / 64 - off / 64)).foldl
    (fun s j => if reads (off / 64 + j) then s.panDecode p ((off / 64 + j) * 64) (err.drop (72 * j)) else s) s

/-- Whether an access of [off, off+n) covers block b whole. -/
def wholeBlock (off n b : Nat) : Bool := decide (off ≤ b * 64 ∧ b * 64 + 64 ≤ off + n)

/-- Whether a range meets a block marked uncorrectable. -/
def State.panBad (s : State) (p off n : Nat) : Bool :=
  (List.range ((off + n + 63) / 64 - off / 64)).any fun j =>
    (s.panKey p ((off / 64 + j) * 64)).any fun k => Tab.get false s.panUe (k / 64)

/-- A whole-block write restores its blocks; blocks written in part stay as they are marked. DESIGN CHOICE (log 29). -/
def State.panHeal (s : State) (p off n : Nat) : State :=
  (List.range ((off + n + 63) / 64 - off / 64)).foldl
    (fun s j =>
      let b := (off / 64 + j) * 64
      if off ≤ b ∧ b + 64 ≤ off + n then
        match s.panKey p b with
        | some k => { s with panUe := Tab.put false (k / 64) false s.panUe }
        | none => s
      else s) s

/-- Deliver read data to whoever asked: the copy engine, or the link as a response (R106, R282). -/
def State.deliverRead (s : State) (t : Token) (bs : List Byte) (ue : Nat) : State :=
  match t.origin with
  | .link n tag => s.linkResponse n t.inst 2 (if ue = 0 then 0 else 3) tag bs
  | .none => s
  | _ => s.send { t with kind := .readData, srcUnit := t.dstUnit, dstUnit := t.srcUnit, data := bs, ue := ue }

/-- Counters of a controller that serves one access; those of a confidential instance are left out of shared units. -/
def State.countAccess (s : State) (unit n amount inst : Nat) : State := if s.confid inst then s else s.count unit n amount

/-- An access that a pan column controller refuses: one outside its instance's regions is discarded by the destination field
switch, which records an ADDRESS event (R30); a lock of the region refuses without one (R202, R219). -/
def State.panRefuse (s : State) (u : Use) (q off n : Nat) (t : Token) : State :=
  let s := if s.carvesAll (s.carveAllows t.inst u) q 225 off n then s else s.discard (q / 11) t.addr.toNat
  s.faultOrigin t

/-- PAN_READ (R19, R202, R407, R410). -/
def doPanRead (tok : Nat) (err : List Byte) (s : State) : State :=
  match s.arriving tok [.readReq] with
  | none => s.stall tok [.readReq]
  | some t =>
    match s.place t.addr.toNat with
    | .pan q off =>
      if !s.panServes q then s
      else
        let s := s.take t
        if !s.carvesAll (s.ctlAllows t.inst (s.basesOf t) .read) q 225 off t.n || !s.mapped q off t.n then s.panRefuse .read q off t.n t
        else
          let s := s.panDecodes q off t.n (fun _ => true) err
          let s := s.count (posUnit q 7) 0x04 t.n
          s.deliverRead t (s.panRead q off t.n) (if s.panBad q off t.n then 7 else 0)
    | _ => s

/-- The shared meaning of whole and partial pan writes (R19, R202). -/
def doPanStore (whole : Bool) (tok : Nat) (err : List Byte) (s : State) : State :=
  match s.arriving tok [.write] with
  | none => s.stall tok [.write]
  | some t =>
    match s.place t.addr.toNat with
    | .pan q off =>
      let n := t.data.length
      if !s.panServes q || decide (off % 64 = 0 ∧ n % 64 = 0) ≠ whole then s
      else
        let s := s.take t
        if !s.carvesAll (s.ctlAllows t.inst [] .write) q 225 off n || !s.mapped q off n then s.panRefuse .write q off n t
        else
          let s := s.panDecodes q off n (fun b => !wholeBlock off n b) err
          let s := (s.panWrite q off t.data).panHeal q off n
          (s.count (posUnit q 7) 0x05 n).acknowledge t
    | _ => s

/-- Add BF16 operands into F32 targets of a memory from an address on (R177, R292); the second result lists the targets
that became non-finite. -/
def sumpRun (get : Nat → Nat) : Nat → List Byte → List (List Byte) × List Nat
  | a, b0 :: b1 :: bs =>
    let old := BitVec.ofNat 32 (get a)
    let new := sumpAdd old (BitVec.ofNat 16 (leNat [b0, b1]))
    let bad : Bool := decide (bits old.toNat 30 23 ≠ 255) && decide (bits new.1.toNat 30 23 = 255)
    let r := sumpRun get (a + 4) bs
    (leBytes 4 new.1.toNat :: r.1, if bad then a :: r.2 else r.2)
  | _, _ => ([], [])

/-- The operands of an accumulate at an address that fall in its first block: the blocks are taken one by one, each one
operation (R19, R292). -/
def firstBlock (a : Nat) (data : List Byte) : List Byte := data.take (max 2 ((64 - a % 64) / 4 * 2))

/-- The rest of an accumulate waits at its sump; when nothing is left, it is acknowledged (R292). -/
def State.accRest (s : State) (t : Token) (done : List Byte) : State :=
  if t.data.length ≤ done.length then s.acknowledge t
  else
    let rest : Token := { t with
      addr := t.addr + BitVec.ofNat 64 (2 * done.length), data := t.data.drop done.length, n := t.n - done.length, path := [] }
    { s with net := rest :: s.net }

/-- SUMP_ACCUMULATE: the adds of one block (R292 to R294). -/
def doSumpAccumulate (tok : Nat) (err : List Byte) (s : State) : State :=
  match s.arriving tok [.accumulate] with
  | none => s.stall tok [.accumulate]
  | some t =>
    match s.place t.addr.toNat with
    | .pan q off =>
      let n := 2 * t.data.length
      if !s.panServes q then s
      else
        let s := s.take t
        if !s.carvesAll (s.ctlAllows t.inst [] .acc) q 225 off n || !s.mapped q off n then s.panRefuse .acc q off n t
        else
          let ops := firstBlock off t.data
          let s := s.panDecodes q off (2 * ops.length) (fun _ => true) err
          let r := sumpRun (fun a => leNat (s.panRead q a 4)) off ops
          let s := s.panWrite q off r.1.flatten
          let s := r.2.foldl (fun s a => s.event (posUnit q 7) 0x42 a (s.confid t.inst)) s
          (s.count (posUnit q 7) 0x06 ops.length).accRest t ops
    | _ => s

/-! ### The granary (R21 to R24, R295) -/

/-- Whether a granary controller serves: its interface is not being retrained. -/
def State.granServes (s : State) (c : Nat) : Bool := !(Tab.get {} s.granCtl c).retraining

/-- A corrected block is counted (R407). -/
def State.granCorrected (s : State) (c : Nat) : State :=
  (s.updGran c fun m => { m with corrected := holdAdd 0xFFFF m.corrected 1 }).count (granUnit c) 0x10 1

/-- What the decoder finds of the granary block at a physical address (R405 to R407). DESIGN CHOICE (log 29). -/
def State.granDecode (s : State) (a : Nat) (err : List Byte) : State :=
  let k := a / 64
  let c := granCtlOf a
  if Tab.get false s.granUe k then s
  else
    match rsRead (s.granBytes (k * 64) 64) err with
    | .intact => s
    | .corrected => s.granCorrected c
    | .wrong reported d =>
      let s := s.granStore (k * 64) d
      if reported then s.granCorrected c else s
    | .uncorrectable d =>
      let s := { s.granStore (k * 64) d with granUe := Tab.put false k true s.granUe }
      (s.updGran c fun m => { m with uncorrected := holdAdd 0xFF m.uncorrected 1, ueAt := (m.ueAt ++ [s.tb.count]).drop (m.ueAt.length - 254) }).count
        (granUnit c) 0x11 1

/-- Decode the blocks that an access reads, each hit by its 72 bytes of a pattern. -/
def State.granDecodes (s : State) (a n : Nat) (reads : Nat → Bool) (err : List Byte) : State :=
  (List.range ((a + n + 63) / 64 - a / 64)).foldl
    (fun s j => if reads (a / 64 + j) then s.granDecode ((a / 64 + j) * 64) (err.drop (72 * j)) else s) s

def State.granBad (s : State) (a n : Nat) : Bool :=
  (List.range ((a + n + 63) / 64 - a / 64)).any fun j => Tab.get false s.granUe (a / 64 + j)

def State.granHeal (s : State) (a n : Nat) : State :=
  { s with granUe := Tab.clearIf (fun k => a ≤ k * 64 && k * 64 + 64 ≤ a + n) s.granUe }

/-- The granary access of a token: its absolute address, once its controller serves it. -/
def State.granArriving (s : State) (tok : Nat) (kinds : List TokKind) : Option (Token × Nat) :=
  (s.arriving tok kinds).bind fun t =>
    match s.place t.addr.toNat with
    | .gran off =>
      let a := s.granBase t.inst + off
      if s.granServes (granCtlOf a) then some (t, off) else none
    | _ => none

/-- GRANARY_READ (R22, R23, R407, R410). -/
def doGranaryRead (tok : Nat) (err : List Byte) (s : State) : State :=
  match s.granArriving tok [.readReq] with
  | none => s.stall tok [.readReq]
  | some (t, off) =>
    let s := s.take t
    if off + t.n > s.granSize t.inst then s.faultOrigin t
    else
      let a := s.granBase t.inst + off
      let s := s.granDecodes a t.n (fun _ => true) err
      let s := s.countAccess (granUnit (granCtlOf a)) 0x04 t.n t.inst
      s.deliverRead t (s.granBytes a t.n) (if s.granBad a t.n then 8 else 0)

/-- GRANARY_WRITE (R22, R23). -/
def doGranaryWrite (tok : Nat) (err : List Byte) (s : State) : State :=
  match s.granArriving tok [.write] with
  | none => s.stall tok [.write]
  | some (t, off) =>
    let s := s.take t
    let n := t.data.length
    if off + n > s.granSize t.inst then s.faultOrigin t
    else
      let a := s.granBase t.inst + off
      let s := (s.granDecodes a n (fun b => !wholeBlock a n b) err).granStore a t.data
      ((s.granHeal a n).countAccess (granUnit (granCtlOf a)) 0x05 n t.inst).acknowledge t

/-- GRANARY_ACCUMULATE: the adds of one block (R292, R294, R295). -/
def doGranaryAccumulate (tok : Nat) (err : List Byte) (s : State) : State :=
  match s.granArriving tok [.accumulate] with
  | none => s.stall tok [.accumulate]
  | some (t, off) =>
    let s := s.take t
    if off + 2 * t.data.length > s.granSize t.inst then s.faultOrigin t
    else
      let a := s.granBase t.inst + off
      let unit := regionUnit (96 + granCtlOf a) 1
      let ops := firstBlock a t.data
      let s := s.granDecodes a (2 * ops.length) (fun _ => true) err
      let r := sumpRun (fun x => leNat (s.granBytes x 4)) a ops
      let s := s.granStore a r.1.flatten
      let s := r.2.foldl (fun s x => s.event unit 0x42 x (s.confid t.inst)) s
      (s.countAccess unit 0x06 ops.length t.inst).accRest t ops

/-! ### Patrol scrub (R408) -/

/-- The column offset whose byte lies in a cell: that of the retired column whose granule was remapped there, or its own
(R17, R416). -/
def State.panLogical (s : State) (key : Nat) : Nat :=
  let a := panByteOf key
  match s.fence.remap.find? fun e => e.2 = some (a / granule) with
  | some e => e.1 * granule + a % granule
  | none => a

/-- Whether a physical granary address belongs to a confidential instance. -/
def State.granConfid (s : State) (a : Nat) : Bool :=
  s.zen.insts.any fun r => r.confidential && r.granBase * 0x4000000 ≤ a && a < (r.granBase + r.granSize) * 0x4000000

/-- SCRUB_READ (R407, R408): `block` counts 64-byte cells over all columns, layer after layer, or blocks over the granary. -/
def doScrubRead (granary : Bool) (block : Nat) (err : List Byte) (lastOfPass : Bool) (s : State) : State :=
  let a := block * 64
  if granary then
    if block ≥ 12884901888 ∨ s.working = false then s
    else
      let c := granCtlOf a
      let was := Tab.get false s.granUe block
      let s := s.granDecode a err
      let s := if Tab.get false s.granUe block && !was then s.event (granUnit c) 0x13 a (s.granConfid a) else s
      if lastOfPass then s.updGran c fun m => { m with scrubPasses := holdAdd 0xFFFF m.scrubPasses 1 } else s
  else
    let p := a / columnBytes
    if 880 ≤ p ∨ s.fence.retired.contains p ∨ s.working = false then s
    else
      let was := Tab.get false s.panUe block
      let l := s.panLogical a
      let s := s.panDecode (l / columnBytes) (l % columnBytes) err
      let s := if Tab.get false s.panUe block && !was then
          s.event (posUnit p 7) 0x12 (panByteOf a % columnBytes) (s.fieldConfid (p / 11))
        else s
      if lastOfPass then s.updPan p fun m => { m with scrubPasses := holdAdd 0xFFFF m.scrubPasses 1 } else s

/-- RETENTION_ENTRY (R110). -/
def execRetentionEntry (p : Nat) (s : State) : Out := .next (doRetentionEntry p s)
/-- RETENTION_WAKE (R110). -/
def execRetentionWake (p : Nat) (s : State) : Out := .next (doRetentionWake p s)
/-- COR_CTRL_WRITE (R110). -/
def execCorCtrlWrite (p : Nat) (v : BitVec 32) (s : State) : Out := .next (doCorCtrlWrite p v s)
/-- MARCH_DESTRUCTIVE (R111). -/
def execMarchDestructive (p : Nat) (v : BitVec 32) (s : State) : Out := .next (doMarch p 1 v s)
/-- MARCH_CONTENT_PRESERVING (R111). -/
def execMarchContentPreserving (p : Nat) (v : BitVec 32) (s : State) : Out := .next (doMarch p 2 v s)
/-- MARCH_TEST_COMPLETE (R111). -/
def execMarchTestComplete (p failBank failLines : Nat) (s : State) : Out :=
  .next (doMarchTestComplete p failBank failLines s)
/-- PAN_READ (R19). -/
def execPanRead (tok : Nat) (err : List Byte) (s : State) : Out := .next (doPanRead tok err s)
/-- PAN_WRITE (R19). -/
def execPanWrite (tok : Nat) (s : State) : Out := .next (doPanStore true tok [] s)
/-- PAN_PARTIAL_WRITE (R19). -/
def execPanPartialWrite (tok : Nat) (err : List Byte) (s : State) : Out := .next (doPanStore false tok err s)
/-- SUMP_ACCUMULATE (R292). -/
def execSumpAccumulate (tok : Nat) (err : List Byte) (s : State) : Out := .next (doSumpAccumulate tok err s)
/-- GRANARY_READ (R23). -/
def execGranaryRead (tok : Nat) (err : List Byte) (s : State) : Out := .next (doGranaryRead tok err s)
/-- GRANARY_WRITE (R23). -/
def execGranaryWrite (tok : Nat) (err : List Byte) (s : State) : Out := .next (doGranaryWrite tok err s)
/-- GRANARY_ACCUMULATE (R295). -/
def execGranaryAccumulate (tok : Nat) (err : List Byte) (s : State) : Out :=
  .next (doGranaryAccumulate tok err s)
/-- SCRUB_READ (R408). -/
def execScrubRead (granary : Bool) (block : Nat) (err : List Byte) (lastOfPass : Bool) (s : State) : Out :=
  .next (doScrubRead granary block err lastOfPass s)

end Sys2Proof.Machine
end

