-- ==== Sys2Proof/Machine/Zenal.lean ====
section
/-! DEFINITION. Zenal images: container, records, validation and the merge of a partial image (R43 to R58, R73, R74). -/

namespace Sys2Proof.Machine

/-! ### Result codes (R69) -/

def resOk : Nat := 0
def resBadSignature : Nat := 1
def resBadFormat : Nat := 2
def resWrongPart : Nat := 3
def resInvalidContent : Nat := 4
def resScopeSplit : Nat := 5
def resScopeBusy : Nat := 6
def resRollback : Nat := 7
def resNoSpace : Nat := 8
def resWorn : Nat := 9
def resHostReadFault : Nat := 0xA
def resNothingStaged : Nat := 0xB

/-! ### Header and directory (R43, R45, R46) -/

def zTotal (b : List Byte) : Nat := leAt b 8 4
def zSequence (b : List Byte) : Nat := leAt b 0xC 4
def zPartial (b : List Byte) : Bool := bit (leAt b 0x13 1) 0
def zBaseSequence (b : List Byte) : Nat := leAt b 0x14 4
def zSigner (b : List Byte) : List Byte := slice b 0x20 32
/-- The signed span (R44). -/
def zSpan (b : List Byte) : List Byte := b.take (zTotal b - 64)

/-- A directory entry (R45). -/
structure Section' where
  typ : Nat
  size : Nat
  count : Nat
  off : Nat
  reserved : Nat
  deriving DecidableEq, Repr

def Section'.stop (x : Section') : Nat := x.off + x.size * x.count

def zSections (b : List Byte) : List Section' :=
  (List.range (leAt b 6 2)).map fun k =>
    let o := 64 + 16 * k
    { typ := leAt b o 2, size := leAt b (o + 2) 2, count := leAt b (o + 4) 4, off := leAt b (o + 8) 4,
      reserved := leAt b (o + 12) 4 }

/-- Record size of a section type and the range of its record count in a full image (R46). -/
def sectionRule (t : Nat) : Option (Nat × Nat × Nat) :=
  if t = 1 then some (32, 0, 64) else if t = 2 then some (16, 80, 80) else if t = 3 then some (16, 1, 4096)
  else if t = 4 then some (16, 4, 4) else if t = 5 then some (8, 0, 5120) else if t = 6 then some (8, 0, 88)
  else if t = 7 then some (24, 6, 6) else if t = 8 then some (16, 0, 0) else none

/-- Whether a list of half-open spans has no two that overlap. -/
def disjoint : List (Nat × Nat) → Bool
  | [] => true
  | x :: xs => (xs.all fun y => decide (x.2 ≤ y.1) || decide (y.2 ≤ x.1) || decide (x.1 = x.2) || decide (y.1 = y.2)) && disjoint xs

/-- Whether a list has no repeats. -/
def distinct {α : Type} [DecidableEq α] : List α → Bool
  | [] => true
  | x :: xs => !xs.contains x && distinct xs

/-- Whether a section count is permitted in an image of a kind (R46). -/
def countOk (isPartial : Bool) (secs : List Section') (t : Nat) : Bool :=
  match secs.find? fun x => x.typ = t, sectionRule t with
  | some x, some r =>
    if isPartial then (if t = 8 then x.count = 1 else t ≠ 4 && t ≠ 7 && decide (x.count ≤ r.2.2))
    else t ≠ 8 && decide (r.2.1 ≤ x.count) && decide (x.count ≤ r.2.2)
  | none, some r => if isPartial then t ≠ 8 else t = 8 || decide (r.2.1 = 0)
  | _, none => false

/-- Group 1 of R57: header, directory, kind. Every byte between the directory and the signature that lies in no body is zero: R45
says it of bytes between bodies, and not of those before the first and after the last. DESIGN CHOICE (log 92). `extends'` is the SEQUENCE of the full image a partial one must extend. -/
def zFormatOk (b : List Byte) (extends' : Option Nat) : Bool :=
  let total := zTotal b
  let secs := zSections b
  let dirEnd := 64 + 16 * leAt b 6 2
  let sigAt := total - 64
  leAt b 0 4 = 0x4C414E5A && leAt b 4 2 = 1 && decide (total ≤ 0x300000) && decide (total ≤ b.length) &&
  decide (dirEnd + 64 ≤ total) && leAt b 0x18 8 = 0 && bits (leAt b 0x13 1) 7 1 = 0 &&
  (match extends' with
   | none => !zPartial b && zBaseSequence b = 0
   | some q => zPartial b && zBaseSequence b = q) &&
  (secs.all fun x =>
    ((sectionRule x.typ).any fun r => r.1 = x.size) && x.reserved = 0 && x.off % 64 = 0 && decide (dirEnd ≤ x.off) &&
    decide (x.stop ≤ sigAt)) &&
  distinct (secs.map (·.typ)) && disjoint (secs.map fun x => (x.off, x.stop)) &&
  ([1, 2, 3, 4, 5, 6, 7, 8].all fun t => countOk (zPartial b) secs t) &&
  ((List.range (sigAt - dirEnd)).all fun k =>
    let a := dirEnd + k
    (secs.any fun x => decide (x.off ≤ a) && decide (a < x.stop)) || slice b a 1 = [0])

/-- The record bytes of one section; none when the section is absent. -/
def zRecords (b : List Byte) (t : Nat) : Option (List (List Byte)) :=
  ((zSections b).find? fun x => x.typ = t).map fun x => (List.range x.count).map fun k => slice b (x.off + x.size * k) x.size

/-! ### Records (R47 to R56) -/

def instOf (r : List Byte) : InstRec :=
  { inst := leAt r 0 1, confidential := bit (leAt r 1 1) 0, port := leAt r 2 1, classA := leAt r 3 1,
    pasid := leAt r 4 4, granBase := leAt r 8 4, granSize := leAt r 12 4, quota := leAt r 16 2,
    drainMs := if leAt r 18 2 = 0 then 1000 else leAt r 18 2 }
def fieldOf (r : List Byte) : FieldRec := { field := leAt r 0 1, inst := leAt r 1 1, routes := leAt r 2 10 }
def carveOf (r : List Byte) : CarveRec :=
  { first := leAt r 0 2, last := leAt r 2 2, kind := leAt r 4 1, owner := leAt r 5 1, tagged := bit (leAt r 6 1) 0,
    offset := leAt r 8 4, size := leAt r 12 4 }
def slotOf (r : List Byte) : SlotRec :=
  { slot := leAt r 0 1, fork := bit (leAt r 1 1) 0, owner := leAt r 2 1, readers := leAt r 4 8 }
def semOf (r : List Byte) : SemRec :=
  { inst := leAt r 0 1, field := leAt r 1 1, vbase := leAt r 2 2, pbase := leAt r 4 2, count := leAt r 6 2 }
def rateOf (r : List Byte) : RateRec :=
  { region := leAt r 0 1, target := leAt r 2 2, vTarget := leAt r 4 2, vCeiling := leAt r 6 2 }
def linkOf (r : List Byte) : LinkRec :=
  { link := leAt r 0 1, enabled := bit (leAt r 1 1) 0, upstream := bit (leAt r 1 1) 1, downstream := bit (leAt r 1 1) 2,
    spreadOk := bit (leAt r 1 1) 3, partner := leAt r 8 8, insts := leAt r 16 8 }

/-- Reserved parts of the records are zero. DEDUCED (log 21). -/
def reservedOk (b : List Byte) : Bool :=
  let all (t : Nat) (p : List Byte → Bool) : Bool := ((zRecords b t).getD []).all p
  all 1 (fun r => bits (leAt r 1 1) 7 1 = 0 && bits (leAt r 4 4) 31 20 = 0 && allZero (r.drop 20)) &&
  all 2 (fun r => allZero (r.drop 12)) &&
  all 3 (fun r => bits (leAt r 6 1) 7 1 = 0 && leAt r 7 1 = 0) &&
  all 4 (fun r => bits (leAt r 1 1) 7 1 = 0 && leAt r 3 1 = 0 && allZero (r.drop 12)) &&
  all 6 (fun r => leAt r 1 1 = 0) &&
  all 7 (fun r => bits (leAt r 1 1) 7 4 = 0 && leAt r 2 6 = 0) &&
  all 8 (fun r => allZero (r.drop 10))

/-- The records of a full image. -/
def zFull (b : List Byte) : Zcfg :=
  let get (t : Nat) : List (List Byte) := (zRecords b t).getD []
  { insts := (get 1).map instOf, fields := (get 2).map fieldOf, carves := (get 3).map carveOf,
    slots := (get 4).map slotOf, sems := (get 5).map semOf, rates := (get 6).map rateOf, links := (get 7).map linkOf }

/-! ### Content (R57) -/

def Zcfg.hasInst (z : Zcfg) (i : Nat) : Bool := z.insts.any fun r => r.inst = i
def Zcfg.ownerOf (z : Zcfg) (f : Nat) : Nat := ((z.fields.find? fun r => r.field = f).map (·.inst)).getD 0xFF
def Zcfg.fieldsOf (z : Zcfg) (i : Nat) : List Nat := (List.range 80).filter fun f => z.ownerOf f = i

/-- No two regions of one column overlap. -/
def carvesDisjoint : List CarveRec → Bool
  | [] => true
  | c :: cs =>
    (cs.all fun d =>
      decide (c.last < d.first) || decide (d.last < c.first) || decide (c.offset + c.size ≤ d.offset) ||
      decide (d.offset + d.size ≤ c.offset)) && carvesDisjoint cs

def carveRecOk (z : Zcfg) (c : CarveRec) : Bool :=
  decide (c.first ≤ c.last) && decide (c.last ≤ 879) && decide (c.kind ≤ 4) && c.offset % granule = 0 &&
  c.size % granule = 0 && decide (granule ≤ c.size) && decide (c.offset + c.size ≤ columnBytes) &&
  (if c.kind = 0 then decide (c.owner ≤ 3)
   else if c.kind = 4 then c.owner = 0xFF
   else decide (c.owner ≤ 63) &&
     ((List.range (c.last / 11 + 1 - c.first / 11)).all fun k => z.ownerOf (c.first / 11 + k) = c.owner)) &&
  (!c.tagged || c.kind = 2 || c.kind = 3)

/-- The content conditions of R57. -/
def Zcfg.ok (z : Zcfg) : Bool :=
  -- fields
  decide (z.fields.length = 80) && ((List.range 80).all fun f => z.fields.any fun r => r.field = f) &&
  (z.fields.all fun r => r.inst = 0xFF || z.hasInst r.inst) &&
  -- instances
  distinct (z.insts.map (·.inst)) && distinct (z.insts.map fun r => (r.port, r.pasid)) &&
  (z.insts.all fun r =>
    decide (r.inst ≤ 63) && decide (r.port ≤ 1) && decide (1 ≤ r.granSize) && decide (r.granBase + r.granSize ≤ 12288) &&
    !(z.fieldsOf r.inst).isEmpty && (r.classA = 0xFF || decide (r.classA ≤ (z.fieldsOf r.inst).length))) &&
  disjoint (z.insts.map fun r => (r.granBase, r.granBase + r.granSize)) &&
  decide ((z.insts.map (·.quota)).sum ≤ 16384) &&
  -- pan
  z.carves.all (carveRecOk z) && carvesDisjoint z.carves &&
  decide (2560 * granule ≤ ((z.carves.filter fun c => c.kind = 4).map fun c => (c.last + 1 - c.first) * c.size).sum) &&
  -- base slots
  decide (z.slots.length = 4) && distinct (z.slots.map (·.slot)) &&
  (z.slots.all fun r =>
    decide (r.slot ≤ 3) && (if r.fork then z.hasInst r.owner else r.owner = 0xFF) &&
    ((List.range 64).all fun i => !bit r.readers i || z.hasInst i)) &&
  decide ((z.slots.filter (·.fork)).length ≤ 2) &&
  -- semaphores
  (z.sems.all fun r =>
    z.hasInst r.inst && decide (r.field ≤ 79) && z.ownerOf r.field = r.inst && decide (1 ≤ r.count) &&
    decide (r.vbase + r.count ≤ 65536) && decide (r.pbase + r.count ≤ 4096)) &&
  disjoint (z.sems.map fun r => (r.inst * 65536 + r.vbase, r.inst * 65536 + r.vbase + r.count)) &&
  disjoint (z.sems.map fun r => (r.field * 4096 + r.pbase, r.field * 4096 + r.pbase + r.count)) &&
  -- rates
  distinct (z.rates.map (·.region)) &&
  (z.rates.all fun r =>
    decide (r.region ≤ 87) && (r.target = 0 || (decide (800 ≤ r.target) && decide (r.target ≤ 1550))) &&
    decide (600 ≤ r.vTarget) && decide (r.vTarget ≤ 900) && decide (r.vTarget ≤ r.vCeiling) && decide (r.vCeiling ≤ 900)) &&
  -- links
  decide (z.links.length = 6) && distinct (z.links.map (·.link)) && (z.links.all fun r => decide (r.link ≤ 5)) &&
  decide ((z.links.filter (·.upstream)).length ≤ 1) && (z.links.all fun r => !(r.upstream && r.downstream))

/-! ### Validation in order (R57) -/

/-- The image digest: of the signed span, which ends before the signature (R44). -/
def imageDigest (b : List Byte) : BitVec 512 := Config.sha512 (b.take (zTotal b - 64))

/-- Whether the signature in the last 64 bytes of an image is the signer's over its digest (R43, R44). -/
def zSigned (b : List Byte) : Bool := Config.ed25519 (zSigner b) (imageDigest b) (slice b (zTotal b - 64) 64)

/-- Groups 1 to 3 of R57, and reserved parts of records. -/
def zChecks (b : List Byte) (extends' : Option Nat) (key : Option (List Byte)) : Nat :=
  if !zFormatOk b extends' then resBadFormat
  else if key ≠ some (zSigner b) ∨ zSigned b = false then resBadSignature
  else if leAt b 0x10 2 ≠ 0xF880 ∨ leAt b 0x12 1 > 0xB0 then resWrongPart
  else if !reservedOk b then resInvalidContent
  else resOk

/-- A full image validated (R57); the records when it passes. -/
def zValidateFull (b : List Byte) (key : Option (List Byte)) : Nat × Zcfg :=
  let r := zChecks b none key
  if r ≠ 0 then (r, {}) else if (zFull b).ok then (0, zFull b) else (resInvalidContent, {})

/-! ### Partial images (R73, R74) -/

/-- The fields in scope (R56). DEDUCED (log 32). -/
def zScope (b : List Byte) : List Nat :=
  let v := leAt (((zRecords b 8).getD []).getD 0 []) 0 10
  (List.range 80).filter fun f => bit v f

/-- Maximal runs of positions from lo to hi that are kept; `n` positions remain. -/
def runs (keep : Nat → Bool) (start : Option Nat) (p : Nat) : Nat → List (Nat × Nat)
  | 0 => match start with
    | some a => [(a, p - 1)]
    | none => []
  | n + 1 =>
    if keep p then runs keep (some (start.getD p)) (p + 1) n
    else
      match start with
      | some a => (a, p - 1) :: runs keep none (p + 1) n
      | none => runs keep none (p + 1) n

/-- A region without the positions in scope. -/
def carveOutside (scope : List Nat) (c : CarveRec) : List CarveRec :=
  if c.kind = 0 then [c]
  else (runs (fun p => !scope.contains (p / 11)) none c.first (c.last + 1 - c.first)).map fun r =>
    { c with first := r.1, last := r.2 }

/-- The configuration in effect with a partial image merged into it (R73). Records listed replace those of the same
number; PAN_CARVE and SEMAPHORE records replace every non-BASE region and every range in scope; an instance left without
a field is removed. DEDUCED (log 32). -/
def Zcfg.merge (z : Zcfg) (b : List Byte) : Zcfg :=
  let scope := zScope b
  let fs := ((zRecords b 2).getD []).map fieldOf
  let is := ((zRecords b 1).getD []).map instOf
  let rs := ((zRecords b 6).getD []).map rateOf
  let fields := (z.fields.filter fun r => !(fs.any fun x => x.field = r.field)) ++ fs
  let z1 : Zcfg := { z with fields := fields }
  let insts := (z.insts.filter fun r =>
    !(is.any fun x => x.inst = r.inst) && !(z1.fieldsOf r.inst).isEmpty) ++ is
  let carves :=
    match zRecords b 3 with
    | none => z.carves
    | some cs => (z.carves.map (carveOutside scope)).flatten ++ cs.map carveOf
  let sems :=
    match zRecords b 5 with
    | none => z.sems
    | some ss => (z.sems.filter fun r => !scope.contains r.field) ++ ss.map semOf
  let rates := (z.rates.filter fun r => !(rs.any fun x => x.region = r.region)) ++ rs
  { z1 with insts := insts, carves := carves, sems := sems, rates := rates }

/-- Whether the RESERVE regions of the positions in scope stay as they are (R73). DEDUCED (log 32). -/
def reserveKept (z z' : Zcfg) (scope : List Nat) : Bool :=
  let rs (z : Zcfg) (p : Nat) : List (Nat × Nat) :=
    (z.carves.filter fun c => c.kind = 4 && c.first ≤ p && p ≤ c.last).map fun c => (c.offset, c.size)
  scope.all fun f => (List.range 11).all fun k =>
    let p := 11 * f + k
    (rs z p).all (fun x => (rs z' p).contains x) && (rs z' p).all (fun x => (rs z p).contains x)

/-- Records of a partial image only name what lies in scope (R73). -/
def partialInScope (z z' : Zcfg) (b : List Byte) : Bool :=
  let scope := zScope b
  let inS (i : Nat) : Bool := (z.fieldsOf i).all scope.contains && (z'.fieldsOf i).all scope.contains
  (((zRecords b 2).getD []).map fieldOf).all (fun r => scope.contains r.field) &&
  (((zRecords b 1).getD []).map instOf).all (fun r => inS r.inst) &&
  (((zRecords b 3).getD []).map carveOf).all (fun c =>
    c.kind ≠ 0 && decide (c.first ≤ c.last) && decide (c.last ≤ 879) &&
    (List.range (c.last / 11 + 1 - c.first / 11)).all fun k => scope.contains (c.first / 11 + k)) &&
  (((zRecords b 5).getD []).map semOf).all (fun r => scope.contains r.field) &&
  (((zRecords b 6).getD []).map rateOf).all (fun r => decide (r.region < 80) && scope.contains r.region) &&
  distinct ((((zRecords b 2).getD []).map fieldOf).map (·.field)) && reserveKept z z' scope

/-- Whether an instance owns fields both inside and outside scope (R73). -/
def scopeSplit (z : Zcfg) (scope : List Nat) : Bool :=
  z.insts.any fun r =>
    (z.fieldsOf r.inst).any scope.contains && (z.fieldsOf r.inst).any fun f => !scope.contains f

/-- The record of an instance. -/
def Zcfg.instRec? (z : Zcfg) (i : Nat) : Option InstRec := z.insts.find? fun r => r.inst = i

/-- Whether an instance changes in PORT and PASID alone (R75). -/
def adopted (z z' : Zcfg) (i : Nat) : Bool :=
  match z.instRec? i, z'.instRec? i with
  | some a, some b => (a.port ≠ b.port || a.pasid ≠ b.pasid) && ({ a with port := b.port, pasid := b.pasid } : InstRec) = b
      && z.fieldsOf i = z'.fieldsOf i
  | _, _ => false

/-- The instances that must be idle (R74): removed, changed in more than PORT and PASID, or gaining or losing fields. -/
def mustBeIdle (z z' : Zcfg) : List Nat :=
  (List.range 64).filter fun i =>
    match z.instRec? i, z'.instRec? i with
    | some _, none => true
    | some a, some b => (a ≠ b && !adopted z z' i) || z.fieldsOf i ≠ z'.fieldsOf i
    | _, _ => false

/-- A partial image validated against the configuration in effect (R57, R73), without the checks of R74 and R67. -/
def zValidatePartial (z : Zcfg) (b : List Byte) (fullSeq : Nat) (key : Option (List Byte)) : Nat × Zcfg :=
  let r := zChecks b (some fullSeq) key
  if r ≠ 0 then (r, {})
  else
    let z' := z.merge b
    let scope := zScope b
    if scopeSplit z scope || scopeSplit z' scope then (resScopeSplit, {})
    else if !partialInScope z z' b || !z'.ok then (resInvalidContent, {})
    else (0, z')

end Sys2Proof.Machine
end

