-- ==== Sys2Proof/Machine/Fence.lean ====
section
/-! DEFINITION. The fence map: positions, renaming and retired columns (R13 to R15, R413, R416, R417, R425), alerts and
the black-box trigger (R422, R457), which several families share. -/

namespace Sys2Proof.Machine

/-! ### Positions -/

/-- Set the state code of a position. -/
def FenceMap.setCode (m : FenceMap) (p code : Nat) : FenceMap := { m with code := Tab.put 0 p code m.code }

/-- Set the position of logical core k of field f. -/
def FenceMap.setLogical (m : FenceMap) (f k : Nat) (q : Option Nat) : FenceMap :=
  { m with logical := Tab.put (some (11 * f + k)) (10 * f + k) q m.logical }

/-- The lowest unfenced positions of a field take logical cores 0 to 9 in order, and one left over is the spare (R13). -/
def FenceMap.place (m : FenceMap) (f : Nat) : FenceMap :=
  let free := ((List.range 11).map (11 * f + ·)).filter fun p => decide (Tab.get 0 m.code p < 2)
  let m := (List.range 10).foldl (fun m k => m.setLogical f k free[k]?) m
  free.zipIdx.foldl (fun m x => m.setCode x.1 (if x.2 < 10 then 0 else 1)) m

/-- The field switch renames the spare into a fenced core's logical number, or leaves it absent (R14). -/
def State.renameCore (s : State) (p : Nat) : State :=
  match s.logicalOf p with
  | none => s
  | some k =>
    let f := p / 11
    match s.spareOf f with
    | some q => { s with fence := (s.fence.setCode q 0).setLogical f k (some q) }
    | none => { s with fence := s.fence.setLogical f k none }

/-- A position becomes FENCED in the fence map in effect (R413). -/
def State.fencePos (s : State) (p code : Nat) : State := { s with fence := s.fence.setCode p code }

/-! ### Retired columns (R416, R417) -/

/-- The granules of a column that a region of kind RESERVE covers, or another kind. -/
def State.granulesOf (s : State) (p : Nat) (reserve : Bool) : List Nat :=
  (List.range 224).filter fun g => (s.carveAt p (g * granule)).any fun c => (c.kind = 4) = reserve

/-- Free RESERVE granules from the position after p on, wrapping past 879 (R416). DEDUCED (log 33). -/
def State.freeReserve (s : State) (p : Nat) : List Nat :=
  let used := s.fence.remap.filterMap (·.2)
  (((List.range 879).map fun k => (p + 1 + k) % 880).filter fun q => !s.fence.retired.contains q).flatMap fun q =>
    ((s.granulesOf q true).map (224 * q + ·)).filter fun g => !used.contains g

/-- Every block of a granule is uncorrectable until it is rebuilt (R417). -/
def State.unbuilt (s : State) (g : Nat) : State :=
  { s with panUe := (List.range 16384).foldl (fun t k => Tab.put false (panCell (g * granule + 64 * k) / 64) true t) s.panUe }

/-- Map a granule to its target; with no target left it stays unmapped and COLUMN_UNMAPPED is recorded.
DEDUCED (log 33). -/
def State.remapGranule (s : State) (p : Nat) (x : Nat × Option Nat) : State :=
  let s := { s with fence := { s.fence with remap := Tab.put (some x.1) x.1 x.2 s.fence.remap } }
  match x.2 with
  | some g => s.unbuilt g
  | none => s.event (posUnit p 7) 0x15 (x.1 % 224 * granule) (s.fieldConfid (p / 11))

/-- A column is retired in the fence map in effect, and its granules remapped (R416). Granules of other retired columns
that were remapped into it move on too. DEDUCED (log 33). -/
def State.retireColumn (s : State) (p : Nat) : State :=
  if s.fence.retired.contains p ∨ 880 ≤ p then s
  else
    let full := decide (16 ≤ s.fence.retired.length)
    let moved := s.fence.remap.filterMap fun e => if e.2.any fun g => g / 224 = p then some e.1 else none
    let need := (s.granulesOf p false).map (224 * p + ·) ++ moved
    let s := { s with fence := { s.fence with retired := s.fence.retired ++ [p] } }
    let lo := p * columnBytes
    let s := { s with
      pan := Tab.clearIf (fun a => lo ≤ a && a < lo + columnBytes) s.pan
      panUe := Tab.clearIf (fun b => lo ≤ b * 64 && b * 64 < lo + columnBytes) s.panUe }
    let free := if full then [] else s.freeReserve p
    (need.zipIdx.map fun x => (x.1, free[x.2]?)).foldl (fun s x => s.remapGranule p x) s

/-! ### Fence-map copies (R425) -/

/-- The 16 KiB copy that describes the fence map in effect. -/
def FenceMap.bytes (m : FenceMap) (seq : Nat) : List Byte :=
  let kept := m.retired.take 16
  let body : List Byte :=
    leBytes 1 kept.length ++ List.replicate 55 (0 : Byte) ++
    ((List.range 880).map fun p => (BitVec.ofNat 8 (Tab.get 0 m.code p) : Byte)) ++
    ((List.range 880).map fun p => if m.retired.contains p then (1 : Byte) else 0) ++ List.replicate 224 (0 : Byte) ++
    ((List.range 16).flatMap fun t =>
      (List.range 224).flatMap fun g =>
        match kept[t]? with
        | none => List.replicate 4 (0 : Byte)
        | some p =>
          match Tab.get (some (224 * p + g)) m.remap (224 * p + g) with
          | some x => if x = 224 * p + g then leBytes 4 p else leBytes 4 (p + x / 224 * 2 ^ 10 + x % 224 * 2 ^ 20 + 2 ^ 31)
          | none => leBytes 4 p)
  leBytes 4 seq ++ leBytes 4 (crc32 body) ++ body

/-- Whether a stored copy's CRC is good; a blank copy is no copy. -/
def fenceCopyOk (bs : List Byte) : Bool := leAt bs 0 4 ≠ 0 && crc32 (bs.drop 8) = leAt bs 4 4

/-- The fence map that a copy describes, with the logical cores placed under R13. -/
def FenceMap.ofBytes (bs : List Byte) : FenceMap :=
  let code : Tab Nat := (List.range 880).filterMap fun p =>
    let c := leAt bs (0x40 + p) 1
    if c = 0 then none else some (p, c)
  let n := min 16 (leAt bs 8 1)
  let entry (t g : Nat) : Nat := leAt bs (0x800 + t * 896 + 4 * g) 4
  let retired := (List.range n).map fun t => bits (entry t 0) 9 0
  let remap := (List.range n).flatMap fun t => (List.range 224).map fun g =>
    let e := entry t g
    (224 * bits e 9 0 + g, if bit e 31 then some (224 * bits e 19 10 + bits e 27 20) else none)
  let m : FenceMap :=
    { code := code, retired := retired, remap := remap.foldl (fun t x => Tab.put (some x.1) x.1 x.2 t) [] }
  (List.range 80).foldl (fun m f => m.place f) m

/-! ### Alerts and the black box (R422, R457) -/

/-- Set a bit of MGT_ALERT; ALERT# and vector 64 of each port are asserted (R362, R457). -/
def State.alert (s : State) (b : Nat) : State :=
  let s := { s with mgt := { s.mgt with alert := s.mgt.alert ||| BitVec.ofNat 5 (2 ^ b) } }
  (s.fire 0 64).fire 1 64

/-- A trigger of the black box (R422): the ring freezes and a dump begins; one that runs records the cause. A fatal event
or a thermal trip stops all work and asserts FAULT# (R424). `causes` is a bit set: 1 fatal, 2 thermal trip, 4 input. -/
def State.blackBox (s : State) (causes fatal : Nat) : State :=
  let m := s.mgt
  let s :=
    if m.dumping then
      { s with mgt := { m with causes := m.causes ||| causes, fatal := if m.fatal = 0 then fatal else m.fatal } }
    else
      { s with
        mgt := { m with dumping := true, ringFrozen := true, causes := causes, fatal := fatal, freezeTb := s.tb.count }
        nvs := match s.nvs.op with
          | some o => if o.op = 3 ∨ o.op = 4 then { s.nvs with op := none } else s.nvs
          | none => s.nvs }
  if causes % 4 = 0 then s else { s with mgt := { s.mgt with faultPin := true, stopped := true } }

end Sys2Proof.Machine
end

