-- ==== Sys2Proof/Machine/Nvs.lean ====
section
/-! DEFINITION. NVS operations and re-layout (R31, R32, R59 to R69, R73 to R77). -/

namespace Sys2Proof.Machine

/-! ### Rates and instances -/

/-- rate_at of R330: the region's own curve at 70 °C, changed by 0.15 % for each kelvin. -/
def rateAt (r mv t : Nat) : Nat := ((Config.rateCurve r mv : Int) * (10000 - 15 * ((t : Int) - 70)) / 10000).toNat

/-- Starting supply of a region (R54). -/
def Zcfg.vTarget (z : Zcfg) (r : Nat) : Nat := ((z.rates.find? fun x => x.region = r).map (·.vTarget)).getD 750
def Zcfg.vCeiling (z : Zcfg) (r : Nat) : Nat := ((z.rates.find? fun x => x.region = r).map (·.vCeiling)).getD 900
def Zcfg.rateTarget (z : Zcfg) (r : Nat) : Nat := ((z.rates.find? fun x => x.region = r).map (·.target)).getD 0

/-- Regions take their targets, and their rates are measured (R64, R70); a value not given is that of the curve. -/
def State.applyRates (s : State) (regions : List Nat) (values : List Nat) : State :=
  regions.foldl
    (fun s r => s.updRegion r fun g =>
      let mv := s.zen.vTarget r
      { g with mv := mv, rate := values.getD r (rateAt r mv g.temp), aboveSince := none })
    s

/-! ### Caps and floors (R333, R444, R445) -/

/-- The least cap in force on a field; none without a cap (R444, R445). -/
def State.capOf (s : State) (f : Nat) : Option Nat :=
  let c := (s.field f).caps
  let pin := if s.mgt.pin then some (max 800 s.mgt.throttleRate.toNat) else none
  [c.refresh, c.thermal, c.power, pin].foldl
    (fun m x =>
      match m, x with
      | some a, some b => some (min a b)
      | none, b => b
      | a, none => a)
    none

/-- Cut a rate to the cap of its field. DEDUCED (log 54). -/
def State.capped (s : State) (f x : Nat) : Nat :=
  match s.capOf f with
  | some c => min x c
  | none => x

/-- The floor rate F(f, H) of R333 in M beats/s, with H in ns. The warming is counted in nK, so that the result is exact. -/
def State.floorRate (s : State) (f h : Nat) : Nat :=
  let g := s.region f
  let k := 10000000000000 - 15 * min (2 * h) ((s.adm.tjCap - g.temp) * 1000000000)
  let own := g.rate * k / 10000000000000
  let target := s.zen.rateTarget f
  s.capped f
    (if target = 0 then own
     else
       let ceil := Config.rateCurve f (s.zen.vCeiling f) * (11050 - 15 * g.temp) * k / 100000000000000000
       let x := min target ceil
       if 1000 * g.rate < 995 * target then min x own else x)

/-- One second, the horizon of the registers of R355. -/
def second : Nat := 1000000000

/-- Regions take their targets; one whose supply changes stops for the change (R34, R332). -/
def State.changeRates (s : State) (regions : List Nat) : State :=
  let moved := regions.filter fun r => (s.region r).mv ≠ s.zen.vTarget r
  let s := (moved.foldl (fun s r => s.stopRegion r 3) s).applyRates regions []
  moved.foldl (fun s r => s.resumeRegion r 3) s

/-- The floors over one second are computed for the first time (R64, R70). -/
def State.firstFloors (s : State) : State :=
  (List.range 80).foldl (fun s f => s.updRegion f fun g => { g with floor := s.floorRate f second }) s

/-! ### Instances and links -/

/-- Values are drawn from the random source (R382). -/
def State.drawn (s : State) (n : Nat) : State :=
  { s with sec := { s.sec with draws := s.sec.draws + n, sinceReseed := s.sec.sinceReseed + n } }

/-- New granary and transport keys of an instance: two values for the granary key, one for the private transport key (R381, R383);
none from a source that has failed (R382). -/
def State.newKeys (s : State) (i : Nat) : State :=
  if s.sec.rngFail then s
  else
    let d := s.sec.draws
    (s.updInst i fun x => { x with keyGen := x.keyGen + 1, granKey := some d, transKey := some (d + 2) }).drawn 3

/-- The 32 bytes of a value of the random source (R382). -/
def drawBytes (n : Nat) : List Byte := leBytes 32 (Config.drbg n).toNat

/-- The public transport key of an instance, or nothing while it has none (R383, R393). -/
def State.transportKey (s : State) (i : Nat) : List Byte :=
  ((s.inst i).transKey.map fun d => padTo 32 (Config.x25519Public (drawBytes d))).getD []

/-- An instance's sessions on every link are destroyed (R287, R376, R387). -/
def State.endSessions (s : State) (i : Nat) : State :=
  { s with links := Tab.mapAll {} (fun _ l => { l with sessions := l.sessions.filter fun x => x.inst ≠ i }) s.links }

/-- Zero the carved regions that a test picks (R76, R376, R395). -/
def State.zeroCarves (s : State) (own : CarveRec → Bool) : State :=
  (s.zen.carves.filter own).foldl
    (fun s c => (List.range (c.last + 1 - c.first)).foldl (fun s k => s.panZero (c.first + k) c.offset c.size) s) s

/-- Whether a carved region is the BASE region of a fork slot of an instance. -/
def State.forkCarve (s : State) (i : Nat) (c : CarveRec) : Bool :=
  c.kind = 0 && (s.slotRec? c.owner).any fun r => r.fork && r.owner = i

/-- Create an instance: its granary and transport keys are generated (R383); its number's notices are counted since cold start
(R355). -/
def State.createInst (s : State) (i : Nat) : State :=
  let x := s.inst i
  let y : Inst :=
    { state := .active, breaches := x.breaches, overruns := x.overruns, keyGen := x.keyGen }
  ({ s with insts := Tab.put {} i y s.insts } : State).newKeys i

/-- An entry becomes FREE and its generation advances, from 255 to 1 (R211). -/
def Entry.release (e : Entry) : Entry := { ({} : Entry) with gen := if e.gen = 255 then 1 else e.gen + 1 }

/-- Remove an instance: its keys and sessions are destroyed, its catalogue entries and training records are gone, and its fork slots are
EMPTY (R76, R272, R395). -/
def State.removeInst (s : State) (i : Nat) : State :=
  let x := s.inst i
  let s := s.endSessions i
  let s := ((s.zen.slots.filter fun r => r.fork && r.owner = i).map (·.slot)).foldl (fun s k => s.updSlot k fun _ => {}) s
  { s with
    insts := Tab.put {} i { ({} : Inst) with keyGen := x.keyGen, breaches := x.breaches, overruns := x.overruns } s.insts
    cat := s.cat.map fun e => if e.2.inst = i ∧ e.2.state ≠ .free then (e.1, e.2.release) else e
    train := s.train.filter fun e => e.2.inst ≠ i
    upd := { s.upd with
      queue := s.upd.queue.filter fun u => (s.train1 u.index).inst ≠ i
      run := s.upd.run.filter fun u => (s.train1 u.index).inst ≠ i } }

/-- A link begins to train, or is disabled: what it had of an earlier training is gone (R288, R311). -/
def Link.begin (l : Link) (st : LinkState) : Link :=
  { l.clear with state := st, cause := 0, downSince := none, lostPosted := false }

/-- Links whose records have ENABLED set train (R64, R288). -/
def State.startLinks (s : State) : State :=
  (List.range 6).foldl
    (fun s n => s.updLink n fun l =>
      l.begin (if (s.linkRec? n).any (·.enabled) && !l.disable then .training else .disabled)) s

/-- All pan and granary zeroed (R64, R70). -/
def State.zeroAll (s : State) : State := { s with pan := [], panUe := [], tags := [], gran := [], granUe := [] }

/-! ### Commands (R62, R67, R68) -/

/-- A command while one runs is ignored and sets REFUSED (R67). -/
def State.nvsStart (s : State) (o : NvsOp) : State :=
  if !s.bar0 || !s.working then s
  else if s.nvs.op.isSome then { s with nvs := { s.nvs with refused := true } }
  else { s with nvs := { s.nvs with op := some o } }

/-- End the running operation with a result. -/
def State.nvsEnd (s : State) (r : Nat) : State := { s with nvs := { s.nvs with op := none, result := r } }

/-- Read an image from the host: LOAD_FULL and APPLY_PARTIAL (R62, R63). A length above 0x30_0000 and an address that is no multiple
of 64 are read as they stand: R68 says no more than that they are not. DESIGN CHOICE (log 92). -/
def doNvsRead (op port : Nat) (v : BitVec 32) (s : State) : State :=
  if fld v 3 0 ≠ op then s
  else
    let a := s.nvs.srcAddr.toNat
    let n := s.nvs.srcLen.toNat
    let t := s.nvsStart { op := op, slot := 0, calibration := false, fenceMap := false, port := port, addr := a, len := n }
    if s.nvs.op.isNone && t.nvs.op.isSome then t.fetch port none .image a n else t

/-- Images stored one behind the other, each from a 64-byte boundary (R59). -/
def packImages : List (List Byte) → List Byte
  | [] => []
  | b :: bs => padTo (ceilDiv b.length 64 * 64) b ++ packImages bs

/-- The images a STORE writes. DEDUCED (log 31). -/
def State.storeImages (s : State) (op : Nat) : List (List Byte) :=
  if op = 4 then s.nvs.staged.toList else if s.nvs.full.isEmpty then [] else s.nvs.full :: s.nvs.partials

/-- Whether an accepted operator key record waits to be stored (R390). -/
def State.keyPending (s : State) : Bool := s.sec.opKey.any fun k => !k.stored

/-- The NVS areas a STORE touches and their cycle counts (R66): 0 slot A, 1 slot B, 2 calibration, 3 fence map,
4 identity. DEDUCED (log 31). -/
def State.storeAreas (s : State) (o : NvsOp) : List (Nat × Nat) :=
  (if (s.storeImages o.op).isEmpty then [] else if o.slot = 0 then [(0, s.nvs.cycSlotA)] else [(1, s.nvs.cycSlotB)]) ++
  (if o.calibration then [(2, s.nvs.cycCal)] else []) ++ (if o.fenceMap then [(3, s.nvs.cycFence)] else []) ++
  (if s.keyPending then [(4, s.nvs.cycIdent)] else [])

/-- STORE_EFFECTIVE and STORE_STAGED begin (R62, R65, R66): the slot's header is made invalid first.
DEDUCED (log 31). -/
def doStore (op port : Nat) (v : BitVec 32) (s : State) : State :=
  if fld v 3 0 ≠ op then s
  else
    let o : NvsOp := { op := op, slot := fld v 4 4, calibration := bit v.toNat 8, fenceMap := bit v.toNat 9, port := port,
                       addr := 0, len := 0 }
    let s1 := s.nvsStart o
    if s1.nvs.op ≠ some o ∨ s.nvs.op.isSome then s1
    else if op = 4 ∧ s.nvs.staged.isNone then s1.nvsEnd resNothingStaged
    else if (packImages (s.storeImages op)).length > 0x300000 then s1.nvsEnd resNoSpace
    else if (s.storeAreas o).any fun a => decide (10000 ≤ a.2) then s1.nvsEnd resWorn
    else if (s.storeImages op).isEmpty then s1
    else { s1 with nvs := { s1.nvs with mem := Memory.zero s1.nvs.mem (o.slot * 0x300000) 64 } }

/-- Count one write cycle of an area; at 9,000 NVS_WEAR is recorded (R66). -/
def State.wear (s : State) (a : Nat × Nat) : State :=
  let n := a.2 + 1
  let x := s.nvs
  let s := { s with nvs :=
    if a.1 = 0 then { x with cycSlotA := n } else if a.1 = 1 then { x with cycSlotB := n }
    else if a.1 = 2 then { x with cycCal := n } else if a.1 = 3 then { x with cycFence := n } else { x with cycIdent := n } }
  if n = 9000 then s.event nvsUnit 0x61 a.1 false else s

/-- The identity area's record of the operator key (R390, log 19). -/
def keyRecordAt : Nat := 0x6AFF80

/-- Write bytes to the NVS. -/
def Nvs.write (x : Nvs) (a : Nat) (bs : List Byte) : Nvs := { x with mem := Memory.write x.mem a bs }

/-- Calibration bytes that fit a copy (R31, R65). -/
def calRoom : Nat := 0x40000 - 12

/-- NVS_WRITE_COMPLETE (R65, R66): body, then header; alternating copies of calibration and fence map. A staged image stays held
after a STORE, and after a later image is applied, until reset: R62 does not say when it ceases to be. DESIGN CHOICE (log 92). -/
def doNvsWriteComplete (s : State) : State :=
  match s.nvs.op with
  | none => s
  | some o =>
    if (o.op ≠ 3 ∧ o.op ≠ 4) ∨ s.working = false then s
    else
      let areas := s.storeAreas o
      let imgs := s.storeImages o.op
      let base := o.slot * 0x300000
      let x := s.nvs
      let x := if imgs.isEmpty then x else ({ x with mem := Memory.zero x.mem base 0x300000 }).write base (packImages imgs)
      let x :=
        if o.calibration then
          let q := x.calSeq + 1
          let cal := x.calibration.take calRoom
          let body := leBytes 4 cal.length ++ cal
          { x.write (0x600000 + q % 2 * 0x40000) (leBytes 4 q ++ leBytes 4 (crc32 body) ++ body) with calSeq := q }
        else x
      let x :=
        if o.fenceMap then
          let q := x.fenceSeq + 1
          { x.write (0x680000 + q % 2 * 0x4000) (s.fence.bytes q) with fenceSeq := q }
        else x
      let x := match s.sec.opKey with
        | some k => if k.stored then x else x.write keyRecordAt (padTo 128 k.raw)
        | none => x
      let s := { s with nvs := x, sec := { s.sec with opKey := s.sec.opKey.map fun k => { k with stored := true } } }
      (areas.foldl State.wear s).nvsEnd resOk

/-! ### IMAGE_READ_COMPLETE (R63, R64, R67, R73 to R76) -/

/-- The operator key in effect (R44). -/
def State.key (s : State) : Option (List Byte) := s.sec.opKey.map (·.key)

/-- The instance for which the device reads host memory. -/
def State.useInst (s : State) (u : HostUse) : Option Nat :=
  match u with
  | .copy p _ _ _ => some (s.core p).inst
  | .flush p _ _ => some (s.core p).inst
  | .attest i _ _ => some i
  | .snap x _ => some (s.train1 x).inst
  | .fetch f _ => (s.fetches.find? fun g => g.id = f).bind (·.inst)
  | .stream => none
  | .report _ => none
  | .box => none

/-- Whether an instance has a transfer outstanding: a token, a copy descriptor, a link request, a request of a host port, a page-in
or a load, a fork copy, a stage-in, an update, a refresh or a snapshot (R74, R376). -/
def State.transfers (s : State) (i : Nat) : Bool :=
  (s.net.any fun t => t.inst = i) ||
  (s.cores.any fun e => e.2.inst = i && !(e.2.ce0.act.isEmpty && e.2.ce1.act.isEmpty)) ||
  (s.links.any fun e => e.2.reqs.any fun r => r.inst = i) ||
  (s.ports.any fun e => (e.2.reqs ++ e.2.asks).any fun r => s.useInst r.use = some i) ||
  (s.cat.any fun e => e.2.inst = i && (e.2.started || e.2.loading)) ||
  (s.thr.slots.any fun e => e.2.copyFrom.any fun x => x.2.1 = i) ||
  !(s.inst i).stageIn.isEmpty ||
  (s.upd.run.any fun u => (s.train1 u.index).inst = i) ||
  (s.train.any fun e => e.2.inst = i && (e.2.refreshTo.isSome || !e.2.snaps.isEmpty))

/-- Whether an instance has work in the sense of R74: a request context in use, which an undecided job does not have, or a transfer
outstanding. -/
def State.instBusy (s : State) (i : Nat) : Bool :=
  (s.jobs.any fun j => j.inst = i && j.phase ≠ .undecided) || s.transfers i

/-- FULL_IMAGE_APPLY begins (R64): admission refuses commits, base slots become EMPTY, pan and granary are zeroed. -/
def State.applyFull (s : State) (b : List Byte) (z : Zcfg) : State :=
  { s.zeroAll with
    adm := { s.adm with refusing := true }
    thr := { s.thr with slots := [] }
    nvs := { s.nvs with relayout := some { image := b, cfg := z, scope := [], full := true } } }

/-- PARTIAL_RELAYOUT begins (R75, R76): fields in scope stop; instances that change only their binding drain. -/
def State.applyPartial (s : State) (b : List Byte) (z : Zcfg) : State :=
  let scope := zScope b
  let s := scope.foldl (fun s f => s.stopRegion f 4) s
  let ad := (List.range 64).filter fun i => adopted s.zen z i
  let s := ad.foldl
    (fun s i =>
      let lim := ((s.instRec? i).map (·.drainMs)).getD 1000
      s.updInst i fun x =>
        { x with state := .adopting, drainAt := s.tb.count + lim * 1000000,
                 adopt := (z.instRec? i).map fun r => (r.port, r.pasid) })
    s
  { s with nvs := { s.nvs with relayout := some { image := b, cfg := z, scope := scope, full := false } } }

/-- The instances that a partial image touches: those with a field in scope, before or after it (R363). -/
def touched (z z' : Zcfg) (scope : List Nat) : List Nat :=
  (List.range 64).filter fun i => (z.fieldsOf i ++ z'.fieldsOf i).any scope.contains

/-- IMAGE_READ_COMPLETE: the image, once it is read from the host, is validated, then applied or staged. -/
def doImageReadComplete (s : State) : State :=
  match s.nvs.op.bind fun o => o.got.map fun g => (o, g) with
  | none => s
  | some (o, g) =>
    if (o.op ≠ 1 ∧ o.op ≠ 2) ∨ s.nvs.relayout.isSome ∨ s.working = false then s
    else if !g.1 then s.nvsEnd resHostReadFault
    else
      let b := padTo o.len g.2
      let img := b.take (zTotal b)
      if o.op = 1 then
        let r := zValidateFull b s.key
        if r.1 ≠ 0 then s.nvsEnd r.1
        else if s.sec.debugOpen && r.2.insts.any (·.confidential) then s.nvsEnd resInvalidContent
        else if s.nvs.full ≠ [] ∧ zSequence b < zSequence s.nvs.full then s.nvsEnd resRollback
        else if s.zen.insts.isEmpty then s.applyFull img r.2
        else { s.nvsEnd resOk with nvs := { (s.nvsEnd resOk).nvs with staged := some img } }
      else if s.nvs.full.isEmpty then s.nvsEnd resBadFormat
      else
        let r := zValidatePartial s.zen b (zSequence s.nvs.full) s.key
        if r.1 ≠ 0 then s.nvsEnd r.1
        else if s.sec.debugOpen && (((zRecords b 1).getD []).map instOf).any (·.confidential) then s.nvsEnd resInvalidContent
        else if (touched s.zen r.2 (zScope b)).any fun i => (s.inst i).tdi = 1 then s.nvsEnd resScopeBusy
        else if (mustBeIdle s.zen r.2).any s.instBusy then s.nvsEnd resScopeBusy
        else if s.nvs.partials.any fun x => decide (zSequence b ≤ zSequence x) then s.nvsEnd resRollback
        else s.applyPartial img r.2

/-- FULL_IMAGE_APPLY_COMPLETE (R64). After a halted start-up the device leaves the halt, since its blocks and pages answer from here
on. DEDUCED (log 34). -/
def doFullImageApplyComplete (s : State) : State :=
  match s.nvs.relayout with
  | none => s
  | some r =>
    if !r.full || !s.working then s
    else
      let s := { s with
        zen := r.cfg
        nvs := { s.nvs with relayout := none, full := r.image, partials := [], boot := 3 }
        adm := { s.adm with refusing := s.sec.unlocking.isSome } }
      let s := s.event nvsUnit 0x60 (zSequence r.image) false
      let s := (r.cfg.insts.map (·.inst)).foldl State.createInst s
      let s := (s.changeRates (List.range 88)).firstFloors.startLinks
      let s := { s with mgt := { s.mgt with stage := 9, halted := false } }
      (s.alert 0).nvsEnd resOk

/-- Whether an instance is confidential in a configuration. -/
def Zcfg.confid (z : Zcfg) (i : Nat) : Bool := z.insts.any fun r => r.inst = i && r.confidential

/-- Whether an instance changes its CONFIDENTIAL flag, and so is removed and created anew (R395). -/
def flipped (z z' : Zcfg) (i : Nat) : Bool := z.hasInst i && z'.hasInst i && z.confid i ≠ z'.confid i

/-- Owner of a pan granule: instance, slot or reserve, and whether the instance is confidential (R76, R395). -/
def Zcfg.panOwner (z : Zcfg) (p g : Nat) : Option (Bool × Nat × Bool) :=
  (z.carves.find? fun c =>
    c.first ≤ p && p ≤ c.last && c.offset ≤ g * granule && g * granule < c.offset + c.size).map fun c =>
      (c.kind = 0, c.owner,
        if c.kind = 0 then (z.slots.any fun r => r.slot = c.owner && r.fork && z.confid r.owner)
        else decide (c.kind ≠ 4) && z.confid c.owner)

/-- Zero pan granules, granary units and semaphores that change owner (R76, R321). -/
def State.zeroChanged (s : State) (z : Zcfg) (scope : List Nat) : State :=
  let s := (scope.flatMap fun f => (List.range 11).map (11 * f + ·)).foldl
    (fun s p =>
      ((List.range 224).filter fun g => s.zen.panOwner p g ≠ z.panOwner p g).foldl
        (fun s g => s.panZero p (g * granule) granule) s) s
  let owner (z : Zcfg) (u : Nat) : Option (Nat × Bool) :=
    (z.insts.find? fun r => r.granBase ≤ u && u < r.granBase + r.granSize).map fun r => (r.inst, r.confidential)
  let s := ((List.range 12288).filter fun u => owner s.zen u ≠ owner z u).foldl
    (fun s u => s.granZeroAbs (u * 0x4000000) 0x4000000) s
  let semOwner (z : Zcfg) (k : Nat) : Option (Nat × Bool) :=
    (z.sems.find? fun r => r.field = k / 4096 && r.pbase ≤ k % 4096 && k % 4096 < r.pbase + r.count).map fun r =>
      (r.inst, z.confid r.inst)
  let old := s.zen
  s.semClear fun k => semOwner old k ≠ semOwner z k

/-- RELAYOUT (R76, R77): once zeroing is done every record takes effect in one update and the fields restart.
DEDUCED (log 80). -/
def doRelayout (s : State) : State :=
  match s.nvs.relayout with
  | none => s
  | some r =>
    if r.full || !s.working || (r.scope.any fun f => (s.region f).held.contains 2) then s
    else
      let old := s.zen
      let gone := (old.insts.map (·.inst)).filter fun i => !r.cfg.hasInst i || flipped old r.cfg i
      let s := (s.zeroChanged r.cfg r.scope).zeroCarves fun c => gone.any fun i => s.forkCarve i c
      let s := gone.foldl State.removeInst s
      let keep (x : InstRec) : InstRec :=
        if (s.inst x.inst).state = .adopting then
          match s.instRec? x.inst with
          | some o => { x with port := o.port, pasid := o.pasid }
          | none => x
        else x
      let s := { s with
        zen := { r.cfg with insts := r.cfg.insts.map keep }
        nvs := { s.nvs with relayout := none, partials := s.nvs.partials ++ [r.image] } }
      let s := ((r.cfg.insts.map (·.inst)).filter fun i => !old.hasInst i || flipped old r.cfg i).foldl State.createInst s
      let s := s.event nvsUnit 0x60 (zSequence r.image) false
      let changed := r.scope.filter fun f => (old.rates.find? fun x => x.region = f) ≠ (s.zen.rates.find? fun x => x.region = f)
      let s := s.changeRates changed
      ((r.scope.foldl (fun s f => s.resumeRegion f 4) s).nvsEnd resOk).runAll

/-- ADOPTION (R75): the binding switches once the instance has drained. DEDUCED (log 80). -/
def doAdoption (i : Nat) (s : State) : State :=
  let x := s.inst i
  match x.adopt with
  | none => s
  | some b =>
    if x.state ≠ .adopting || s.instBusy i || s.nvs.relayout.isSome || !s.working then s
    else
      let s := { s with zen := { s.zen with
        insts := mapIf (fun r => r.inst = i) (fun r => { r with port := b.1, pasid := b.2 }) s.zen.insts } }
      s.updInst i fun x => { x with state := .active, adopt := none }

/-- LOAD_FULL (R62). -/
def execLoadFull (port : Nat) (v : BitVec 32) (s : State) : Out := .next (doNvsRead 1 port v s)
/-- APPLY_PARTIAL (R62, R73). -/
def execApplyPartial (port : Nat) (v : BitVec 32) (s : State) : Out := .next (doNvsRead 2 port v s)
/-- STORE_EFFECTIVE (R62). -/
def execStoreEffective (port : Nat) (v : BitVec 32) (s : State) : Out := .next (doStore 3 port v s)
/-- STORE_STAGED (R62). -/
def execStoreStaged (port : Nat) (v : BitVec 32) (s : State) : Out := .next (doStore 4 port v s)
/-- IMAGE_READ_COMPLETE (R63). -/
def execImageReadComplete (s : State) : Out := .next (doImageReadComplete s)
/-- FULL_IMAGE_APPLY_COMPLETE (R64). -/
def execFullImageApplyComplete (s : State) : Out := .next (doFullImageApplyComplete s)
/-- RELAYOUT (R76). -/
def execRelayout (s : State) : Out := .next (doRelayout s)
/-- ADOPTION (R75). -/
def execAdoption (inst : Nat) (s : State) : Out := .next (doAdoption inst s)
/-- NVS_WRITE_COMPLETE (R65). -/
def execNvsWriteComplete (s : State) : Out := .next (doNvsWriteComplete s)

end Sys2Proof.Machine
end

