-- ==== Sys2Proof/Machine/Sealing.lean ====
section
/-! DEFINITION. Sealed images (R384, R385). -/

namespace Sys2Proof.Machine

/-- Chunks of a plaintext of n bytes, and the length of chunk c. -/
def sealChunks (n : Nat) : Nat := ceilDiv n 0x100000
def sealChunk (n c : Nat) : Nat := min 0x100000 (n - c * 0x100000)

/-- The header: PLAIN_BYTES, the recipient, the sender's ephemeral key and the salt. -/
def sealHeader (n : Nat) (recipient ephemeral salt : List Byte) : List Byte :=
  leBytes 4 0x5345414C ++ leBytes 2 1 ++ leBytes 2 0 ++ leBytes 8 n ++ (digestBytes (Config.sha512 recipient)).take 8 ++ leBytes 8 0 ++
  padTo 32 ephemeral ++ padTo 32 salt

/-- The key, from the shared secret. -/
def sealKey (shared salt recipient ephemeral : List Byte) : List Byte := Config.hkdf salt shared (recipient ++ ephemeral) 32

/-- The nonce of chunk c of a plaintext of n bytes. -/
def sealNonce (n c : Nat) : List Byte := leBytes 8 c ++ leBytes 1 (b2n (decide (c + 1 = sealChunks n))) ++ leBytes 3 0

/-- A plaintext sealed to a recipient's public key with an ephemeral private key and a salt. -/
def sealImage (recipient priv salt plain : List Byte) : List Byte :=
  let n := plain.length
  let ephemeral := padTo 32 (Config.x25519Public priv)
  let head := sealHeader n recipient ephemeral salt
  let key := sealKey (Config.x25519 priv recipient) (padTo 32 salt) recipient ephemeral
  head ++ (List.range (sealChunks n)).flatMap fun c =>
    padTo (sealChunk n c + 16) (Config.gcmSeal key (sealNonce n c) head (slice plain (c * 0x100000) (sealChunk n c)))

/-- PLAIN_BYTES of a sealed image. -/
def sealedPlain (b : List Byte) : Nat := leAt b 8 8

/-- The header of a sealed image as R384 has it, for a recipient. -/
def sealedHeadOk (recipient b : List Byte) : Bool :=
  leAt b 0 4 = 0x5345414C && leAt b 4 2 = 1 && leAt b 6 2 = 0 && leAt b 0x18 8 = 0 &&
  slice b 0x10 8 = (digestBytes (Config.sha512 recipient)).take 8

/-- The plaintext of a sealed image for the holder of a transport key pair, none in the cases of R385. -/
def openSealed (recipient priv b : List Byte) : Option (List Byte) :=
  let n := sealedPlain b
  let ephemeral := slice b 0x20 32
  let shared := Config.x25519 priv ephemeral
  let key := sealKey shared (slice b 0x40 32) recipient ephemeral
  let chunk (c : Nat) : Option (List Byte) :=
    (Config.gcmOpen key (sealNonce n c) (slice b 0 96) (slice b (96 + c * 0x100010) (sealChunk n c + 16))).map (padTo (sealChunk n c))
  if sealedHeadOk recipient b && !allZero shared && b.length = 96 + n + 16 * sealChunks n then
    (((List.range (sealChunks n)).map chunk).foldr (fun x acc => x.bind fun p => acc.map (p ++ ·)) (some []))
  else none

end Sys2Proof.Machine
end

