-- ==== Sys2Proof/Machine/Packing.lean ====
section
/-! DEFINITION. Packed rows as byte strings (R181, R184): what the thresher, SNAPSHOT and the granary update engines
write and read outside a core (R190, R191, R200), and the canonical Huffman code of R306. -/

namespace Sys2Proof.Machine

/-! ### Packed rows -/

/-- Codes of one block laid into its code area (R181): code i at bits i * w of the area. -/
def codeArea (f : Nat) (codes : List Nat) : List Byte :=
  let w := fmtBits f
  leBytes (blockBytes f) (codes.zipIdx.foldl (fun v x => v + x.1 % 2 ^ w * 2 ^ (w * x.2)) 0)

/-- Block exponent of a block of exact values (R190). -/
def blockExp (f : Nat) (vs : List Num) : Nat :=
  let m := vs.foldl
    (fun (m : Num) v => match v with
      | .fin n k e => if Num.lt m (Num.fin n k e).abs then (Num.fin n k e).abs else m
      | _ => m) (.fin false 0 0)
  match m with
  | .fin _ k e => packExp f k e
  | _ => 127

/-- One block packed: its codes and exponent (R190, R191). `rnd` gives the rounding of each element. -/
def packOne (f : Nat) (satm : Bool) (rnd : Nat → Rnd) (vs : List Num) : List Nat × Nat :=
  let b := blockExp f vs
  (vs.zipIdx.map fun x => (convertNum f (rnd x.2) satm (x.1.scale (127 - (b : Int)))).1, b)

/-- A row packed (R181, R182, R190, R191). DESIGN CHOICE (log 20). -/
def packRow (f : Nat) (satm : Bool) (rnd : Nat → Rnd) (vs : List Num) : List Byte :=
  let bs := (List.range (blocksOf vs.length)).map fun j =>
    packOne f satm (fun i => rnd (64 * j + i)) ((vs.drop (64 * j)).take 64)
  bs.flatMap (fun x => codeArea f x.1) ++ bs.map fun x => BitVec.ofNat 8 x.2

/-- The exact values of a packed row of `cols` elements (R179, R181). -/
def unpackRow (f cols : Nat) (row : List Byte) : List Num :=
  let c := blockBytes f
  let nb := blocksOf cols
  let w := fmtBits f
  (List.range cols).map fun i =>
    let j := i / 64
    let area := leAt row (c * j) c
    let b := leAt row (c * nb + j) 1
    (decodeNum f (area / 2 ^ (w * (i % 64)) % 2 ^ w)).scale ((b : Int) - 127)

/-- A row of any format of R121 but BIT, from exact values: packed, or code by code (R269). DESIGN CHOICE (log 20). -/
def storeRow (f : Nat) (satm : Bool) (vs : List Num) : List Byte :=
  if isPacked f then packRow f satm (fun _ => .rne) vs
  else vs.flatMap fun v => leBytes (fmtBits f / 8) (convertNum f .rne satm v).1

/-! ### The canonical Huffman code (R306, RFC 1951) -/

/-- First code of each length, from the number of symbols of each length. -/
def huffFirst (lens : List Nat) : Nat → Nat
  | 0 => 0
  | l + 1 => 2 * (huffFirst lens l + (if l = 0 then 0 else (lens.filter fun x => x = l).length))

/-- The code table: length, code, symbol. -/
def huffTable (lens : List Nat) : List (Nat × Nat × Nat) :=
  (lens.zipIdx.filter fun x => x.1 ≠ 0).map fun x =>
    (x.1, huffFirst lens x.1 + ((lens.take x.2).filter fun y => y = x.1).length, x.2)

/-- Whether no two codes of a set of lengths can collide. DEDUCED (log 38). -/
def huffOk (lens : List Nat) : Bool :=
  decide (((lens.filter fun l => l ≠ 0).map fun l => 2 ^ (15 - l)).sum ≤ 2 ^ 15)

/-- Bits of a byte string in the order RFC 1951 reads them. -/
def bitsOf (bs : List Byte) : List Bool := bs.flatMap fun b => (List.range 8).map fun k => b.getLsbD k

/-- Read symbols: `acc` and `len` are the bits of the code read so far, `n` the symbols still to read. -/
def huffRead (tab : List (Nat × Nat × Nat)) : Nat → Nat → Nat → List Bool → Option (List Nat × List Bool)
  | 0, _, _, bits => some ([], bits)
  | _ + 1, _, _, [] => none
  | n + 1, len, acc, b :: bits =>
    let acc := 2 * acc + b2n b
    match tab.find? fun e => e.1 = len + 1 && e.2.1 = acc with
    | some e => (huffRead tab n 0 0 bits).map fun r => (e.2.2 :: r.1, r.2)
    | none => if len + 1 ≥ 15 then none else huffRead tab (n + 1) (len + 1) acc bits
termination_by structural _ _ _ bits => bits

/-- One nibble plane of n codes (R306): its nibbles and the bytes it takes. DEDUCED (log 38). -/
def planeRead (n : Nat) (bs : List Byte) : Option (List Nat × Nat) :=
  match bs with
  | [] => none
  | m :: rest =>
    if m = 0 then
      let k := ceilDiv n 2
      if rest.length < k then none
      else some ((List.range n).map fun i => leAt rest (i / 2) 1 / 16 ^ (i % 2) % 16, 1 + k)
    else if m = 1 then
      let lens := (List.range 16).map fun i => leAt rest (i / 2) 1 / 16 ^ (i % 2) % 16
      if rest.length < 8 ∨ huffOk lens = false then none
      else
        let all := bitsOf (rest.drop 8)
        (huffRead (huffTable lens) n 0 0 all).map fun r => (r.1, 9 + ceilDiv (all.length - r.2.length) 8)
    else none

/-- The planes of one chunk, most significant first: the codes and the bytes taken. -/
def planesRead (n : Nat) : Nat → List Byte → Option (List Nat × Nat)
  | 0, _ => some (List.replicate n 0, 0)
  | k + 1, bs =>
    match planeRead n bs with
    | none => none
    | some p =>
      (planesRead n k (bs.drop p.2)).map fun r => (List.zipWith (fun a b => a * 16 ^ k + b) p.1 r.1, p.2 + r.2)

/-- One chunk of n codes of w bits: its 4-byte length counts the bytes that follow it (R306). DEDUCED (log 38). -/
def chunkRead (w n : Nat) (bs : List Byte) : Option (List Nat × List Byte) :=
  let len := leAt bs 0 4
  if bs.length < 4 + len then none
  else
    match planesRead n (w / 4) ((bs.drop 4).take len) with
    | some r => if r.2 = len then some (r.1, bs.drop (4 + len)) else none
    | none => none

/-- The codes of a wire section, in chunks of 8,192 (R306). -/
def chunksRead (w : Nat) : Nat → Nat → List Byte → Option (List Nat × List Byte)
  | 0, _, bs => some ([], bs)
  | fuel + 1, n, bs =>
    if n = 0 then some ([], bs)
    else
      match chunkRead w (min n 8192) bs with
      | none => none
      | some r => (chunksRead w fuel (n - min n 8192) r.2).map fun q => (r.1 ++ q.1, q.2)

end Sys2Proof.Machine
end

