-- ==== Sys2Proof/Machine/Startup.lean ====
section
/-! DEFINITION. Start-up, reset and the host ports' bring-up (R59, R60, R70 to R72, R379, R390, R441, R447, R448). -/

namespace Sys2Proof.Machine

/-! ### Slot selection (R59, R60) -/

/-- The images stored in a slot (R59): they end at the first 64-byte boundary without MAGIC, or with a TOTAL_LENGTH that no image of
the slot can have, since R59 gives no count of them. DESIGN CHOICE (log 92). -/
def nvsImages (mem : List Host.Cell) (base : Nat) : Nat → Nat → List (List Byte)
  | 0, _ => []
  | fuel + 1, off =>
    let h := Memory.read mem (base + off) 64
    let total := zTotal h
    if leAt h 0 4 = 0x4C414E5A ∧ 128 ≤ total ∧ off + total ≤ 0x300000 then
      Memory.read mem (base + off) total :: nvsImages mem base fuel (off + ceilDiv total 64 * 64)
    else []

/-- The configuration of a slot's images, when the slot is valid (R59). -/
def slotConfig (key : Option (List Byte)) : List (List Byte) → Option Zcfg
  | [] => none
  | full :: parts =>
    let r := zValidateFull full key
    if r.1 ≠ 0 then none
    else
      (parts.foldl
        (fun (acc : Option (Zcfg × Nat)) b =>
          acc.bind fun a =>
            let p := zValidatePartial a.1 b (zSequence full) key
            if p.1 ≠ 0 ∨ zSequence b < a.2 then none else some (p.2, zSequence b + 1))
        (some (r.2, 0))).map (·.1)

/-- The record of the operator key in the identity area (R390). DESIGN CHOICE (log 19). -/
def storedKey (mem : List Host.Cell) : Option OpKey :=
  let raw := Memory.read mem keyRecordAt 128
  if allZero raw then none else some { key := slice raw 0 32, seq := leAt raw 0x20 4, raw := raw, stored := true }

/-- SLOT_SELECTION (R60): the valid slot with the higher SEQUENCE, slot A when equal, else the manager-only state. -/
def State.selectSlot (s : State) : State :=
  let a := nvsImages s.nvs.mem 0 2048 0
  let b := nvsImages s.nvs.mem 0x300000 2048 0
  let va := (slotConfig s.key a).isSome
  let vb := (slotConfig s.key b).isSome
  let seq (x : List (List Byte)) : Nat := (x.head?.map zSequence).getD 0
  let pick (x : List (List Byte)) (boot : Nat) : State :=
    { s with nvs := { s.nvs with full := x.headD [], partials := x.drop 1, boot := boot } }
  if va && (!vb || decide (seq b ≤ seq a)) then pick a 0
  else if vb then pick b 1
  else { s with nvs := { s.nvs with full := [], partials := [], boot := 2 } }

/-- The configuration of the selected images. -/
def State.bootConfig (s : State) : Zcfg :=
  if s.nvs.boot = 2 then {} else s.nvs.partials.foldl (fun z b => z.merge b) (zFull s.nvs.full)

/-! ### Stages (R70, R72) -/

/-- The newest stored copy whose CRC is good: its sequence number and bytes (R65). -/
def newest (a b : List Byte) : Option (List Byte) :=
  match fenceCopyOk a, fenceCopyOk b with
  | true, true => some (if leAt a 0 4 < leAt b 0 4 then b else a)
  | true, false => some a
  | false, true => some b
  | false, false => none

/-- One stored calibration copy: its sequence number, CRC, length and bytes. -/
def calCopy (mem : List Host.Cell) (at' : Nat) : List Byte :=
  Memory.read mem at' (12 + min (0x40000 - 12) (leNat (Memory.read mem (at' + 8) 4)))

/-- The newest good copy of the fence map and of the calibration in the NVS (R65). -/
def newestFence (mem : List Host.Cell) : Option (List Byte) := newest (Memory.read mem 0x680000 0x4000) (Memory.read mem 0x684000 0x4000)
def newestCal (mem : List Host.Cell) : Option (List Byte) := newest (calCopy mem 0x600000) (calCopy mem 0x640000)

/-- Stage 0x4: records, fence map and calibration applied; instances created (R70, R383, R425). -/
def State.applyBoot (s : State) : State :=
  let s := { s with zen := s.bootConfig }
  let s :=
    match newestFence s.nvs.mem with
    | some c => { s with fence := FenceMap.ofBytes c }
    | none => s
  let s :=
    match newestCal s.nvs.mem with
    | some c => { s with nvs := { s.nvs with calibration := c.drop 12 } }
    | none => s
  (s.zen.insts.map (·.inst)).foldl State.createInst s

/-- Stage 0x5: the march test of every position; failing positions are fenced (R72, R111). `values` holds the first
failing bank and 16 times the failing lines, position by position. -/
def State.marchAll (s : State) (bad values : List Nat) : State :=
  let s := { s with cores := [] }
  bad.zipIdx.foldl
    (fun s x =>
      if 880 ≤ x.1 then s
      else
        let d := values.getD x.2 0
        let s := s.updCore x.1 fun c => { c with march :=
          { c.march with fail := true, firstBank := d % 16, failLines := d / 16 % 65536 } }
        let s := s.event (posUnit x.1 6) 0x10 (d % 2 ^ 20) (s.fieldConfid (x.1 / 11))
        if s.fenced x.1 then s
        else
          ((s.fencePos x.1 2).event (switchUnit (x.1 / 11)) 0x11 (x.1 + 1024 * 2) (s.fieldConfid (x.1 / 11))).renameCore x.1)
    s

/-- A copy of a component in the boot flash (R379): what was written there, or what the module ships with. -/
def State.fwCopy (s : State) (k c : Nat) : FwCopy :=
  (Tab.get none s.sec.flash (2 * k + c)).getD
    { svn := 0, digest := Config.bootDigest k c, key := Config.bootKey k c, sig := Config.bootSignature k c }

/-- Whether a copy's signature is by the firmware key and verifies (R378). -/
def FwCopy.signed (x : FwCopy) : Bool := Config.sha512 x.key = Config.gorciaDigest 0 && Config.ed25519 x.key x.digest x.sig

/-- Whether a copy passes (R379): it verifies and its SVN is not below the fused floor. `bad` lists, as 2 × kind + copy, those that
cannot be read from the flash as they were written. DEDUCED (log 77). -/
def State.copyPasses (s : State) (bad : List Nat) (k c : Nat) : Bool :=
  !bad.contains (2 * k + c) && (s.fwCopy k c).signed && decide (Tab.get 0 s.sec.floors k ≤ (s.fwCopy k c).svn)

/-- The copy of a component that start-up uses (R379): the one marked active, else the other; none when neither passes. -/
def State.bootCopy (s : State) (bad : List Nat) (k : Nat) : Option Nat :=
  let a := Tab.get 0 s.sec.active k
  if s.copyPasses bad k a then some a else if s.copyPasses bad k (1 - a) then some (1 - a) else none

/-- A component is accepted: its digest and security version are recorded, and BOOT_FALLBACK when it is not the active copy
(R379, R380). DEDUCED (log 77). -/
def State.acceptCopy (s : State) (k c : Nat) : State :=
  let x := s.fwCopy k c
  let s := { s with sec := { s.sec with svn := Tab.put 0 k x.svn s.sec.svn, fwDigest := Tab.put 0 k x.digest s.sec.fwDigest } }
  if c = Tab.get 0 s.sec.active k then s else s.event trustUnit 0x16 ((k + 1) % 8) false

/-- The three components are verified in order; none when one has no copy that passes (R378, R379). -/
def State.acceptFirmware (s : State) (bad : List Nat) : Option State :=
  [0, 1, 2].foldl (fun (acc : Option State) k => acc.bind fun t => (s.bootCopy bad k).map fun c => t.acceptCopy k c) (some s)

/-- STARTUP_HALT (R72): no instance and no image in effect, as in the manager-only state. -/
def State.halt (s : State) : State :=
  { s with
    mgt := { s.mgt with failedStage := s.mgt.stage, halted := true }, zen := {}, insts := []
    nvs := { s.nvs with full := [], partials := [], boot := 2 } }

/-- The rails are good: ports whose PERST# is deasserted train (R71). -/
def State.railsGood (s : State) : State :=
  { s with ports := Tab.mapAll {} (fun _ p => { p with training := p.training || p.perst }) s.ports }

/-- STARTUP_STAGE_COMPLETE (R70). `ok` says whether the stage as a whole passed, `bad` lists failing positions, failing columns or
damaged firmware copies, `values` the measured rates or failing lines of the stage. DEDUCED (log 77). -/
def doStartupStageComplete (ok : Bool) (bad values : List Nat) (s : State) : State :=
  let st := s.mgt.stage
  if !s.mgt.powered || s.mgt.halted || !s.working || decide (9 ≤ st) then s
  else if !ok then s.halt
  else
    let go (s : State) (n : Nat) : State := { s with mgt := { s.mgt with stage := n } }
    if st = 0 then
      go { s with tb := { s.tb with count := 0, running := true, locked := true }, mgt := { s.mgt with charging := false } }.railsGood 1
    else if st = 2 then
      match s.acceptFirmware bad with
      | none => s.halt
      | some s => go s.selectSlot 3
    else if st = 4 then go s.applyBoot 5
    else if st = 5 then go { s.marchAll bad values with tb := { s.tb with skew := Config.skewNs % 5 } } 6
    else if st = 6 then go ((bad.foldl State.retireColumn s).zeroAll) 7
    else if st = 7 then go (s.applyRates (List.range 88) values).firstFloors 8
    else if st = 8 then
      let s := s.startLinks
      if s.nvs.boot = 2 then go s 0xA else (go s 9).alert 0
    else go s (st + 1)

/-! ### Power and reset -/

/-- The state at a cold start: everything at its reset value but the NVS and what stands in it, the fuses, the boot flash and what
lies outside the die. The operator key stored in the NVS is in effect from here on (R44), and so are the numbers of the newest
calibration and fence map (R65). DEDUCED (log 78). -/
def State.cold (s : State) : State :=
  { State.reset with
    pending := s.pending
    freeN := s.freeN
    nextTok := s.nextTok
    nvs := { State.reset.nvs with
      mem := s.nvs.mem, serial := s.nvs.serial, cycSlotA := s.nvs.cycSlotA, cycSlotB := s.nvs.cycSlotB, cycCal := s.nvs.cycCal,
      cycFence := s.nvs.cycFence, cycBox := s.nvs.cycBox, cycIdent := s.nvs.cycIdent
      fenceSeq := ((newestFence s.nvs.mem).map fun c => leAt c 0 4).getD 0
      calSeq := ((newestCal s.nvs.mem).map fun c => leAt c 0 4).getD 0 }
    ports := Tab.mapAll {} (fun _ p => { ({} : Port) with perst := p.perst }) s.ports
    sec := { State.reset.sec with
      opKey := storedKey s.nvs.mem, flash := s.sec.flash, active := s.sec.active
      floors := s.sec.floors, unlocks := s.sec.unlocks, draws := s.sec.draws + 1, challenge := Config.drbg s.sec.draws }
    mgt := { State.reset.mgt with
      inputMv := s.mgt.inputMv, mateClosed := s.mgt.mateClosed, hotSwap := s.mgt.hotSwap, cages := s.mgt.cages,
      boxSeq := s.mgt.boxSeq, pin := s.mgt.pin } }

/-- Start-up begins (R70). -/
def State.begin (s : State) : State := { s.cold with mgt := { s.cold.mgt with powered := true, charging := true, hotSwap := true } }

/-- START_THRESHOLD (R440 to R442): input, in mV, rises above 40 V; the hold-up bank charges and start-up begins. After
an over-voltage disconnect this is the input applied again, below 60 V. -/
def doStartThreshold (mv : Nat) (s : State) : State :=
  if s.mgt.powered ∨ mv ≤ 40000 ∨ s.mgt.mateClosed = false ∨ (s.mgt.disconnected = true ∧ 60000 ≤ mv) then s
  else
    let s := s.begin
    { s with mgt := { s.mgt with inputMv := mv / 10 } }

/-- RESET (R448): RESET# low for at least 10 µs repeats the whole of start-up; shorter pulses are ignored. -/
def doReset (lowNs : Nat) (s : State) : State :=
  if lowNs < 10000 ∨ s.mgt.mateClosed = false ∨ (s.mgt.disconnected ∧ s.mgt.ovFallen = false) then s
  else if s.mgt.powered ∨ s.mgt.disconnected then s.begin
  else s

/-- PERST_DEASSERT (R71): link training starts at once, or when the rails are good. -/
def doPerstDeassert (port : Nat) (s : State) : State :=
  if port < 2 then
    s.updPort port fun p => { p with perst := true, training := p.training || (s.mgt.powered && decide (1 ≤ s.mgt.stage)) }
  else s

/-- Whether configuration requests are answered (R71): from stage 0x8, after a halt, or once no slot is valid. -/
def State.cfgAnswers (s : State) : Bool := s.bar0 || (decide (3 ≤ s.mgt.stage) && s.nvs.boot = 2)

/-- CONFIGURATION_REQUEST (R71): Request Retry Status until the port is up. One that writes the ATS control enables or disables ATS
(R357, R358). PRESUMED (log 97). -/
def doConfigurationRequest (port : Nat) (ats : Option Bool) (s : State) : State :=
  if 2 ≤ port ∨ s.mgt.powered = false then s
  else if s.cfgAnswers then s.updPort port fun p => { p with cfgDone := p.cfgDone + 1, ats := ats.getD p.ats }
  else s.updPort port fun p => { p with retryStatus := p.retryStatus + 1 }

/-- START_THRESHOLD (R442). -/
def execStartThreshold (mv : Nat) (s : State) : Out := .next (doStartThreshold mv s)
/-- STARTUP_STAGE_COMPLETE (R70). -/
def execStartupStageComplete (ok : Bool) (bad values : List Nat) (s : State) : Out :=
  .next (doStartupStageComplete ok bad values s)
/-- RESET (R448). -/
def execReset (lowNs : Nat) (s : State) : Out := .next (doReset lowNs s)
/-- PERST_DEASSERT (R71). -/
def execPerstDeassert (port : Nat) (s : State) : Out := .next (doPerstDeassert port s)
/-- CONFIGURATION_REQUEST (R71). -/
def execConfigurationRequest (port : Nat) (ats : Option Bool) (s : State) : Out := .next (doConfigurationRequest port ats s)

end Sys2Proof.Machine
end

