-- ==== Sys2Proof/Machine/Catalogue.lean ====
section
/-! DEFINITION. The catalogue's shared operations: images, frames, pins, room and withdrawal (R206 to R223, R227 to
R233), and the checks of a message from an instance's mailbox (R361, R372). -/

namespace Sys2Proof.Machine

/-! ### Status codes (R221, R371) -/

def stUnknown : Nat := 0x40
def stStale : Nat := 0x41
def stWithdrawn : Nat := 0x42
def stDeleting : Nat := 0x43
def stLineage : Nat := 0x44
def stBaseNotActive : Nat := 0x45
def stNoEntry : Nat := 0x46
def stImageInvalid : Nat := 0x47
def stGranaryRange : Nat := 0x48
def stTooLarge : Nat := 0x49
def stForkBusy : Nat := 0x4A
def stForkNotPrivate : Nat := 0x4B
def stNotReader : Nat := 0x4C
def stHostRead : Nat := 0x4D

/-! ### The ledgers (R343) -/

/-- The ledger units of page-ins, of a host port and of a tiller link. -/
def pageInUnits : List Nat := [0, 1, 10]
def portLedger (n : Nat) : Nat := 2 + n
def linkLedger (n : Nat) : Nat := 4 + n

/-- The earliest time from `t0` at which the ledgers of some units are free for `len` ns (R229, R343). -/
def ledgerGap (led : List Promised) (units : List Nat) (t0 len : Nat) : Nat :=
  let mine := led.filter fun g => g.units.any units.contains
  let free (t : Nat) : Bool := mine.all fun g => decide (t + len ≤ g.start) || decide (g.finish ≤ t)
  let ends := t0 :: (mine.map (·.finish)).filter fun t => decide (t0 ≤ t)
  (ends.filter free).foldl min (ends.foldl max 0)

/-- A transfer of a length is placed in the ledgers of its units, behind what they hold; past ones leave them (R343). -/
def State.book (s : State) (units : List Nat) (t0 len : Nat) (entries : List Nat) : State :=
  let led := s.adm.ledger.filter fun g => decide (s.tb.count < g.finish)
  let t := ledgerGap led units t0 len
  { s with adm := { s.adm with ledger := led ++ [{ units := units, start := t, finish := t + len, entries := entries }] } }

/-- Granary bandwidth has fallen: the page-ins promised and not done begin again, one after the other (R334). -/
def State.rebook (s : State) : State :=
  let now := s.tb.count
  let late := s.adm.ledger.filter fun g => decide (now < g.finish) && g.units.any pageInUnits.contains && !g.entries.isEmpty
  let s := { s with adm := { s.adm with ledger := s.adm.ledger.filter fun g => !late.contains g } }
  late.foldl (fun s g => s.book g.units (max now g.start) (g.finish - g.start) g.entries) s

/-! ### Images (R206, R216, R217) -/

def imgComponents (b : List Byte) : Nat := leAt b 6 2
def imgPayload (b : List Byte) : Nat := leAt b 8 4
/-- Component k of an image. -/
def imgComp (b : List Byte) (k : Nat) : List Byte := slice b (0x80 + 32 * k) 32
def imgComps (b : List Byte) : List (List Byte) := (List.range (imgComponents b)).map (imgComp b)
def compKind (c : List Byte) : Nat := leAt c 0 1

/-- The limits of one component (R206, R217). -/
def compOk (c : List Byte) : Bool :=
  let k := compKind c
  let param := leAt c 6 2
  let count := leAt c 24 4
  decide (1 ≤ k) && decide (k ≤ 6) && fmtDefined (leAt c 1 1) && leAt c 16 4 % 64 = 0 && leAt c 28 4 = 0 &&
  (if k = 1 then decide (1 ≤ param) && decide (param ≤ 64)
   else if k = 3 then decide (1 ≤ param) && decide (param ≤ 256)
   else param = 0) &&
  (if k = 2 then decide (count ≤ leAt c 8 4 * leAt c 12 4 / 6400) else count = 0)

/-- Components in OFFSET order, without overlap, within the payload (R218). -/
def compsOrdered (payload : Nat) : Nat → List (List Byte) → Bool
  | _, [] => true
  | from', c :: cs =>
    decide (from' ≤ leAt c 16 4) && decide (leAt c 16 4 + leAt c 20 4 ≤ payload) &&
    compsOrdered payload (leAt c 16 4 + leAt c 20 4) cs

/-- Whether a component is in a format that the thresher keeps variant weights in (R200): F8a, F6a, F6b or F4 for the kinds with an
input axis and output channels. DEDUCED (log 95). -/
def compPacked (c : List Byte) : Bool :=
  let f := leAt c 1 1
  compKind c = 3 || compKind c = 5 || compKind c = 6 || f = 3 || f = 5 || f = 6 || f = 7

/-- The rules of R206, R207, R216 and R217 on a header and its component table: LOW_LAYER and KINDS agree with the components, and a
fork is alone, with LOW_LAYER 0. -/
def imageHeadOk (b : List Byte) : Bool :=
  let cs := imgComps b
  let n := imgComponents b
  leAt b 0 4 = 0x46415256 && leAt b 4 2 = 1 && decide (1 ≤ n) && decide (n ≤ 1024) && imgPayload b % 64 = 0 &&
  leAt b 0xF 1 = 0 && allZero (slice b 0x10 48) && cs.all compOk && compsOrdered (imgPayload b) 0 cs &&
  leAt b 0xC 2 = (cs.map fun c => leAt c 2 2).foldl min 0xFFFF &&
  leAt b 0xE 1 = (List.range 7).foldl (fun v k => if cs.any fun c => compKind c = k then v + 2 ^ k else v) 0 &&
  decide (((cs.filter fun c => compKind c = 4).map fun c => leAt c 8 4 * leAt c 12 4).sum ≤ 67108864) &&
  distinct ((cs.filter fun c => compKind c = 5).map fun c => (leAt c 2 2, leAt c 4 2)) &&
  (!(cs.any fun c => compKind c = 6) || (n = 1 && leAt b 0xC 2 = 0))

/-- The checks of R218 (2) on a plaintext image, for a slot that is a fork slot or not (R200). -/
def imageOk (b : List Byte) (fork : Bool) : Bool :=
  let cs := imgComps b
  imageHeadOk b && b.length = 0x80 + 32 * imgComponents b + imgPayload b && cs.all compPacked &&
  (cs.any fun c => compKind c = 6) = fork

/-- Directory frames of a resident image with C components and P payload frames (R220). -/
def dirFrames (comps payloadFrames : Nat) : Nat :=
  ((List.range 6).find? fun d => decide (1 ≤ d) && decide (ceilDiv (128 + 32 * comps + 4 * (d + payloadFrames)) 16384 ≤ d)).getD 5
/-- Frames of a resident image (R220). -/
def imageFrames (comps payload : Nat) : Nat :=
  let p := ceilDiv payload 16384
  dirFrames comps p + p

/-- The resident image of a plaintext image laid in frames: directory, then payload (R216, R220). -/
def residentImage (b : List Byte) (frames : List Nat) : List Byte :=
  let n := imgComponents b
  let pay := imgPayload b
  let d := dirFrames n (ceilDiv pay 16384)
  let dirEntry (k : Nat) : List Byte := leBytes 4 (if k < d then frames.getD k 0 else 0)
  let header := slice b 0 0x10 ++ leBytes 4 frames.length ++ dirEntry 1 ++ dirEntry 2 ++ dirEntry 3 ++ dirEntry 4 ++
    slice b 0x24 92
  padTo (d * 16384) (header ++ slice b 0x80 (32 * n) ++ frames.flatMap (leBytes 4)) ++
  padTo (ceilDiv pay 16384 * 16384) (slice b (0x80 + 32 * n) pay)

/-! ### Frames (R219, R222) -/

/-- Columns that carry an instance's VARIANT regions, in ascending position. -/
def State.varCols (s : State) (i : Nat) : List Nat :=
  (List.range 880).filter fun p => s.zen.carves.any fun c => c.kind = 1 && c.owner = i && c.first ≤ p && p ≤ c.last

/-- The frame numbers of an instance's VARIANT regions in one column, ascending. -/
def State.colFrames (s : State) (i p : Nat) : List Nat :=
  (List.range 14336).filter fun g => (s.carveAt p (g * 0x4000)).any fun c => c.kind = 1 && c.owner = i

def Entry.frames (e : Entry) : List Nat := e.cur.frames ++ (e.old.map (·.frames)).flatten
def Entry.pins (e : Entry) : Nat := e.cur.pins + (e.old.map (·.pins)).sum

/-- Frames in use by an instance. -/
def State.usedFrames (s : State) (i : Nat) : List Nat :=
  (s.cat.map fun e => if e.2.inst = i then e.2.frames else []).flatten

def State.totalFrames (s : State) (i : Nat) : Nat := ((s.varCols i).map fun p => (s.colFrames i p).length).sum

/-- Frames an entry needs when it is paged in. -/
def Entry.need (e : Entry) : Nat := imageFrames e.components e.payload

/-- Frames promised to page-ins that have not taken theirs yet. -/
def State.promisedFrames (s : State) (i : Nat) : Nat :=
  (s.cat.map fun e => if e.2.inst = i ∧ e.2.paging ∧ e.2.started = false then e.2.need else 0).sum

def State.freeFrames (s : State) (i : Nat) : Nat :=
  s.totalFrames i - (s.usedFrames i).length - s.promisedFrames i

/-- Entries that hold frames, or a place for them (R230). -/
def Entry.holds (e : Entry) : Bool :=
  !e.fork && (e.paging || e.state = .paging || e.state = .resident || e.state = .evicting ||
    ((e.state = .deleting || e.state = .stale) && !e.frames.isEmpty))
def State.residents (s : State) : Nat := (s.cat.filter fun e => e.2.holds).length

/-- Take the lowest free frame of column k, or of the next column in order that has one (R222). -/
def takeFrame (n : Nat) : Nat → Nat → List (List Nat) → Option (Nat × List (List Nat))
  | 0, _, _ => none
  | fuel + 1, k, cols =>
    match cols.getD (k % n) [] with
    | f :: fs => some (f, cols.set (k % n) fs)
    | [] => takeFrame n fuel (k + 1) cols

/-- Place image frames s, s+1, ... (R222). -/
def takeFrames (n : Nat) : Nat → Nat → List (List Nat) → List Nat
  | 0, _, _ => []
  | m + 1, k, cols =>
    match takeFrame n n k cols with
    | none => []
    | some r => r.1 :: takeFrames n m (k + 1) r.2

/-- The frames that entry x of instance i gets now. -/
def State.allocFrames (s : State) (i x n : Nat) : List Nat :=
  let used := s.usedFrames i
  let cols := s.varCols i
  let free := cols.map fun p => ((s.colFrames i p).map (p * 2 ^ 14 + ·)).filter fun f => !used.contains f
  if cols.isEmpty then [] else takeFrames cols.length n (x % cols.length) free

/-- The global pan address of an offset of a column (R35). -/
def panGlobal (p off : Nat) : Nat := 2 ^ 60 + p / 11 * 2 ^ 32 + p % 11 * 2 ^ 28 + off
def frameAddr (f : Nat) : Nat := panGlobal (f / 2 ^ 14) (f % 2 ^ 14 * 0x4000)

/-- Write a resident image into its frames (R220, R229). -/
def State.writeFrames (s : State) (frames : List Nat) (img : List Byte) : State :=
  frames.zipIdx.foldl
    (fun s x => (s.panWrite (x.1 / 2 ^ 14) (x.1 % 2 ^ 14 * 0x4000) (slice img (x.2 * 16384) 16384)).panHeal (x.1 / 2 ^ 14)
      (x.1 % 2 ^ 14 * 0x4000) 16384) s

/-! ### Handles (R210, R211) -/

def handleOf (slot inst gen index : Nat) : Nat := slot * 2 ^ 30 + inst * 2 ^ 24 + gen * 2 ^ 16 + index
def State.handle (s : State) (x : Nat) : Nat := let e := s.entry x; handleOf e.slot e.inst e.gen x

/-- The entry a handle names, while it is current and owned by the instance (R212). -/
def State.handleEntry (s : State) (i h : Nat) : Option Nat :=
  let x := bits h 15 0
  let e := s.entry x
  if bits h 29 24 = i ∧ e.state ≠ .free ∧ e.inst = i ∧ bits h 23 16 = e.gen ∧ bits h 31 30 = e.slot then some x else none

/-- The lowest-numbered FREE entry (R209). -/
def State.freeEntry? (s : State) : Option Nat := (List.range 65536).find? fun x => (s.entry x).state = .free

/-! ### Pins (R213, R227) -/

/-- What an entry becomes when its pins have dropped (R213): old sets are released, EVICTING returns to HELD, DELETING
becomes FREE, as does a STALE entry that VARIANT_DELETE has released, and STALE releases its frames. -/
def Entry.settle (e : Entry) : Entry :=
  let e := { e with old := e.old.filter fun x => x.pins ≠ 0 }
  if e.state = .evicting ∧ e.cur.pins = 0 then { e with state := .held, cur := { id := e.nextSet }, nextSet := e.nextSet + 1 }
  else if (e.state = .deleting ∨ (e.state = .stale ∧ e.freed)) ∧ e.pins = 0 then e.release
  else if e.state = .stale ∧ e.cur.pins = 0 ∧ e.cur.frames ≠ [] then
    { e with cur := { id := e.nextSet }, nextSet := e.nextSet + 1 }
  else e

/-- Take a pin on the current set of an entry. -/
def State.pinEntry (s : State) (x : Nat) : State := s.updEntry x fun e => { e with cur := { e.cur with pins := e.cur.pins + 1 } }

/-- Drop one pin on a set of an entry. -/
def State.unpin (s : State) (q : Pin) : State :=
  let now := s.tb.count
  s.updEntry q.entry fun e =>
    ({ e with
      cur := if e.cur.id = q.set then { e.cur with pins := e.cur.pins - 1 } else e.cur
      old := mapIf (fun x => x.id = q.set) (fun x => { x with pins := x.pins - 1 }) e.old
      lastUnpin := now }).settle

/-! ### Room (R230) and page-ins (R229) -/

/-- When a job is expected to end: its planned completion, with one period for each step still to come; a demoted job's
end is not known. DEDUCED (log 82). -/
def Job.expectEnd (j : Job) : Nat := if j.overrun then 2 ^ 80 else j.planned + (leAt j.raw 0x24 4 - 1 - j.step) * leAt j.raw 8 8

/-- The expected last unpin of an entry: the latest expected end of the jobs that pin it. -/
def State.expectUnpin (s : State) (x : Nat) : Nat :=
  (s.jobs.filter fun j => j.pins.any fun q => q.entry = x).foldl (fun m j => max m j.expectEnd) 0

/-- The expected last unpin of one set of frames of an entry. -/
def State.expectUnpinSet (s : State) (x set : Nat) : Nat :=
  (s.jobs.filter fun j => j.pins.any fun q => q.entry = x && q.set = set).foldl (fun m j => max m j.expectEnd) 0

/-- What entries in EVICTING, DELETING and STALE, and sets released by a fresh page-in, will return (R213, R230): the time,
the frames of instance i, and the places. -/
def State.returns (s : State) (i : Nat) : List (Nat × Nat × Nat) :=
  s.cat.flatMap fun e =>
    let back := e.2.state = .evicting || e.2.state = .deleting || e.2.state = .stale
    let mine (fs : List Nat) : Nat := if e.2.inst = i then fs.length else 0
    (if back then [(s.expectUnpinSet e.1 e.2.cur.id, mine e.2.cur.frames, 0)] else []) ++
    (if back && e.2.holds then [(s.expectUnpin e.1, 0, 1)] else []) ++
    e.2.old.map fun o => (s.expectUnpinSet e.1 o.id, mine o.frames, 0)

/-- The entry of a list least by a measure, lowest number first. -/
def argMin (f : Nat → Nat) : List Nat → Option Nat
  | [] => none
  | x :: xs =>
    match argMin f xs with
    | none => some x
    | some y => if f x ≤ f y then some x else some y

/-- Count an eviction, unless the instance is confidential (R239, R398). -/
def State.countEviction (s : State) (i : Nat) : State :=
  if s.confid i then s else { s with adm := { s.adm with evictions := holdAdd 0xFFFF s.adm.evictions 1 } }

/-- Release a resident entry's frames at once (R230). -/
def State.evictNow (s : State) (x : Nat) : State :=
  (s.updEntry x fun e => { e with state := .held, cur := { id := e.nextSet }, nextSet := e.nextSet + 1 }).countEviction
    (s.entry x).inst

/-- make_room of R230: none when room can never be made; the entries named by the job are not chosen. -/
def makeRoom (i f : Nat) (named : List Nat) : Nat → State → Option State
  | 0, _ => none
  | fuel + 1, s =>
    if f ≤ s.freeFrames i ∧ s.residents < 16384 then some s
    else
      let mine := (s.cat.filter fun e => e.2.inst = i && e.2.state = .resident && !e.2.fork && !named.contains e.1).map (·.1)
      match argMin (fun x => (s.entry x).lastUnpin) (mine.filter fun x => (s.entry x).pins = 0) with
      | some c => makeRoom i f named fuel (s.evictNow c)
      | none =>
        let back := s.returns i
        if f + (s.usedFrames i).length + s.promisedFrames i ≤ s.totalFrames i + (back.map (·.2.1)).sum ∧
          s.residents < 16384 + (back.map (·.2.2)).sum then some s
        else
          match argMin s.expectUnpin mine with
          | some c =>
            makeRoom i f named fuel
              ((s.updEntry c fun e => { e with state := .evicting }).countEviction i)
          | none => none

/-- A page-in is asked for (R229): the entry moves to PAGING with a fresh set; none when room can never be made. -/
def State.askPageIn (s : State) (x : Nat) (named : List Nat) : Option State :=
  let e := s.entry x
  (makeRoom e.inst e.need named (s.cat.length + 1) s).map fun s =>
    ({ s with adm := { s.adm with nextAsk := s.adm.nextAsk + 1 } } : State).updEntry x fun e =>
      { e with
        state := .paging
        paging := true
        started := false
        asked := s.adm.nextAsk
        old := if e.state = .evicting then e.old ++ [e.cur] else e.old
        cur := { id := e.nextSet }
        nextSet := e.nextSet + 1 }

/-! ### Forced withdrawal (R232, R233) -/

/-- Withdrawal begins for every request that pins an entry. -/
def State.withdrawPins (s : State) (x : Nat) : State :=
  { s with jobs := s.jobs.map fun j =>
      let rows := (j.pins.filter fun q => q.entry = x).map (·.row)
      { j with forced := j.forced ++ rows.filter fun r => !j.forced.contains r && !j.withdrawn.contains r } }

/-- Rows lose their pins and count as withdrawn (R233). -/
def State.dropRows (s : State) (i q : Nat) (rows : List Nat) : State :=
  match s.job? i q with
  | none => s
  | some j =>
    let gone := j.pins.filter fun x => rows.contains x.row
    let s := s.updJob i q fun j =>
      { j with
        pins := j.pins.filter fun x => !rows.contains x.row
        forced := j.forced.filter fun r => !rows.contains r
        withdrawn := j.withdrawn ++ rows.filter fun r => !j.withdrawn.contains r }
    gone.foldl State.unpin s

/-- The messages that wait for a page-in are answered. DEDUCED (log 63). -/
def State.answerWaiters (s : State) (x status : Nat) : State :=
  let e := s.entry x
  let s := s.updEntry x fun e => { e with waiters := [] }
  e.waiters.foldl (fun s t => s.reply e.inst status t []) s

/-- A page-in in progress is abandoned: the requests that wait for it end without output (R233), and messages that wait for it are
answered with a status. -/
def State.abandonPageIn (s : State) (x status : Nat) : State :=
  let e := s.entry x
  if !e.paging then s
  else
    let set := e.cur.id
    let s := (s.updEntry x fun e => { e with paging := false, started := false }).answerWaiters x status
    s.jobs.foldl
      (fun s j => s.dropRows j.inst j.seq ((j.pins.filter fun q => q.entry = x && q.set = set).map (·.row))) s

/-- The variants of an instance are forcibly removed as it drains: page-ins in progress are abandoned, which leaves their entries
HELD (R232, R233). DEDUCED (log 36). -/
def State.drainEntry (s : State) (x : Nat) : State :=
  if !(s.entry x).paging then s
  else
    (s.abandonPageIn x stWithdrawn).updEntry x fun e =>
      ({ e with state := .held, cur := { id := e.nextSet }, nextSet := e.nextSet + 1 }).settle

/-! ### Messages to the device (R361, R363, R372) -/

/-- Whether an instance's page answers on a port (R361). -/
def State.pageOn (s : State) (port i : Nat) : Bool := decide (port < 2) && (s.instRec? i).any fun r => r.port = port

/-- An access on the wrong page is counted (R361). -/
def State.wrongPort (s : State) (port : Nat) : State :=
  s.updPort port fun p => { p with wrongPort := holdAdd 0xFFFF p.wrongPort 1 }

/-- An access to the page of an instance whose TDI is in RUN, not protected by its selective IDE stream, is discarded and moves the TDI
to ERROR (R363). -/
def State.tdiError (s : State) (i : Nat) : State := s.updInst i fun x => { x with tdi := 3 }

/-- Take a message from an instance's mailbox (R361, R363, R372, R376): page, TDI, reset and credit; then its meaning. -/
def State.message (s : State) (port i : Nat) (ide : Bool) (code : Nat) (msg : List Byte) (body : State → State) : State :=
  let x := s.inst i
  if leAt msg 0 1 ≠ code ∨ s.bar0All = false ∨ s.working = false ∨ 2 ≤ port then s
  else if !s.pageOn port i then s.wrongPort port
  else if x.tdi = 2 ∧ ide = false then s.tdiError i
  else if x.tdi = 3 ∨ (x.state ≠ .active ∧ x.state ≠ .adopting) then s
  else if x.credits = 0 then s.updPort port fun p => { p with mboxDropped := holdAdd 0xFFFF p.mboxDropped 1 }
  else body (s.updInst i fun x => { x with credits := x.credits - 1 })

/-- The TAG of a message (R372). -/
def msgTag (msg : List Byte) : Nat := leAt msg 4 4

end Sys2Proof.Machine
end

