-- ==== Sys2Proof/Machine/Slots.lean ====
section
/-! DEFINITION. Base slots and their operations (R201 to R205, R208, R235 to R238). -/

namespace Sys2Proof.Machine

/-! ### Regions of a slot -/

/-- The BASE regions of a slot as (column, offset, size), by column and then offset (R201). -/
def State.slotExtents (s : State) (k : Nat) : List (Nat × Nat × Nat) :=
  (List.range 880).flatMap fun p =>
    ((s.zen.carves.filter fun c => c.kind = 0 && c.owner = k && c.first ≤ p && p ≤ c.last).mergeSort
      fun a b => a.offset ≤ b.offset).map fun c => (p, c.offset, c.size)

/-- Zero every BASE region of a slot (R204, R205). -/
def State.zeroSlot (s : State) (k : Nat) : State :=
  (s.slotExtents k).foldl (fun s x => s.panZero x.1 x.2.1 x.2.2) s

/-- Position of a column offset in the concatenation of a slot's regions. -/
def linOf (p off : Nat) : List (Nat × Nat × Nat) → Option Nat
  | [] => none
  | x :: xs =>
    if x.1 = p ∧ x.2.1 ≤ off ∧ off < x.2.1 + x.2.2 then some (off - x.2.1) else (linOf p off xs).map (· + x.2.2)

/-- The column and offset at a position of that concatenation. -/
def locOf (l : Nat) : List (Nat × Nat × Nat) → Option (Nat × Nat)
  | [] => none
  | x :: xs => if l < x.2.2 then some (x.1, x.2.1 + l) else locOf (l - x.2.2) xs

/-- Copy a slot's bytes into another slot, region by region in column order (R208). DEDUCED (log 35). -/
def State.copySlot (s : State) (src dst : Nat) : State :=
  let from' := s.slotExtents src
  let into := s.slotExtents dst
  s.pan.foldl
    (fun t e =>
      let l := s.panLogical e.1
      match (linOf (l / columnBytes) (l % columnBytes) from').bind fun n => locOf n into with
      | some q => t.panWrite q.1 q.2 [e.2]
      | none => t)
    s

/-- Whether the owner of a fork slot is confidential; other slots belong to no instance. -/
def State.slotConfid (s : State) (k : Nat) : Bool := (s.slotRec? k).any fun r => r.fork && s.confid r.owner
def State.isFork (s : State) (k : Nat) : Bool := (s.slotRec? k).any (·.fork)

/-! ### Commands (R204) -/

/-- Results of THR_BASE_STATUS (R238). -/
def thrOk : Nat := 0
def thrBadState : Nat := 1
def thrLineage : Nat := 2
def thrSame : Nat := 3
def thrFork : Nat := 4
def thrAborted : Nat := 5

/-- A base-slot command completes with a result. -/
def State.thrDone (s : State) (r : Nat) : State := { s with thr := { s.thr with cmd := none, done := true, result := r } }

/-- A slot that admits commands: declared by a record; not a FORK slot. DEDUCED (log 35). -/
def State.slotCmdCheck (s : State) (k : Nat) (ok : Bool) : Option Nat :=
  if !ok || (s.slotRec? k).isNone then some thrBadState else if s.isFork k then some thrFork else none

/-- The shared part of a write of THR_BASE_CMD: OP, SLOT and NEW_SLOT, refused while BUSY (R204, R238). -/
def State.slotCmd (s : State) (op : Nat) (v : BitVec 32) (body : State → Nat → Nat → State) : State :=
  if fld v 2 0 ≠ op ∨ s.bar0All = false ∨ s.working = false then s
  else if s.thr.cmd.isSome then { s with thr := { s.thr with refused := true } }
  else body s (fld v 5 4) (fld v 7 6)

/-- STAGE (R204). -/
def doStage (v : BitVec 32) (s : State) : State :=
  s.slotCmd 1 v fun s k _ =>
    match s.slotCmdCheck k ((s.slot k).state = .empty) with
    | some r => s.thrDone r
    | none =>
      let s := s.updSlot k fun x => { x with state := .staging, redirect := none, digest := 0, zeroing := false }
      { s with thr := { s.thr with cmd := some (1, k, false) } }

/-- ACTIVATE (R204): no ACTIVE slot may have the same digest. -/
def doActivate (v : BitVec 32) (s : State) : State :=
  s.slotCmd 2 v fun s k _ =>
    match s.slotCmdCheck k ((s.slot k).state = .ready) with
    | some r => s.thrDone r
    | none =>
      if (List.range 4).any fun j => (s.slot j).state = .active && (s.slot j).digest = (s.slot k).digest then s.thrDone thrSame
      else (s.updSlot k fun x => { x with state := .active }).thrDone thrOk

/-- An entry becomes STALE: withdrawal begins for its requests, and a page-in in progress is abandoned (R233, R235).
DEDUCED (log 36). -/
def State.makeStale (s : State) (x : Nat) : State :=
  let s := s.withdrawPins x
  let s := s.abandonPageIn x stStale
  s.updEntry x fun e => ({ e with state := .stale }).settle

/-- The entries that a base's withdrawal touches (R235). DEDUCED (log 36). -/
def State.entriesOf (s : State) (k : Nat) : List Nat :=
  (s.cat.filter fun e =>
    e.2.state ≠ .free && (e.2.slot = k || (e.2.fork && (s.slot e.2.slot).digest = (s.slot k).digest))).map (·.1)

/-- A base leaves service: the slot becomes RETIRING, with a successor or none, and its entries STALE (R204, R235).
DEDUCED (log 36). -/
def State.retireSlot (s : State) (old : Nat) (new : Option Nat) : State :=
  let xs := s.entriesOf old
  let s := s.updSlot old fun x => { x with state := .retiring, redirect := if new.isSome then new else x.redirect }
  let s := match new with
    | some n => s.updSlot n fun x => { x with state := .active }
    | none => s
  xs.foldl State.makeStale s

/-- SWITCH (R235): atomic between two admission decisions. -/
def doSwitch (v : BitVec 32) (s : State) : State :=
  s.slotCmd 3 v fun s k n =>
    if (s.slot k).state ≠ .active ∨ (s.slot n).state ≠ .ready ∨ (s.slotRec? k).isNone ∨ (s.slotRec? n).isNone then
      s.thrDone thrBadState
    else if s.isFork k || s.isFork n then s.thrDone thrFork
    else if (s.slot k).digest = (s.slot n).digest then s.thrDone thrSame
    else
      let readers := ((s.slotRec? k).map (·.readers)).getD 0
      let body := leBytes 1 k ++ leBytes 1 n ++ leBytes 6 0 ++ digestBytes (s.slot n).digest
      (((List.range 64).filter fun i => bit readers i).foldl (fun s i => s.post i 5 0 0 body)
        (s.retireSlot k (some n))).thrDone thrOk

/-- RETIRE (R204): as SWITCH with no successor. -/
def doRetire (v : BitVec 32) (s : State) : State :=
  s.slotCmd 5 v fun s k _ =>
    match s.slotCmdCheck k ((s.slot k).state = .active) with
    | some r => s.thrDone r
    | none => (s.retireSlot k none).thrDone thrOk

/-- Consumption of the running stream by a slot ends; the module goes on forwarding (R303, R308, R310). -/
def State.stopConsuming (s : State) (k : Nat) : State :=
  { s with thr := { s.thr with
      stream := s.thr.stream.map fun x => if x.slot = k then { x with consuming := false, cut := x.cut || x.consuming, place := none } else x } }

/-- CLEAR (R204, R310): also accepted while the STAGE of the same slot is in progress, which it ends. -/
def doClear (v : BitVec 32) (s : State) : State :=
  let k := fld v 5 4
  let run (s : State) (aborts : Bool) : State :=
    let s := (s.stopConsuming k).updSlot k fun x => { x with zeroing := true }
    { s with thr := { s.thr with cmd := some (4, k, aborts) } }
  if fld v 2 0 = 4 && s.bar0All && s.working && s.thr.cmd = some (1, k, false) then run s true
  else
    s.slotCmd 4 v fun s k _ =>
      match s.slotCmdCheck k ((s.slot k).state = .staging || (s.slot k).state = .ready) with
      | some r => s.thrDone r
      | none => run s false

/-- A slot's bytes are zero and it is EMPTY. -/
def State.emptySlot (s : State) (k : Nat) : State :=
  ((s.zeroSlot k).updSlot k fun x =>
    { x with state := .empty, digest := 0, zeroing := false, forkEntry := none, copyFrom := none }).alert 4

/-- SLOT_ZEROING_COMPLETE (R204). -/
def doSlotZeroingComplete (k : Nat) (s : State) : State :=
  let x := s.slot k
  if 4 ≤ k ∨ x.zeroing = false ∨ x.state = .retiring ∨ s.working = false then s
  else
    let s := s.emptySlot k
    match s.thr.cmd with
    | some (4, j, a) => if j = k then s.thrDone (if a then thrAborted else thrOk) else s
    | _ => s

/-- SLOT_RELEASE (R205): with no job and no pin left, zeroing starts. -/
def doSlotRelease (k : Nat) (s : State) : State :=
  let x := s.slot k
  if 4 ≤ k ∨ x.state ≠ .retiring ∨ x.zeroing = true ∨ s.working = false then s
  else if (s.jobs.any fun j => j.slot = k) || (s.cat.any fun e => e.2.state ≠ .free && e.2.slot = k && e.2.pins ≠ 0) then s
  else s.updSlot k fun x => { x with zeroing := true }

/-- BASE_RELEASED (R205). -/
def doBaseReleased (k : Nat) (s : State) : State :=
  let x := s.slot k
  if 4 ≤ k ∨ x.state ≠ .retiring ∨ x.zeroing = false ∨ s.working = false then s
  else (s.emptySlot k).event thrUnit 0x51 k (s.slotConfid k)

/-- FORK_COPY_COMPLETE (R208): the slot becomes ACTIVE, and the fork's handle is replied. An entry that has become STALE in the meantime
stays so (R213, R235). -/
def doForkCopyComplete (k : Nat) (s : State) : State :=
  let x := s.slot k
  match x.copyFrom, x.forkEntry with
  | some (_, i, tag), some e =>
    if s.working = false then s
    else
      let s := s.updSlot k fun x => { x with state := .active, copyFrom := none }
      let s := s.updEntry e fun y => { y with state := if y.state = .loading then .resident else y.state }
      s.reply i 0 tag (leBytes 4 (s.handle e))
  | _, _ => s

/-- STAGE (R204). -/
def execStage (v : BitVec 32) (s : State) : Out := .next (doStage v s)
/-- ACTIVATE (R204). -/
def execActivate (v : BitVec 32) (s : State) : Out := .next (doActivate v s)
/-- SWITCH (R235). -/
def execSwitch (v : BitVec 32) (s : State) : Out := .next (doSwitch v s)
/-- CLEAR (R204). -/
def execClear (v : BitVec 32) (s : State) : Out := .next (doClear v s)
/-- RETIRE (R204). -/
def execRetire (v : BitVec 32) (s : State) : Out := .next (doRetire v s)
/-- SLOT_RELEASE (R205). -/
def execSlotRelease (slot : Nat) (s : State) : Out := .next (doSlotRelease slot s)
/-- BASE_RELEASED (R205). -/
def execBaseReleased (slot : Nat) (s : State) : Out := .next (doBaseReleased slot s)
/-- SLOT_ZEROING_COMPLETE (R204). -/
def execSlotZeroingComplete (slot : Nat) (s : State) : Out := .next (doSlotZeroingComplete slot s)
/-- FORK_COPY_COMPLETE (R208). -/
def execForkCopyComplete (slot : Nat) (s : State) : Out := .next (doForkCopyComplete slot s)

end Sys2Proof.Machine
end

