-- ==== Sys2Proof/Machine/Receive.lean ====
section
/-! DEFINITION. Receiving from a tiller link (R279 to R287), links going down (R290), and the end of a stream (R203,
R303, R308 to R310). -/

namespace Sys2Proof.Machine

/-! ### The end of a stream -/

/-- Results of THR_STREAM_STATUS (R312). -/
def strOk : Nat := 0
def strLineage : Nat := 1
def strInvalid : Nat := 2
def strPlacement : Nat := 3
def strBroken : Nat := 4
def strHost : Nat := 5
def strNotStaged : Nat := 6
def strRefused : Nat := 7

/-- The STAGE of a slot completes with a result, when it is in progress (R204). -/
def State.stageDone (s : State) (k r : Nat) : State := if s.thr.cmd = some (1, k, false) then s.thrDone r else s

/-- THR_BASE_STATUS result of a stream result (R204, R238). -/
def stageResult (r : Nat) : Nat :=
  if r = strOk then 0 else if r = strLineage then 2 else if r = strInvalid then 6 else if r = strPlacement then 7
  else if r = strBroken then 8 else 9

/-- Consumption fails: the slot is zeroed and the STAGE ends with the stream's result (R203, R303, R308, R309). -/
def State.failConsuming (s : State) (k r : Nat) : State :=
  let s := ((s.stopConsuming k).updSlot k fun x => { x with zeroing := true }).stageDone k (stageResult r)
  { s with thr := { s.thr with sResult := r } }

/-- The stream has ended at this module (R312, R457). -/
def State.streamDone (s : State) : State := { s with thr := { s.thr with stream := none, sDone := true } }.alert 4

/-- Links with DOWNSTREAM set that are up with a module session (R301). -/
def State.downstream (s : State) : List Nat :=
  (List.range 6).filter fun n => (s.linkRec? n).any (·.downstream) && s.linkReady n 0xFF

/-- A stream breaks (R309): a consuming module zeroes the slot and records the cause; every module sends STREAM_ABORT
downstream. -/
def State.breakStream (s : State) (r : Nat) : State :=
  match s.thr.stream with
  | none => s
  | some x =>
    let s :=
      if x.consuming then
        (s.failConsuming x.slot r).event thrUnit (if r = strHost then 0x54 else 0x53) x.slot (s.slotConfid x.slot)
      else if s.thr.sResult = strOk then { s with thr := { s.thr with sResult := r } }
      else s
    let s := s.downstream.foldl (fun s n => s.linkControl n 5 (leBytes 1 (x.slot % 4) ++ List.replicate 15 (0 : Byte))) s
    s.streamDone

/-! ### Requests that end (R285) -/

/-- A copy request ends with a core fault, `k` of its writes with it; its descriptor goes on under R106. -/
def State.copyFault (s : State) (p e d cause addr k : Nat) : State :=
  match ((s.core p).ce e).find d with
  | none => s
  | some a =>
    let s := s.putDesc p e { a with outstanding := a.outstanding - k }
    (if a.stopped then s else s.coreFault p cause (4 + e) a.idx addr).finish p e d

/-- A mirror whose write fails is abandoned; the next mirror starts afresh (R419). -/
def Train.dropMirror (t : Train) : Train := { t with mirrorStep := none, mirrorWrites := [] }

/-- The writes of a copy that a request stands for (R99). -/
def LinkReq.writes (r : LinkReq) : Nat := if r.kind = 2 then 0 else r.n

/-- A request ends without a response (R285): LINK fault, or the mirror it served is given up. DEDUCED (log 42). -/
def State.endRequest (s : State) (n : Nat) (r : LinkReq) : State :=
  let s := s.updLink n fun l =>
    { l with reqs := l.reqs.filter fun x => x.tag ≠ r.tag, out := l.out.filter fun m => m.tag ≠ some r.tag }
  match r.origin with
  | .ce p e d => s.copyFault p e d 6 r.addr r.writes
  | _ =>
    { s with train := Tab.mapAll {} (fun _ t => if t.mirrorWrites.contains r.tag ∧ (t.mirror.map (·.1)) = some n then t.dropMirror else t) s.train }

/-- The requests of a link that meet a test end. -/
def State.endRequests (s : State) (n : Nat) (test : LinkReq → Bool) : State :=
  ((s.link n).reqs.filter test).foldl (fun s r => s.endRequest n r) s

/-! ### Going down (R290) -/

/-- LINK_DOWN (R290): requests end, sessions are destroyed, streams break, and the link trains again.
DEDUCED (log 40). -/
def State.linkDown (s : State) (n cause : Nat) : State :=
  let s := s.updLink n fun l =>
    { l.clear with
      state := if l.disable then .disabled else .training
      cause := cause, downSince := some s.tb.count, lostPosted := false }
  let s := s.endRequests n fun _ => true
  let s := if s.thr.stream.any fun x => x.source = some n then s.breakStream strBroken else s
  s.event (linkUnit n) 0x30 cause false

/-- A link that does not come up stays down and retries (R289). DEDUCED (log 40). -/
def State.stayDown (s : State) (n cause : Nat) : State :=
  s.updLink n fun l =>
    { l.clear with state := .downRetrying, cause := cause, downSince := if l.downSince.isNone then some s.tb.count else l.downSince }

/-! ### CAPABILITY and SESSION messages (R288, R289, R386) -/

/-- The CAPABILITY payload of this module's side of a link (R289). -/
def State.capPayload (s : State) (n : Nat) : List Byte :=
  let r := s.linkRec? n
  let flags := b2n (r.any (·.upstream)) + 2 * b2n (r.any (·.downstream)) + 4 * b2n (r.any (·.spreadOk))
  leBytes 2 0xF880 ++ leBytes 1 0xB0 ++ leBytes 1 1 ++ leBytes 1 n ++ leBytes 1 flags ++ leBytes 2 0 ++
  leBytes 8 s.nvs.serial.toNat ++ leBytes 8 ((r.map (·.insts)).getD 0) ++ leBytes 8 0

/-- Send a SESSION message with a fresh ephemeral key, signed with the identity key (R386); none from a random source that has
failed (R382). -/
def State.sendSession (s : State) (n phase inst : Nat) : State :=
  if s.sec.rngFail then s
  else
    let d := s.sec.draws
    let cert := Config.identityKey.take 1024
    let head := leBytes 1 phase ++ leBytes 1 inst ++ leBytes 2 cert.length ++ leBytes 4 0 ++
      padTo 32 (Config.x25519Public (drawBytes d))
    let digest := Config.sha512 (s.capPayload n ++ (s.link n).partnerPayload ++ head)
    let s := (s.drawn 1).updLink n fun l => { l with ephs := Tab.put none inst (some d) l.ephs }
    s.linkControl n 2 (head ++ padTo 64 (Config.identitySign digest) ++ cert)

/-- A session's RENEW is sent (R287, R387). -/
def State.renewSession (s : State) (n i : Nat) : State :=
  let hit (x : Session) : Bool := i = 0xFF || x.inst = i
  let s := s.updLink n fun l => { l with sessions := mapIf hit (fun x => { x with renewing := true }) l.sessions }
  s.sendSession n 1 i

/-- Key and salt of a session by direction, sent and received, from a private and a partner's public ephemeral key (R386). -/
def State.sessionKeys (s : State) (n draw : Nat) (peer : List Byte) (inst : Nat) : List Byte × List Byte :=
  let l := s.link n
  let mine := s.nvs.serial.toNat
  let caps := if mine < l.partnerSerial.toNat then s.capPayload n ++ l.partnerPayload else l.partnerPayload ++ s.capPayload n
  let secret := Config.x25519 (drawBytes draw) peer
  let key (serial : Nat) : List Byte :=
    padTo 36 (Config.hkdf (digestBytes (Config.sha512 caps)) secret (leBytes 8 serial ++ leBytes 1 inst) 36)
  (key mine, key l.partnerSerial.toNat)

/-! ### Messages -/

/-- The first complete message waiting on a VC of a link: frame word, ciphertext and tag. -/
def State.nextMsg (s : State) (n vc : Nat) : Option (List Byte) :=
  let b := Tab.get [] (s.link n).inStream vc
  let total := 4 + leAt b 0 2 + 16
  if b.length < 4 ∨ b.length < total then none else some (b.take total)

/-- Fields of a plaintext from message offset 0x04 (R279). -/
def msgKind (m : List Byte) : Nat := bits (leAt m 0 1) 2 0
def msgResp (m : List Byte) : Bool := bit (leAt m 0 1) 3
def msgStatus (m : List Byte) : Nat := leAt m 1 1
def msgTagOf (m : List Byte) : Nat := leAt m 4 4
def msgAddr (m : List Byte) : Nat := leAt m 8 8
def msgArg (m : List Byte) : Nat := leAt m 16 4
def msgPayload (m : List Byte) : List Byte := m.drop 28

/-- Whether the payload of a CONTROL message keeps the table of R291. -/
def controlOk (sub : Nat) (p : List Byte) : Bool :=
  if sub = 1 then p.length = 32 && leAt p 6 2 = 0 && leAt p 24 8 = 0
  else if sub = 2 then decide (0x69 ≤ p.length) && decide (p.length ≤ 0x68 + 1024)
  else if sub = 3 ∨ sub = 4 then p.length = 16 && leAt p 9 7 = 0
  else sub = 5 && p.length = 16 && leAt p 0 1 ≤ 3 && leAt p 1 15 = 0

/-- Whether a message keeps the tables of R279 and R280. -/
def msgOk (vc inst : Nat) (m : List Byte) : Bool :=
  let k := msgKind m
  let n := m.length - 28
  let sp := bits (msgAddr m) 63 60
  decide (28 ≤ m.length) && decide (n ≤ 4096) && bits (leAt m 0 1) 7 4 = 0 && leAt m 2 2 = 0 && leAt m 20 8 = 0 &&
  (if msgResp m then vc = 1 && decide (1 ≤ k) && decide (k ≤ 4) && decide (msgStatus m ≤ 3) && (k = 2 || n = 0)
   else
    msgStatus m = 0 &&
    (if k = 1 then vc = 0 && decide (1 ≤ sp) && decide (sp ≤ 3) && msgArg m = 0 && decide (1 ≤ n)
     else if k = 2 then vc = 0 && decide (1 ≤ sp) && decide (sp ≤ 3) && decide (1 ≤ msgArg m) && decide (msgArg m ≤ 4096) && n = 0
     else if k = 3 then
       vc = 0 && decide (1 ≤ sp) && decide (sp ≤ 2) && msgAddr m % 4 = 0 && msgArg m = 0 && decide (2 ≤ n) && n % 2 = 0
     else if k = 4 then vc = 0 && sp = 4 && decide (msgArg m < 2 ^ 24) && n = 0
     else if k = 5 then vc = 2 && decide (1 ≤ n) && (if inst = 0xFF then decide (msgArg m < 4) else msgArg m = 0)
     else k = 6 && vc = 0 && msgAddr m = 0 && controlOk (msgArg m) (msgPayload m)))

/-- Whether a message of the REQUEST VC is a CAPABILITY or SESSION in clear (R288). DEDUCED (log 39). -/
def clearForm (b : List Byte) : Bool :=
  let len := leAt b 0 2
  let m := slice b 4 len
  decide (28 ≤ len) && leAt b 2 2 = 0xFF && msgKind m = 6 && (msgArg m = 1 || msgArg m = 2) && allZero (b.drop (4 + len))

/-- Receive buffers that are no longer needed are returned (R278): what is held fits into fewer. DESIGN CHOICE (log 96). -/
def Link.freeBuffers (l : Link) (vc : Nat) : Link :=
  let need := ceilDiv ((Tab.get [] l.inStream vc).length + (Tab.get [] l.rxTail vc).length) 240
  let held := Tab.get 0 l.bufs vc
  if need < held then { l with bufs := Tab.put 0 vc need l.bufs, owed := Tab.upd 0 vc (· + (held - need)) l.owed } else l

/-- The first message of a VC leaves its receive buffers. -/
def State.dropMsg (s : State) (n vc len : Nat) : State :=
  (s.updLink n fun l => { l with inStream := Tab.upd [] vc (fun b => b.drop len) l.inStream }.freeBuffers vc).linkPump n

/-- A failed message is counted (R280, R287). -/
def State.authFail (s : State) (n : Nat) : State := s.updLink n fun l => { l with authFail := holdAdd 0xFFFF l.authFail 1 }

/-- The tag of a message failed (R287): LINK_AUTH is recorded, the session ends and is renewed, its requests end; a
failed module session takes the link down (R290). -/
def State.tagFailure (s : State) (n i : Nat) : State :=
  let s := (s.authFail n).event (linkUnit n) 0x31 i (s.confid i)
  if i = 0xFF then s.linkDown n 7
  else
    let s := s.endRequests n fun r => r.inst = i
    let s := s.updLink n fun l =>
      { l with sessions := mapIf (fun x => x.inst = i) (fun x => { x with live := false, oldKey := none, oldVcs := [] }) l.sessions }
    s.renewSession n i

/-- A message of a VC has verified under the current key, or the old one (R286, R387): on that VC the old key is destroyed once
the current one has verified there. -/
def Session.verified (x : Session) (vc : Nat) (old : Bool) : Session :=
  if old then { x with oldRx := Tab.upd 0 vc (· + 1) x.oldRx }
  else
    let vcs := x.oldVcs.filter (· ≠ vc)
    { x with rx := Tab.upd 0 vc (· + 1) x.rx, oldVcs := vcs, oldKey := if vcs.isEmpty then none else x.oldKey }

/-- A verified message is counted and advances its session (R286, R387, R429). -/
def State.received (s : State) (n vc i len : Nat) (old : Bool) : State :=
  let s := s.updLink n fun l => { l with sessions := mapIf (fun x => x.inst = i) (fun x => x.verified vc old) l.sessions }
  if s.confid i then s else (s.count (linkUnit n) 0x0B 1).count (linkUnit n) 0x04 len

/-- Whether a session accepts a message on a VC that verifies under a key: 1 the current, 2 the old (R387). -/
def Session.accepts (x : Session) (vc key : Nat) : Bool :=
  key = 1 || (key = 2 && x.oldKey.isSome && x.oldVcs.contains vc)

/-- Take the first message of a VC (R279, R280, R287): frame, session, tag and table in that order; then, when it is one
the row names, its meaning, unless it must wait for something first (`waits`). `plain` is what decryption yields, and `key` the key under
which the tag verifies: 1 the session's current one, 2 its old one, 0 none (DESIGN CHOICE, log 7). A message in clear is left to
CAPABILITY and SESSION. -/
def State.receive (s : State) (n vc : Nat) (mine : List Byte → Bool) (key : Nat) (plain : List Byte)
    (waits : Nat → Option State) (body : State → Nat → State) : State :=
  match s.nextMsg n vc with
  | none => s
  | some b =>
    if 6 ≤ n ∨ s.working = false ∨ s.held (90 + n) ∨ (vc = 0 ∧ clearForm b = true) then s
    else
      let len := leAt b 0 2
      let i := leAt b 2 1
      let t := s.dropMsg n vc b.length
      if len < 28 ∨ 4124 < len ∨ leAt b 3 1 ≠ 0 ∨ (64 ≤ i ∧ i ≠ 0xFF) then t.authFail n
      else if !s.linkReady n i then t.updLink n fun l => { l with noSession := holdAdd 0xFFFF l.noSession 1 }
      else if !((s.link n).sessions.any fun x => x.inst = i && x.accepts vc key) then t.tagFailure n i
      else if plain.length ≠ len then s
      else if !msgOk vc i plain || (msgKind plain = 6 && msgArg plain ≤ 2) then (t.received n vc i len (key = 2)).authFail n
      else if !mine plain then s
      else
        match waits i with
        | some w => w
        | none => body (t.received n vc i len (key = 2)) i

/-- For a message that never waits. -/
def noWait : Nat → Option State := fun _ => none

end Sys2Proof.Machine
end

