-- ==== Sys2Proof/Machine/Stream.lean ====
section
/-! DEFINITION. Base streams and the distribution chain (R203, R270, R301 to R310, R312). -/

namespace Sys2Proof.Machine

/-! ### The transport form (R304 to R306) -/

def hdrSlot (b : List Byte) : Nat := leAt b 6 1
def hdrTensors (b : List Byte) : Nat := leAt b 8 4
def hdrWire (b : List Byte) : Nat := leAt b 0x18 8
/-- Bytes of header and directory. -/
def dirEnd (b : List Byte) : Nat := 256 + 64 * hdrTensors b

/-- Rules of the transport header (R304). -/
def headerOk (b : List Byte) : Bool :=
  leAt b 0 4 = 0x52465342 && leAt b 4 2 = 1 && decide (hdrSlot b < 4) && leAt b 7 1 = 0 &&
  decide (1 ≤ hdrTensors b) && decide (hdrTensors b ≤ 65535) && leAt b 0xC 4 = 0 && allZero (slice b 0x20 32) &&
  allZero (slice b 0x80 128)

/-- A tensor of the directory. -/
structure Tensor where
  no : Nat
  form : Nat
  fmt : Nat
  rot : Nat
  seed : Nat
  rows : Nat
  cols : Nat
  canon : Nat
  wire : Nat
  deriving DecidableEq, Repr

def tensorOf (e : List Byte) : Tensor :=
  { no := leAt e 0 4, form := leAt e 4 1, fmt := leAt e 5 1, rot := leAt e 6 1, seed := leAt e 8 4, rows := leAt e 12 4,
    cols := leAt e 16 4, canon := leAt e 20 8, wire := leAt e 28 8 }

/-- Bits of a code on the wire. -/
def Tensor.w (t : Tensor) : Nat := if t.form = 0 then 16 else if t.form = 1 then 8 else 4
def Tensor.codeBytes (t : Tensor) : Nat := ceilDiv (t.rows * t.cols * t.w) 8
def Tensor.expBytes (t : Tensor) : Nat := if t.form = 0 then 0 else t.rows * blocksOf t.cols

/-- Rules of a directory entry (R304, R194). -/
def entryOk (e : List Byte) : Bool :=
  let t := tensorOf e
  decide (t.form ≤ 2) &&
  (if t.form = 0 then t.fmt = 3 || t.fmt = 5 || t.fmt = 6 || t.fmt = 7
   else if t.form = 1 then t.fmt = 3 || t.fmt = 4 || t.fmt = 8 else t.fmt = 7 || t.fmt = 9) &&
  (if t.form = 0 then decide (t.rot ≤ 3) && decide (t.seed < 2 ^ 24) && (t.rot = 0 || t.cols % (16 * 2 ^ t.rot) = 0)
   else t.rot = 0 && t.seed = 0) &&
  leAt e 7 1 = 0 && decide (1 ≤ t.rows) && decide (1 ≤ t.cols) && t.canon = t.codeBytes + t.expBytes + 4 * t.rows &&
  allZero (slice e 36 28)

def dirTensors (b : List Byte) : List (List Byte) := (List.range (hdrTensors b)).map fun k => slice b (256 + 64 * k) 64

/-- A tensor decoded from its wire section: codes, block exponents, scales (R306); none when it is invalid. -/
def wireRead (t : Tensor) (bs : List Byte) : Option (List Nat × List Byte × List Byte) :=
  match chunksRead t.w (ceilDiv (t.rows * t.cols) 8192) (t.rows * t.cols) bs with
  | none => none
  | some r =>
    if r.2.length = t.expBytes + 4 * t.rows then some (r.1, r.2.take t.expBytes, r.2.drop t.expBytes) else none

/-- Codes in canonical form (R305). -/
def canonCodes (t : Tensor) (codes : List Nat) : List Byte :=
  if t.form = 0 then codes.flatMap (leBytes 2)
  else if t.form = 1 then codes.map fun c => BitVec.ofNat 8 c
  else (List.range (ceilDiv codes.length 2)).map fun k => BitVec.ofNat 8 (codes.getD (2 * k) 0 + 16 * codes.getD (2 * k + 1) 0)

/-- Every tensor of a stream, in directory order. -/
def sectionsRead : List Tensor → List Byte → Option (List (Tensor × List Nat × List Byte × List Byte))
  | [], bs => if bs.isEmpty then some [] else none
  | t :: ts, bs =>
    if bs.length < t.wire then none
    else
      match wireRead t (bs.take t.wire) with
      | none => none
      | some x => (sectionsRead ts (bs.drop t.wire)).map ((t, x) :: ·)

/-- A whole stream decoded; none when it is invalid. -/
def streamRead (b : List Byte) : Option (List (Tensor × List Nat × List Byte × List Byte)) :=
  if headerOk b && b.length = hdrWire b && (dirTensors b).all entryOk then
    match sectionsRead ((dirTensors b).map tensorOf) (b.drop (dirEnd b)) with
    | none => none
    | some xs => if leAt b 0x10 8 = dirEnd b + (xs.map fun x => x.1.canon).sum then some xs else none
  else none

/-- The base lineage digest: SHA-512 of the canonical form (R203, R305). -/
def lineageDigest (b : List Byte) (xs : List (Tensor × List Nat × List Byte × List Byte)) : BitVec 512 :=
  let header := slice b 0 0x18 ++ leBytes 8 0 ++ slice b 0x20 32 ++ List.replicate 64 (0 : Byte) ++ slice b 0x80 128
  let dir := (dirTensors b).flatMap fun e => slice e 0 28 ++ leBytes 8 0 ++ slice e 36 28
  Config.sha512 (header ++ dir ++ xs.flatMap fun x => canonCodes x.1 x.2.1 ++ x.2.2.1 ++ x.2.2.2)

/-! ### Placement (R307, R308) -/

/-- A row of a tensor in packed form (R307). -/
def Tensor.row (t : Tensor) (codes : List Nat) (exps : List Byte) (r : Nat) : List Byte :=
  let cs := (codes.drop (r * t.cols)).take t.cols
  let nb := blocksOf t.cols
  if t.form = 0 then
    let n := 16 * 2 ^ t.rot
    let f32 := cs.map fun c => (c * 65536, (0 : Flags))
    let rotated :=
      if t.rot = 0 then f32
      else
        let signs := signVector t.seed n t.seed
        (List.range (t.cols / n)).flatMap fun j => rotateBlock n (4 + t.rot) signs false ((f32.drop (n * j)).take n)
    packRow t.fmt Config.thresherSatm (fun _ => .rne) (rotated.map fun x => decodeNum fF32 x.1)
  else
    ((List.range nb).flatMap fun j => codeArea t.fmt ((cs.drop (64 * j)).take 64)) ++ slice exps (r * nb) nb

/-- A tile: its position, its column offset and its bytes. -/
structure TilePlace where
  pos : Nat
  off : Nat
  len : Nat
  first : Nat
  rows : Nat
  deriving DecidableEq, Repr

/-- The tiles of a tensor under a placement entry. -/
def Tensor.tiles (t : Tensor) (e : List Byte) : List TilePlace :=
  let tr := leAt e 4 2
  let pc := leAt e 6 2
  (List.range (ceilDiv t.rows tr)).map fun k =>
    let rows := min tr (t.rows - k * tr)
    { pos := leAt e 8 2 + k % pc, off := leAt e 12 4 + k / pc * leAt e 16 4, len := rows * (rowBytes t.fmt t.cols + 4),
      first := k * tr, rows := rows }

/-- Rules of a placement entry (R308). -/
def Tensor.placeOk (t : Tensor) (e : List Byte) : Bool :=
  let tr := leAt e 4 2
  let pc := leAt e 6 2
  tr % 4 = 0 && decide (4 ≤ tr) && decide (tr ≤ 32) && decide (1 ≤ pc) && decide (leAt e 8 2 + pc ≤ 880) &&
  leAt e 10 2 = 0 && allZero (slice e 20 12) && decide (min tr t.rows * (rowBytes t.fmt t.cols + 4) ≤ leAt e 16 4)

/-- The entry of a tensor in a placement table. -/
def placeEntry (tab : List Byte) (no : Nat) : Option (List Byte) :=
  ((List.range (tab.length / 32)).map fun k => slice tab (32 * k) 32).find? fun e => leAt e 0 4 = no

/-- Sorted ranges that do not overlap. -/
def apart : List (Nat × Nat) → Bool
  | a :: b :: rest => decide (a.1 + a.2 ≤ b.1) && apart (b :: rest)
  | _ => true

/-- The placement check of R308 for a slot. -/
def State.placementOk (s : State) (k : Nat) (ts : List Tensor) (tab : List Byte) : Bool :=
  let es := ts.map fun t => (t, placeEntry tab t.no)
  (es.all fun x => x.2.any fun e => x.1.placeOk e) &&
  (let tiles := es.flatMap fun x => (x.2.map fun e => x.1.tiles e).getD []
   (tiles.all fun x =>
     decide (x.off + x.len ≤ columnBytes) && s.carvesAll (fun c => c.kind = 0 && c.owner = k) x.pos 225 x.off x.len) &&
   apart ((tiles.map fun x => (x.pos * columnBytes + x.off, x.len)).mergeSort fun a b => a.1 ≤ b.1))

/-- Write every tile of a decoded stream: packed rows, then their scales (R307). -/
def State.writeTiles (s : State) (tab : List Byte) (xs : List (Tensor × List Nat × List Byte × List Byte)) : State :=
  xs.foldl
    (fun s x =>
      let t := x.1
      ((placeEntry tab t.no).map fun e => t.tiles e).getD [] |>.foldl
        (fun s y =>
          let bytes := ((List.range y.rows).flatMap fun r => t.row x.2.1 x.2.2.1 (y.first + r)) ++
            slice x.2.2.2 (4 * y.first) (4 * y.rows)
          (s.panWrite y.pos y.off bytes).panHeal y.pos y.off y.len) s)
    s

/-! ### A stream at this module (R301 to R303, R308) -/

def State.updStream (s : State) (g : Stream → Stream) : State := { s with thr := { s.thr with stream := s.thr.stream.map g } }

/-- The placement table has arrived: it is checked (R308). -/
def State.checkPlacement (s : State) (tab : List Byte) : State :=
  match s.thr.stream with
  | none => s
  | some x =>
    if !x.consuming then s
    else if s.placementOk x.slot ((dirTensors x.data).map tensorOf) tab then s.updStream fun x => { x with place := some tab }
    else s.failConsuming x.slot strPlacement

/-- What arrives with a piece of stream: the header is checked against ARG, the directory against its rules, and then
the placement table is read (R303, R304, R308). -/
def State.streamChecks (s : State) (before arg : Nat) : State :=
  match s.thr.stream with
  | none => s
  | some x =>
    if !x.consuming then s
    else
      let d := x.data
      if before < 256 ∧ 256 ≤ d.length ∧ (hdrSlot d ≠ arg ∨ headerOk d = false) then s.failConsuming x.slot strInvalid
      else if before < dirEnd d ∧ 256 ≤ d.length ∧ dirEnd d ≤ d.length then
        if !(dirTensors d).all entryOk then s.failConsuming x.slot strInvalid
        else if s.thr.placeLen = 0 then s.checkPlacement []
        else s.fetch s.thr.placePort none .place s.thr.placeAddr.toNat s.thr.placeLen.toNat
      else s

/-- One FORWARD of the base stream: sent downstream whatever the thresher does, then consumed or not (R301, R303, R309).
`source` is the link it came on, or none at the head. -/
def State.passStream (s : State) (source : Option Nat) (off arg : Nat) (payload : List Byte) : State :=
  let s := s.downstream.foldl (fun s n => s.linkSend n 2 0xFF (linkPlain 5 0 0 off arg payload)) s
  let s :=
    if s.thr.stream.isNone ∧ off = 0 then
      let use : Bool := (s.slot arg).state = .staging && !(s.slot arg).zeroing && decide (arg < 4) && !s.isFork arg
      let s := { s with thr := { s.thr with
        stream := some { source := source, slot := arg, consuming := use, data := [], received := 0, place := none, ports := 0,
                         remaining := 0 }
        sSlot := arg, sBytes := 0, sResult := if use then strOk else strNotStaged } }
      if use then s else s.event thrUnit 0x52 arg (s.slotConfid arg)
    else s
  match s.thr.stream with
  | none => s
  | some x =>
    if x.received ≠ off ∨ x.slot ≠ arg then s.breakStream strBroken
    else
      let n := payload.length
      let s := s.updStream fun x =>
        { x with data := if x.consuming then x.data ++ payload else (x.data ++ payload).take 256, received := x.received + n }
      ({ s with thr := { s.thr with sBytes := s.thr.sBytes + n } }).streamChecks x.data.length arg

/-- Whether the stream at this module has come to its end. -/
def Stream.ended (x : Stream) : Bool :=
  if x.source.isNone then x.remaining = 0 else decide (256 ≤ x.received) && decide (hdrWire x.data ≤ x.received)

/-- The head asks for its next piece: even 64 KiB pieces through port 0 and odd ones through port 1, or the named port
alone (R302). DEDUCED (log 37). -/
def State.headNext (s : State) : State :=
  match s.thr.stream with
  | none => s
  | some x =>
    if x.source.isSome ∨ x.remaining = 0 then s
    else if x.ports = 0 then s.breakStream strHost
    else
      let port := if x.ports = 3 then x.received / 65536 % 2 else x.ports - 1
      s.hostAsk port none (s.thr.srcAddr.toNat + x.received) (min 4096 x.remaining) .stream

/-- START (R302, R312). DEDUCED (log 37). -/
def doStart (_port : Nat) (v : BitVec 32) (s : State) : State :=
  if !bit v.toNat 0 || !s.bar0All || !s.working then s
  else if s.thr.stream.isSome then { s with thr := { s.thr with sResult := strRefused } }
  else
    let s := { s with thr := { s.thr with
      stream := some { source := none, slot := 4, consuming := false, data := [], received := 0, place := none,
                       ports := fld v 2 1, remaining := s.thr.srcLen.toNat }
      sBytes := 0, sResult := strOk } }
    s.headNext

/-- Data of the stream reaches the head (R302, R303): ARG is the SLOT of the header. DEDUCED (log 37). -/
def State.headData (s : State) (ok : Bool) (data : List Byte) (len : Nat) : State :=
  match s.thr.stream with
  | none => s
  | some x =>
    if x.source.isSome then s
    else if !ok then s.breakStream strHost
    else
      let bytes := padTo len data
      let arg := if x.received = 0 then hdrSlot bytes % 4 else x.slot
      let s :=
        if x.received = 0 then
          let use : Bool := (s.slot arg).state = .staging && !(s.slot arg).zeroing && !s.isFork arg
          let s := s.updStream fun x => { x with slot := arg, consuming := use }
          let s := { s with thr := { s.thr with sSlot := arg, sResult := if use then strOk else strNotStaged } }
          if use then s else s.event thrUnit 0x52 arg (s.slotConfid arg)
        else s
      let s := s.passStream none x.received arg bytes
      (s.updStream fun x => { x with remaining := x.remaining - len }).headNext

/-- STREAM_END (R203, R303 to R308, R312). -/
def doStreamEnd (s : State) : State :=
  match s.thr.stream with
  | none => s
  | some x =>
    if !x.ended || !s.working || (x.consuming && x.place.isNone && decide (dirEnd x.data ≤ x.data.length) && decide (256 ≤ x.received) &&
        s.thr.placeLen ≠ 0 && (s.fetches.any fun f => f.use = .place)) then s
    else if !x.consuming then s.streamDone
    else
      match streamRead x.data, x.place with
      | some ts, some tab =>
        let d := lineageDigest x.data ts
        if digestBytes d ≠ slice x.data 0x40 64 then (s.failConsuming x.slot strLineage).streamDone
        else
          let s := (s.writeTiles tab ts).updSlot x.slot fun y => { y with state := .ready, digest := d }
          let s := (s.event thrUnit 0x50 x.slot (s.slotConfid x.slot)).stageDone x.slot thrOk
          { s with thr := { s.thr with sResult := strOk } }.streamDone
      | _, _ => (s.failConsuming x.slot strInvalid).streamDone

/-! ### Messages of the STREAM class (R270, R301, R303, R309) -/

/-- The sealed image of a load is there, or could not be read; for a fork slot the placement table is read next, as for a base stream
(R208, R308). DEDUCED (log 37). -/
def State.sealedArrived (s : State) (x : Nat) (ok : Bool) (bytes : List Byte) : State :=
  let s := s.updEntry x fun e => { e with sealed := some (ok, padTo e.loadLen bytes) }
  if !s.isFork (s.entry x).slot || !ok then s
  else if s.thr.placeLen = 0 then s.updEntry x fun e => { e with placeTab := some [] }
  else s.fetch s.thr.placePort none (.forkPlace x) s.thr.placeAddr.toNat s.thr.placeLen.toNat

/-- An image has arrived whole on an instance stream: a VARIANT_LOAD in place of a host read (R270). -/
def State.streamLoad (s : State) (n i : Nat) (all : List Byte) : State :=
  let len := leAt all 16 8
  match s.freeEntry? with
  | none => s.post i 7 stNoEntry 0 (leBytes 4 0 ++ leBytes 1 n)
  | some x =>
    (s.updEntry x fun e =>
      { ({} : Entry) with state := .loading, inst := i, slot := leAt all 0 1, gen := e.gen, gran := leAt all 8 8, loading := true,
                          loadLen := len, remote := some n }).sealedArrived x true (slice all 64 len)

/-- A FORWARD with an instance number (R270, R303). -/
def State.instForward (s : State) (n i off : Nat) (payload : List Byte) : State :=
  let got := Tab.get [] (s.link n).instStream i
  let all := if off = 0 then payload else got ++ payload
  if off ≠ 0 ∧ off ≠ got.length then s.updLink n fun l => { l with instStream := Tab.put [] i [] l.instStream }
  else if 64 ≤ all.length ∧ 64 + leAt all 16 8 ≤ all.length then
    (s.updLink n fun l => { l with instStream := Tab.put [] i [] l.instStream }).streamLoad n i all
  else s.updLink n fun l => { l with instStream := Tab.put [] i all l.instStream }

/-- FORWARD (R301, R303, R309). A message waits while a stream that has ended, or that this module heads, is not yet
over. -/
def doForward (n key : Nat) (plain : List Byte) (s : State) : State :=
  s.receive n 2 (fun m => msgKind m = 5 && !msgResp m) key plain
    (fun i => if i = 0xFF && s.thr.stream.any fun x => x.source ≠ some n || x.ended then some s else none)
    fun s i =>
      if i = 0xFF then
        if (s.linkRec? n).any (·.upstream) then s.passStream (some n) (msgAddr plain) (msgArg plain) (msgPayload plain) else s
      else s.instForward n i (msgAddr plain) (msgPayload plain)

/-- STREAM_ABORT (R309). -/
def doStreamAbort (n key : Nat) (plain : List Byte) (s : State) : State :=
  s.receive n 0 (fun m => msgKind m = 6 && !msgResp m && msgArg m = 5) key plain noWait fun s _ =>
    if s.thr.stream.any fun x => x.source = some n then s.breakStream strBroken else s

/-- START (R302). -/
def execStart (port : Nat) (v : BitVec 32) (s : State) : Out := .next (doStart port v s)
/-- STREAM_END (R203). -/
def execStreamEnd (s : State) : Out := .next (doStreamEnd s)
/-- FORWARD (R301). -/
def execForward (link key : Nat) (plain : List Byte) (s : State) : Out := .next (doForward link key plain s)
/-- STREAM_ABORT (R309). -/
def execStreamAbort (link key : Nat) (plain : List Byte) (s : State) : Out := .next (doStreamAbort link key plain s)

end Sys2Proof.Machine
end

