-- ==== Sys2Proof/Machine/Variants.lean ====
section
/-! DEFINITION. Variants: loading, deleting, paging and forking (R206 to R222, R229 to R233, R270). -/

namespace Sys2Proof.Machine

/-! ### VARIANT_LOAD (R214, R215) -/

/-- VARIANT_LOAD: the lowest-numbered FREE entry is set to LOADING, and the sealed image is read from the instance's host. -/
def doVariantLoad (port i : Nat) (ide : Bool) (msg : List Byte) (s : State) : State :=
  s.message port i ide 1 msg fun s =>
    match s.freeEntry? with
    | none => s.reply i stNoEntry (msgTag msg) []
    | some x =>
      (s.updEntry x fun e =>
        { ({} : Entry) with
          state := .loading, gen := e.gen, inst := i, slot := leAt msg 0x14 1, gran := leAt msg 0x18 8
          pageIn := bit (leAt msg 0x15 1) 0, loading := true, loadLen := leAt msg 0x10 4
          loadTag := msgTag msg }).fetch port (some i) (.sealed x) (leAt msg 8 8) (leAt msg 0x10 4)

/-- A length rounded up to 16 KiB. -/
def up16K (n : Nat) : Nat := ceilDiv n 0x4000 * 0x4000

/-- The granary range rule of R215 for entry x. -/
def State.granRangeOk (s : State) (x n : Nat) : Bool :=
  let e := s.entry x
  e.gran % 0x4000 = 0 && decide (e.gran + up16K n ≤ s.granSize e.inst) &&
  s.cat.all fun f =>
    f.1 = x || f.2.inst ≠ e.inst || f.2.state = .free || f.2.len = 0 || decide (f.2.gran + up16K f.2.len ≤ e.gran) ||
    decide (e.gran + up16K n ≤ f.2.gran)

/-- Refusals of R208 for a FORK slot and an instance. -/
def State.forkRefusal (s : State) (k i : Nat) : Nat :=
  match s.slotRec? k with
  | none => stNotReader
  | some r =>
    if !r.fork || r.owner ≠ i then stNotReader
    else if (List.range 64).any fun j => j ≠ i && bit r.readers j then stForkNotPrivate
    else if (s.slot k).state ≠ .empty then stForkBusy
    else 0

/-- What unsealing yields of the sealed image of entry x with its instance's transport key (R383, R385). -/
def State.unsealed (s : State) (x : Nat) (sealed : List Byte) : Option (List Byte) :=
  let i := (s.entry x).inst
  (s.inst i).transKey.bind fun d => openSealed (s.transportKey i) (drawBytes d) sealed

/-- The checks of R218 in their order, for the sealed bytes and for what unsealing yields: zero when the image is accepted. -/
def State.loadRefusal (s : State) (x : Nat) (readOk : Bool) (sealed : List Byte) (plain : Option (List Byte)) : Nat :=
  let e := s.entry x
  let fork := s.isFork e.slot
  let b := plain.getD []
  if !readOk then stHostRead
  else if !s.granRangeOk x (sealedPlain sealed) then stGranaryRange
  else if plain.isNone ∨ imageOk b fork = false then stImageInvalid
  else if fork then s.forkRefusal e.slot e.inst
  else
    let readers := ((s.slotRec? e.slot).map (·.readers)).getD 0
    let f := imageFrames (imgComponents b) (imgPayload b)
    if !bit readers e.inst then stNotReader
    else if (s.slot e.slot).state ≠ .active then stBaseNotActive
    else if slice b 0x40 64 ≠ digestBytes (s.slot e.slot).digest then stLineage
    else if f > 8192 ∨ f > s.totalFrames e.inst then stTooLarge
    else 0

/-- The answer to a load: a REPLY, or VARIANT_ARRIVED for an image that came over a link (R215, R270). -/
def State.loadAnswer (s : State) (e : Entry) (status handle : Nat) : State :=
  match e.remote with
  | some n => s.post e.inst 7 status 0 (leBytes 4 handle ++ leBytes 1 n)
  | none => s.reply e.inst status e.loadTag (if status = 0 then leBytes 4 handle else [])

/-- A refused load releases its entry unchanged in generation (R218). -/
def State.loadRefused (s : State) (x status : Nat) : State :=
  let e := s.entry x
  (s.updEntry x fun e => { ({} : Entry) with gen := e.gen }).loadAnswer e status 0

/-- A fork image is staged into its slot as a base stream (R208): its payload is a transport form, placed by the table read with it;
zero when it is accepted. A table that R308 refuses makes the image invalid. DEDUCED (log 37). -/
def State.stageFork (s : State) (k : Nat) (b tab : List Byte) : Nat × State :=
  let form := b.drop (0x80 + 32 * imgComponents b)
  match streamRead form with
  | none => (stImageInvalid, s)
  | some ts =>
    if hdrSlot form ≠ k ∨ s.placementOk k (ts.map (·.1)) tab = false then (stImageInvalid, s)
    else if digestBytes (lineageDigest form ts) ≠ slice form 0x40 64 then (stLineage, s)
    else
      (0, (s.writeTiles tab ts).updSlot k fun y =>
        { y with state := .active, digest := BitVec.ofNat 512 (leAt b 0x40 64) })

/-- What an accepted image makes of its entry (R209, R215). -/
def Entry.loaded (e : Entry) (b : List Byte) (fork : Bool) : Entry :=
  { e with
    state := if fork then .resident else .held
    loading := false
    fork := fork
    sealed := none
    placeTab := none
    len := if fork then 0 else b.length
    lowLayer := if fork then 0 else leAt b 0xC 2
    kinds := leAt b 0xE 1
    lineage := BitVec.ofNat 512 (leAt b 0x40 64)
    digest := Config.sha512 b
    components := imgComponents b
    payload := imgPayload b }

/-- VARIANT_LOAD_COMPLETE (R215, R218): once the sealed image, and for a fork the placement table, has been read. -/
def doVariantLoadComplete (x : Nat) (s : State) : State :=
  let e := s.entry x
  let got := e.sealed.getD (false, [])
  if !e.loading || !s.working || e.sealed.isNone || (got.1 && s.isFork e.slot && e.placeTab.isNone) then s
  else
    let opened := s.unsealed x got.2
    let plain := opened.getD []
    let r := s.loadRefusal x got.1 got.2 opened
    if r ≠ 0 then s.loadRefused x r
    else if s.isFork e.slot then
      let f := s.stageFork e.slot plain (e.placeTab.getD [])
      if f.1 ≠ 0 then s.loadRefused x f.1
      else
        let s := ((f.2.updEntry x fun e => e.loaded plain true).updSlot e.slot fun y => { y with forkEntry := some x }).alert 4
        s.loadAnswer e 0 (s.handle x)
    else
      let s := s.granWrite e.inst e.gran plain
      let s := s.granHeal (s.granBase e.inst + e.gran) plain.length
      let s := s.updEntry x fun e => e.loaded plain false
      let s := if e.pageIn then (s.askPageIn x [x]).getD s else s
      s.loadAnswer e 0 (s.handle x)

/-! ### VARIANT_DELETE, VARIANT_PAGE_IN, VARIANT_QUERY (R213, R214) -/

/-- The handle of a message, as far as it may be used: the entry, or the status that refuses it. -/
def State.msgEntry (s : State) (i : Nat) (msg : List Byte) : Except Nat Nat :=
  match s.handleEntry i (leAt msg 8 4) with
  | none => .error stUnknown
  | some x => if (s.entry x).state = .loading then .error stUnknown else .ok x

/-- A fork's entry is removed: its requests are withdrawn and its slot retires (R205, R208, R232). -/
def State.retireFork (s : State) (x : Nat) : State :=
  let e := s.entry x
  if e.fork then (s.withdrawPins x).updSlot e.slot fun y => if y.state = .active then { y with state := .retiring } else y
  else s

/-- VARIANT_DELETE (R213, R214): a STALE entry stays STALE until no pin remains. DEDUCED (log 63). -/
def doVariantDelete (port i : Nat) (ide : Bool) (msg : List Byte) (s : State) : State :=
  s.message port i ide 2 msg fun s =>
    match s.msgEntry i msg with
    | .error c => s.reply i c (msgTag msg) []
    | .ok x =>
      if (s.entry x).state = .deleting then s.reply i stDeleting (msgTag msg) []
      else
        let s := (s.retireFork x).answerWaiters x stDeleting
        (s.updEntry x fun e =>
          (if e.state = EntryState.stale then { e with freed := true } else { e with state := EntryState.deleting }).settle).reply i 0 (msgTag msg) []

/-- VARIANT_PAGE_IN (R214, R229, R230). -/
def doVariantPageIn (port i : Nat) (ide : Bool) (msg : List Byte) (s : State) : State :=
  s.message port i ide 3 msg fun s =>
    let tag := msgTag msg
    match s.msgEntry i msg with
    | .error c => s.reply i c tag []
    | .ok x =>
      let st := (s.entry x).state
      let wait (s : State) : State := s.updEntry x fun e => { e with waiters := e.waiters ++ [tag] }
      if st = .deleting then s.reply i stDeleting tag []
      else if st = .stale then s.reply i stStale tag []
      else if st = .resident then s.reply i 0 tag []
      else if st = .paging then wait s
      else
        match s.askPageIn x [x] with
        | none => s.reply i stTooLarge tag []
        | some s => wait s

/-- Code of an entry state (R213). -/
def EntryState.code : EntryState → Nat
  | .free => 0 | .loading => 1 | .held => 2 | .paging => 3 | .resident => 4 | .evicting => 5 | .deleting => 6 | .stale => 7

/-- VARIANT_QUERY (R214, R373). DEDUCED (log 63). -/
def doVariantQuery (port i : Nat) (ide : Bool) (msg : List Byte) (s : State) : State :=
  s.message port i ide 4 msg fun s =>
    match s.msgEntry i msg with
    | .error c => s.reply i c (msgTag msg) []
    | .ok x =>
      let e := s.entry x
      s.reply i 0 (msgTag msg) (leBytes 1 e.state.code ++ leBytes 2 e.pins ++ leBytes 2 e.frames.length)

/-! ### FORK_FROM_BASE (R208) -/

/-- FORK_FROM_BASE: the slot is staged from an ACTIVE base; the reply comes with FORK_COPY_COMPLETE.
DEDUCED (log 35). -/
def doForkFromBase (port i : Nat) (ide : Bool) (msg : List Byte) (s : State) : State :=
  s.message port i ide 5 msg fun s =>
    let tag := msgTag msg
    let k := leAt msg 8 1
    let src := leAt msg 9 1
    let r := s.forkRefusal k i
    let readers := ((s.slotRec? src).map (·.readers)).getD 0
    let size (k : Nat) : Nat := ((s.slotExtents k).map (·.2.2)).sum
    if r ≠ 0 then s.reply i r tag []
    else if (s.slot src).state ≠ .active ∨ s.isFork src ∨ (s.slotRec? src).isNone then s.reply i stBaseNotActive tag []
    else if !bit readers i then s.reply i stNotReader tag []
    else if size k < size src then s.reply i stTooLarge tag []
    else
      match s.freeEntry? with
      | none => s.reply i stNoEntry tag []
      | some x =>
        let d := (s.slot src).digest
        let s := s.copySlot src k
        let s := s.updEntry x fun e =>
          { ({} : Entry) with state := .loading, gen := e.gen, inst := i, slot := k, fork := true, kinds := 64, lineage := d }
        s.updSlot k fun y =>
          { y with state := .staging, redirect := none, digest := d, forkEntry := some x, copyFrom := some (src, i, tag) }

/-! ### Page-ins (R229) -/

/-- Whether room is there for the page-in of entry x beside those asked for before it (R230). DEDUCED (log 82). -/
def State.pageInRoom (s : State) (x : Nat) : Bool :=
  let e := s.entry x
  let waits (d : Entry) : Bool := d.paging && !d.started
  let before := (s.cat.filter fun d => d.2.inst = e.inst && waits d.2 && decide (d.2.asked < e.asked)).map fun d => d.2.need
  let after := (s.cat.filter fun d => waits d.2 && d.2.frames.isEmpty && decide (e.asked < d.2.asked)).length
  decide ((s.usedFrames e.inst).length + before.sum + e.need ≤ s.totalFrames e.inst) && decide (s.residents ≤ 16384 + after)

/-- PAGE_IN_START (R222, R229): once room is available, the entry takes its frames. -/
def doPageInStart (x : Nat) (s : State) : State :=
  let e := s.entry x
  if !e.paging || e.started || !s.working then s
  else
    let fs := s.allocFrames e.inst x e.need
    if fs.length < e.need ∨ s.pageInRoom x = false then s
    else s.updEntry x fun e => { e with started := true, cur := { e.cur with frames := fs } }

/-- PAGE_IN_COMPLETE (R220, R229). -/
def doPageInComplete (x : Nat) (s : State) : State :=
  let e := s.entry x
  if !e.paging || !e.started || !s.working then s
  else
    let img := residentImage (s.granRead e.inst e.gran e.len) e.cur.frames
    let s := s.writeFrames e.cur.frames img
    let s := s.updEntry x fun e =>
      ({ e with paging := false, started := false, state := if e.state = EntryState.paging then .resident else e.state }).settle
    let s := if s.confid e.inst then s else { s with adm := { s.adm with pageIns := holdAdd 0xFFFF s.adm.pageIns 1 } }
    s.answerWaiters x 0

/-- VARIANT_LOAD (R215). -/
def execVariantLoad (port inst : Nat) (ide : Bool) (msg : List Byte) (s : State) : Out :=
  .next (doVariantLoad port inst ide msg s)
/-- VARIANT_LOAD_COMPLETE (R218). -/
def execVariantLoadComplete (index : Nat) (s : State) : Out := .next (doVariantLoadComplete index s)
/-- VARIANT_DELETE (R214). -/
def execVariantDelete (port inst : Nat) (ide : Bool) (msg : List Byte) (s : State) : Out :=
  .next (doVariantDelete port inst ide msg s)
/-- VARIANT_PAGE_IN (R214). -/
def execVariantPageIn (port inst : Nat) (ide : Bool) (msg : List Byte) (s : State) : Out :=
  .next (doVariantPageIn port inst ide msg s)
/-- VARIANT_QUERY (R214). -/
def execVariantQuery (port inst : Nat) (ide : Bool) (msg : List Byte) (s : State) : Out :=
  .next (doVariantQuery port inst ide msg s)
/-- FORK_FROM_BASE (R208). -/
def execForkFromBase (port inst : Nat) (ide : Bool) (msg : List Byte) (s : State) : Out :=
  .next (doForkFromBase port inst ide msg s)
/-- PAGE_IN_START (R229). -/
def execPageInStart (index : Nat) (s : State) : Out := .next (doPageInStart index s)
/-- PAGE_IN_COMPLETE (R229). -/
def execPageInComplete (index : Nat) (s : State) : Out := .next (doPageInComplete index s)

end Sys2Proof.Machine
end

