-- ==== Sys2Proof/Machine/Training.lean ====
section
/-! DEFINITION. Training records, the slow tier and SNAPSHOT (R240 to R272). -/

namespace Sys2Proof.Machine

/-! ### Status codes (R248) -/

def stTrainFull : Nat := 0x50
def stTrainInvalid : Nat := 0x51
def stTrainBusy : Nat := 0x52
def stNonfinite : Nat := 0x53
def stTrainUnknown : Nat := 0x54
def stSnapFailed : Nat := 0x55
def stMirrorConflict : Nat := 0x56

/-! ### The record (R243 to R245) -/

/-- A little-endian field of a training record. -/
def State.tr (s : State) (x off n : Nat) : Nat := leNat (s.panReadG ((s.train1 x).addr.toNat + off) n)
def State.trPut (s : State) (x off n v : Nat) : State := s.panWriteG ((s.train1 x).addr.toNat + off) (leBytes n v)

/-- Global address of granary offset (R35). -/
def granGlobal (off : Nat) : Nat := 2 * 2 ^ 60 + off

/-- Bytes of an instance's own memory at a global address, in the pan or the granary. -/
def State.memRead (s : State) (i a n : Nat) : List Byte :=
  match s.place a with
  | .pan p off => s.panRead p off n
  | .gran off => s.granRead i off n
  | _ => List.replicate n 0
def State.memWrite (s : State) (i a : Nat) (bs : List Byte) : State :=
  match s.place a with
  | .pan p off => (s.panWrite p off bs).panHeal p off bs.length
  | .gran off => (s.granWrite i off bs).granHeal (s.granBase i + off) bs.length
  | _ => s

/-- Whether a range lies in pan regions of the instance of the given kinds. -/
def State.inKinds (s : State) (i : Nat) (kinds : List Nat) (a n : Nat) : Bool :=
  match s.place a with
  | .pan p off => decide (off + n ≤ columnBytes) && s.carvesAll (fun c => kinds.contains c.kind && c.owner = i) p 225 off n
  | _ => false
def State.inGran (s : State) (i a n : Nat) : Bool :=
  match s.place a with
  | .gran off => decide (off + n ≤ s.granSize i)
  | _ => false

/-- A tensor-table entry (R245). -/
def tRows (e : List Byte) : Nat := leAt e 0 4
def tCols (e : List Byte) : Nat := leAt e 4 4
def tMaster (e : List Byte) : Nat := leAt e 8 8
def tM1 (e : List Byte) : Nat := leAt e 16 8
def tM2 (e : List Byte) : Nat := leAt e 24 8
def tWork (e : List Byte) : Nat := leAt e 32 8
def tWorkGrn (e : List Byte) : Nat := leAt e 40 8
def tStamps (e : List Byte) : Nat := leAt e 48 8
def tGrad (e : List Byte) : Nat := leAt e 56 8
def tMask (e : List Byte) : Nat := leAt e 64 8
/-- Row lengths of the arrays (R245). -/
def tMasterRow (long : Bool) (e : List Byte) : Nat := tCols e * (if long then 5 else 4)
def tWorkRow (e : List Byte) : Nat := tCols e * 2
def tGradRow (e : List Byte) : Nat := tCols e * 4
def tMomentRow (e : List Byte) : Nat := blocksOf (tCols e) * 65

def recSlow (r : List Byte) : Bool := bit (leAt r 5 1) 0
def recLong (r : List Byte) : Bool := bit (leAt r 5 1) 1
/-- Effective LAG: 0 means 2 on the slow tier (R244). -/
def recLag (r : List Byte) : Nat := if recSlow r then (if leAt r 6 1 = 0 then 2 else leAt r 6 1) else 0
def recTensors (r : List Byte) : Nat := leAt r 0x44 2

/-- Entries of a table image. -/
def tableEntries (n : Nat) (t : List Byte) : List (List Byte) := (List.range n).map fun k => slice t (96 * k) 96

/-- Ranges of the record itself that its table gives (R244, R246). -/
def recordFields (r : List Byte) : Bool :=
  let opt := leAt r 7 1
  let lag := leAt r 6 1
  let exp (o : Nat) : Int := sext 8 (leAt r o 1)
  decide (leAt r 5 1 < 4) && decide (opt ≤ 3) && (if recSlow r then decide (lag ≤ 4) && opt ≠ 0 else lag = 0) &&
  decide (-126 ≤ exp 0x20) && decide (exp 0x21 ≤ exp 0x22) && decide (1 ≤ recTensors r) && decide (recTensors r ≤ 4096) &&
  leAt r 0x46 2 = 0 && allZero (slice r 0x68 152) &&
  (!recSlow r || (leAt r 0x50 8 % 512 = 0 && leAt r 0x58 8 % 512 = 0))

/-- The checks of R246 on a tensor entry. -/
def State.tensorOk (s : State) (i : Nat) (r e : List Byte) : Bool :=
  let slow := recSlow r
  let n := tRows e
  let arr (a row : Nat) : Bool := if slow then s.inGran i a (n * row) else s.inKinds i [2] a (n * row)
  let maskBytes := ceilDiv n 8
  decide (1 ≤ n) && decide (n ≤ 16777215) && decide (1 ≤ tCols e) && decide (tCols e ≤ 65535) && allZero (slice e 72 24) &&
  arr (tMaster e) (tMasterRow (recLong r) e) && arr (tM1 e) (tMomentRow e) && arr (tM2 e) (tMomentRow e) &&
  s.inKinds i (if slow then [2, 3] else [2]) (tWork e) (n * tWorkRow e) &&
  (tMask e = 0 || s.inKinds i [2, 3] (tMask e) maskBytes || s.inGran i (tMask e) maskBytes) &&
  (if slow then
    s.inGran i (tWorkGrn e) (n * tWorkRow e) && tStamps e = 0 &&
    (List.range (recLag r)).all fun j =>
      s.inGran i (granGlobal (leAt r 0x50 8 + j * leAt r 0x58 8 + tGrad e)) (n * tGradRow e)
   else tWorkGrn e = 0 && tGrad e = 0 && s.inKinds i [2] (tStamps e) (n * 8))

/-- R246 for a record to lie at `addr`, with its table. DEDUCED (log 61). -/
def State.recordOk (s : State) (i addr : Nat) (r table : List Byte) : Bool :=
  let tab := leAt r 0x48 8
  let tpl := leAt r 0x60 8
  let tplBytes := 0x80 + 32 * recTensors r
  recordFields r && addr % 256 = 0 && s.inKinds i [2] addr 256 && s.inKinds i [2] tab (96 * recTensors r) &&
  (tpl = 0 || s.inKinds i [2, 3] tpl tplBytes || s.inGran i tpl tplBytes) &&
  (tableEntries (recTensors r) table).all (s.tensorOk i r)

/-- The check of a variant handle at admission and at TRAIN_OPEN (R212): the entry, or the refusal. -/
def State.variantHandle (s : State) (i h : Nat) : Except Nat Nat :=
  let x := bits h 15 0
  let e := s.entry x
  if bits h 29 24 ≠ i ∨ e.state = .free ∨ e.inst ≠ i ∨ bits h 23 16 ≠ e.gen ∨ bits h 31 30 ≠ e.slot then .error stUnknown
  else if e.state = .stale then .error stStale
  else if e.state = .deleting then .error stDeleting
  else if e.state = .loading then .error stUnknown
  else .ok x

/-- The tensor table of an open record, and the record's bytes. -/
def State.recBytes (s : State) (x : Nat) : List Byte := s.panReadG (s.train1 x).addr.toNat 256
def State.recTable (s : State) (x : Nat) : List (List Byte) :=
  let r := s.recBytes x
  tableEntries (recTensors r) (s.panReadG (leAt r 0x48 8) (96 * recTensors r))

/-- The lowest free index of a tier (R243). -/
def State.freeTrain (s : State) (slow : Bool) : Option Nat :=
  ((List.range (if slow then 4096 else 256)).map (· + if slow then 0x1000 else 0)).find? fun x => !(s.train1 x).isOpen

/-- A record's device-written fields at open (R244). DEDUCED (log 61). -/
def openRecord (r : List Byte) : List Byte :=
  slice r 0 4 ++ leBytes 1 1 ++ slice r 5 3 ++ leBytes 24 0 ++ slice r 0x20 3 ++ leBytes 1 0 ++ slice r 0x24 2 ++
  leBytes 4 0 ++ slice r 0x2A 2 ++ leBytes 4 0 ++ slice r 0x30 0xD0

/-- Zero buffer j of a slow-tier record (R246, R261, R262). DESIGN CHOICE (log 26). -/
def State.zeroBuffer (s : State) (x j : Nat) : State :=
  let r := s.recBytes x
  let i := (s.train1 x).inst
  (s.recTable x).foldl
    (fun s e => s.granZeroAbs (s.granBase i + leAt r 0x50 8 + j * leAt r 0x58 8 + tGrad e) (tRows e * tGradRow e)) s

/-- TRAIN_OPEN (R243, R246, R247): the record image is read from the instance's host. DEDUCED (log 61). -/
def doTrainOpen (port i : Nat) (ide : Bool) (msg : List Byte) (s : State) : State :=
  s.message port i ide 0x10 msg fun s => s.fetch port (some i) (.record i msg) (leAt msg 8 8) 256

/-- The record image is there: it is checked by itself, and the table image is read next (R244, R246). DEDUCED (log 61). -/
def State.recordArrived (s : State) (i : Nat) (msg : List Byte) (ok : Bool) (record : List Byte) : State :=
  let r := padTo 256 record
  if !ok then s.reply i stHostRead (msgTag msg) []
  else if !recordFields r then s.reply i stTrainInvalid (msgTag msg) []
  else s.fetch (s.instPort i) (some i) (.table i msg r) (leAt msg 0x10 8) (96 * recTensors r)

/-- The record is checked with its table, written to the pan and registered under the lowest free index (R243, R246).
DEDUCED (log 61). -/
def State.openTrain (s : State) (i : Nat) (msg r : List Byte) (ok : Bool) (table : List Byte) : State :=
  let tag := msgTag msg
  let addr := leAt msg 0x18 8
  if !ok then s.reply i stHostRead tag []
  else if !s.recordOk i addr r table then s.reply i stTrainInvalid tag []
  else
    match s.variantHandle i (leAt r 0 4) with
    | .error c => s.reply i c tag []
    | .ok e =>
      match s.freeTrain (recSlow r) with
      | none => s.reply i stTrainFull tag []
      | some x =>
        let s := s.updTrain x fun _ =>
          { inst := i, isOpen := true, addr := BitVec.ofNat 64 addr, zeroTag := if recSlow r then some tag else none
            slot := (s.entry e).slot }
        let s := s.memWrite i addr (openRecord r)
        let s := s.memWrite i (leAt r 0x48 8) (padTo (96 * recTensors r) table)
        if recSlow r then s else s.reply i 0 tag (leBytes 4 x)

/-- TRAIN_OPEN_ZEROING_COMPLETE (R246). -/
def doTrainOpenZeroingComplete (x : Nat) (s : State) : State :=
  match (s.train1 x).zeroTag with
  | none => s
  | some tag =>
    if !s.working then s
    else
      let i := (s.train1 x).inst
      let s := (List.range (recLag (s.recBytes x))).foldl (fun s j => s.zeroBuffer x j) s
      (s.updTrain x fun t => { t with zeroTag := none }).reply i 0 tag (leBytes 4 x)

/-! ### TRAIN_SET and TRAIN_QUERY (R247, R260, R271) -/

/-- The open record of an instance that a message names. -/
def State.msgTrain (s : State) (i : Nat) (msg : List Byte) : Option Nat :=
  let x := leAt msg 8 2
  let t := s.train1 x
  if t.isOpen ∧ t.inst = i then some x else none

/-- The training index of a job. -/
def Job.train (j : Job) : Option Nat := let x := leAt j.raw 0x4C 2; if x = 0xFFFF then none else some x

/-- Jobs accepted and incomplete on a record, and whether one runs. -/
def Job.decided (j : Job) : Bool := j.phase ≠ .undecided
def Job.started (j : Job) : Bool := j.phase = .running || j.phase = .sliced || j.phase = .stopped
def State.trainJob (s : State) (x : Nat) : Bool := s.jobs.any fun j => j.train = some x && j.decided
def State.trainRuns (s : State) (x : Nat) : Bool := s.jobs.any fun j => j.train = some x && j.started && j.endStatus.isNone

/-- Size of a settable field, zero for any other offset (R247). -/
def settable (off : Nat) : Nat :=
  if off = 0x30 ∨ off = 0x34 ∨ off = 0x38 ∨ off = 0x3C ∨ off = 0x40 then 4
  else if off = 0x24 then 2
  else if off = 0x20 ∨ off = 0x21 ∨ off = 0x22 then 1
  else 0

/-- Whether the record keeps its ranges with a new value (R244). -/
def setOk (r : List Byte) (off v : Nat) : Bool :=
  let exp (o : Nat) : Int := sext 8 (if o = off then v else leAt r o 1)
  settable off ≠ 0 && decide (-126 ≤ exp 0x20) && decide (exp 0x21 ≤ exp 0x22)

/-- TRAIN_SET (R247). -/
def doTrainSet (port i : Nat) (ide : Bool) (msg : List Byte) (s : State) : State :=
  s.message port i ide 0x11 msg fun s =>
    let tag := msgTag msg
    match s.msgTrain i msg with
    | none => s.reply i stTrainUnknown tag []
    | some x =>
      let off := leAt msg 0xA 2
      let v := leAt msg 0xC 4
      let st := s.tr x 4 1
      if st = 4 then s.reply i stNonfinite tag []
      else if st = 3 then s.reply i stStale tag []
      else if !setOk (s.recBytes x) off v then s.reply i stTrainInvalid tag []
      else if s.trainRuns x then (s.updTrain x fun t => { t with sets := t.sets ++ [(off, v)] }).reply i 0 tag []
      else (s.trPut x off (settable off) v).reply i 0 tag []

/-- TRAIN_QUERY (R247, R373). -/
def doTrainQuery (port i : Nat) (ide : Bool) (msg : List Byte) (s : State) : State :=
  s.message port i ide 0x12 msg fun s =>
    match s.msgTrain i msg with
    | none => s.reply i stTrainUnknown (msgTag msg) []
    | some x =>
      s.reply i 0 (msgTag msg)
        (leBytes 1 (s.tr x 4 1) ++ leBytes 1 (s.tr x 0x20 1) ++ leBytes 6 0 ++ leBytes 8 (s.tr x 8 8) ++
          leBytes 8 (s.tr x 0x10 8) ++ leBytes 4 (s.tr x 0x2C 4))

/-- Parameters of a training record. -/
def State.trainParams (s : State) (x : Nat) : Nat := ((s.recTable x).map fun e => tRows e * tCols e).sum

/-! ### SNAPSHOT (R268 to R270) -/

/-- The template of a record, when it keeps R269: its header and component table, which keep R216 and R217. -/
def State.template (s : State) (x : Nat) : Option (List Byte) :=
  let r := s.recBytes x
  let i := (s.train1 x).inst
  let a := leAt r 0x60 8
  let n := recTensors r
  if a = 0 then none
  else
    let b := s.memRead i a (0x80 + 32 * n)
    let ts := s.recTable x
    if imageHeadOk b && imgComponents b = n &&
        (List.range n).all (fun k =>
          let c := imgComp b k
          let e := ts.getD k []
          let f := leAt c 1 1
          leAt c 8 4 = tRows e && leAt c 12 4 = tCols e && f ≠ fBIT &&
            decide (tRows e * rowBytes f (tCols e) ≤ leAt c 20 4))
    then some b else none

/-- The plaintext image of a record's working copy under a template (R269). -/
def State.snapImage (s : State) (x : Nat) (tpl : List Byte) : List Byte :=
  let i := (s.train1 x).inst
  let ts := s.recTable x
  let head := slice tpl 0 0x10 ++ leBytes 48 0 ++ digestBytes (s.slot (s.train1 x).slot).digest ++ tpl.drop 0x80
  let payload := (List.range (imgComponents tpl)).foldl
    (fun (acc : List Byte) k =>
      let c := imgComp tpl k
      let t := ts.getD k []
      let rows := (List.range (tRows t)).flatMap fun r =>
        let w := s.memRead i (tWork t + r * tWorkRow t) (tWorkRow t)
        storeRow (leAt c 1 1) Config.thresherSatm ((List.range (tCols t)).map fun k => decodeNum fBF16 (leAt w (2 * k) 2))
      padTo (leAt c 16 4) acc ++ rows) []
  head ++ padTo (imgPayload tpl) payload

/-- A captured image of record x is sealed and leaves for its destination (R269, R270, R384): to the host, with a flush behind it as
under R105, or as an instance stream. -/
def State.sendSnap (s : State) (x i : Nat) (q : Snap) (plain : List Byte) : State :=
  let d := s.sec.draws
  let s := s.drawn 2
  let sealed := sealImage q.key (drawBytes d) (drawBytes (d + 1)) plain
  if q.dest = 0 then
    (s.hostWrite (s.instPort i) (some i) q.addr sealed false).hostAsk (s.instPort i) (some i) q.addr 0 (.snap x q.tag)
  else
    let env := leBytes 1 q.rslot ++ leBytes 7 0 ++ leBytes 8 q.addr ++ leBytes 8 sealed.length ++ leBytes 40 0
    (pieces 4096 (sealed.length + 1) 0 (env ++ sealed)).foldl
      (fun s x => s.linkSend q.link 2 q.rinst (linkPlain 5 0 0 x.1 0 x.2)) s

/-- Every snapshot of a record that waits reads the working copy now (R268). -/
def State.captureNow (s : State) (x : Nat) : State :=
  let t := s.train1 x
  let step := if recSlow (s.recBytes x) then s.tr x 0x18 8 else s.tr x 8 8
  t.snaps.zipIdx.foldl
    (fun s q =>
      if q.1.captured.isSome then s
      else
        match s.template x with
        | none =>
          (s.updTrain x fun t => { t with snaps := t.snaps.erase q.1 }).reply t.inst stTrainInvalid q.1.tag []
        | some tpl =>
          let img := s.snapImage x tpl
          let s := s.updTrain x fun t =>
            { t with snaps := mapIf (fun y => y = q.1) (fun y => { y with captured := some step, image := img }) t.snaps }
          s.sendSnap x t.inst q.1 img)
    (s.updTrain x fun t => { t with capDue := false })

/-- Whether an update entry or a refresh of a record is in progress (R264). -/
def State.updating (s : State) (x : Nat) : Bool := (s.upd.run.any fun u => u.index = x) || (s.train1 x).refreshTo.isSome

/-- SNAPSHOT_CAPTURE (R268): the read waits for an update entry or a refresh of its record (R264). -/
def State.capture (s : State) (x : Nat) : State :=
  if (s.train1 x).snaps.all fun q => q.captured.isSome then s
  else if s.updating x then s.updTrain x fun t => { t with capDue := true }
  else s.captureNow x

/-- A capture that waited is made (R264). -/
def State.captureDue (s : State) (x : Nat) : State := if (s.train1 x).capDue then s.captureNow x else s

/-- A snapshot is placed in the ledgers of the thresher and of its port, at 56 GB/s, or of its link, at 98 GB/s (R42, R343). -/
def State.bookSnap (s : State) (x : Nat) (q : Snap) : State :=
  let n := (((s.template x).map fun b => b.length + imgPayload b)).getD 0
  if q.dest = 0 then s.book [10, portLedger (s.instPort (s.train1 x).inst)] s.tb.count (ceilDiv n 56) []
  else s.book [10, linkLedger q.link] s.tb.count (ceilDiv n 98) []

/-- SNAPSHOT (R268 to R270). -/
def doSnapshot (port i : Nat) (ide : Bool) (msg : List Byte) (s : State) : State :=
  s.message port i ide 0x13 msg fun s =>
    let tag := msgTag msg
    match s.msgTrain i msg with
    | none => s.reply i stTrainUnknown tag []
    | some x =>
      let q : Snap :=
        { tag := tag, dest := leAt msg 0xA 1, link := leAt msg 0xB 1, rinst := leAt msg 0xC 1, rslot := leAt msg 0xD 1,
          addr := leAt msg 0x10 8, key := slice msg 0x18 32, captured := none, image := [] }
      if leAt msg 0xE 1 ≠ 0 ∨ (s.template x).isNone then s.reply i stTrainInvalid tag []
      else if q.dest > 1 ∨ (q.dest = 1 ∧ ((s.linkRec? q.link).any (fun r => bit r.insts i && bit r.insts q.rinst) = false ∨
          s.linkReady q.link q.rinst = false)) ∨ (q.dest = 0 ∧ 2 ^ 57 ≤ q.addr) then
        s.reply i stSnapFailed tag []
      else
        let s := s.updTrain x fun t => { t with snaps := t.snaps ++ [q] }
        let s := s.bookSnap x q
        if s.trainRuns x then s else s.capture x

/-- SNAPSHOT_DELIVERED (R270): the oldest captured image has reached its destination, or failed; for the host the flush says which, for a
partner `ok` (DESIGN CHOICE, log 7). -/
def doSnapshotDelivered (x : Nat) (ok : Bool) (s : State) : State :=
  let t := s.train1 x
  match t.snaps.find? fun q => q.captured.isSome with
  | none => s
  | some q =>
    if !s.working || (q.dest = 0 && q.flushed.isNone) then s
    else
      let s := s.updTrain x fun t => { t with snaps := t.snaps.erase q }
      if (if q.dest = 0 then q.flushed.getD false else ok) then s.reply t.inst 0 q.tag (leBytes 8 (q.captured.getD 0) ++ digestBytes (Config.sha512 q.image))
      else s.reply t.inst stSnapFailed q.tag []

/-! ### TRAIN_CLOSE (R272) -/

/-- Whether the update queue holds an entry of a record. -/
def State.updPending (s : State) (x : Nat) : Nat :=
  (s.upd.queue.filter fun e => e.index = x).length + (if s.upd.run.any fun e => e.index = x then 1 else 0)

/-- The index is free again. -/
def State.closeTrain (s : State) (x tag : Nat) : State :=
  let i := (s.train1 x).inst
  (s.updTrain x fun _ => {}).reply i 0 tag []

/-- TRAIN_CLOSE (R272): while entries are queued the reply waits for the last. -/
def doTrainClose (port i : Nat) (ide : Bool) (msg : List Byte) (s : State) : State :=
  s.message port i ide 0x14 msg fun s =>
    let tag := msgTag msg
    match s.msgTrain i msg with
    | none => s.reply i stTrainUnknown tag []
    | some x =>
      if s.trainJob x || (s.train1 x).closeTag.isSome then s.reply i stTrainBusy tag []
      else if s.updPending x ≠ 0 then s.updTrain x fun t => { t with closeTag := some tag }
      else s.closeTrain x tag

/-! ### The granary update engines (R262, R264, R266) -/

/-- Division rounded once to F32 or A40. -/
def numDiv (fmt : Nat) (a b : Num) : Nat :=
  match a, b with
  | .nan, _ => (arith fmt .nan).1
  | _, .nan => (arith fmt .nan).1
  | .inf _, .inf _ => (arith fmt .nan).1
  | .inf n, .fin m _ _ => (arith fmt (.inf (n != m))).1
  | .fin n _ _, .inf m => (arith fmt (.fin (n != m) 0 0)).1
  | .fin n x e, .fin m y g =>
    if y = 0 then (arith fmt (if x = 0 then .nan else .inf (n != m))).1
    else
      let q := x * 2 ^ 128 / y
      let sticky := if x * 2 ^ 128 % y = 0 then 0 else 1
      (arith fmt (.fin (n != m) (2 * q + sticky) (e - g - 129))).1

/-- Square root rounded once to F32. -/
def numSqrt : Num → Nat
  | .nan => (arith 0 .nan).1
  | .inf n => (arith 0 (if n then .nan else .inf false)).1
  | .fin n x e =>
    if x = 0 then (arith 0 (.fin n 0 0)).1
    else if n then (arith 0 .nan).1
    else
      let y := if e % 2 = 0 then x * 2 ^ 128 else x * 2 ^ 129
      let g := if e % 2 = 0 then e - 128 else e - 129
      let r := Nat.sqrt y
      let sticky := if r * r = y then 0 else 1
      (arith 0 (.fin false (2 * r + sticky) (g / 2 - 1))).1

/-- One rounded operation on codes: of F32 (fmt 0) or A40 (fmt 1). DESIGN CHOICE (log 13). -/
def opAdd (fmt a b : Nat) : Nat := (arith fmt ((decodeNum (arithFmt fmt) a).add (decodeNum (arithFmt fmt) b))).1
def opSub (fmt a b : Nat) : Nat := (arith fmt ((decodeNum (arithFmt fmt) a).add (decodeNum (arithFmt fmt) b).neg)).1
def opMul (fmt a b : Nat) : Nat := (arith fmt (Num.mul (decodeNum (arithFmt fmt) a) (decodeNum (arithFmt fmt) b))).1
/-- A value of F32 in the arithmetic of the master. -/
def widen (fmt a : Nat) : Nat := (arith fmt (decodeNum fF32 a)).1

/-- BETA to the power t in F32 (R266): exact where the power is a code, else one of the two codes beside it. DESIGN CHOICE (log 13). -/
def betaPow (b : BitVec 32) (t : Nat) : Nat :=
  if t = 0 then 0x3F800000
  else
    match decodeNum fF32 b.toNat with
    | .fin n m e =>
      let v : Num := .fin false (m ^ t) (e * t)
      let c := (arith 0 v).1
      let sign := if n && t % 2 = 1 then 2 ^ 31 else 0
      let lo := if Num.lt v (decodeNum fF32 c) then c - 1 else c
      let exact : Bool := !Num.lt v (decodeNum fF32 c) && !Num.lt (decodeNum fF32 c) v
      sign + (if c = 0 ∨ exact then c else if Config.f32PowUp b t then lo + 1 else lo)
    | .inf n => (arith 0 (.inf (n && t % 2 = 1))).1
    | .nan => (arith 0 .nan).1

/-- One parameter under the record's optimiser (R266): p in the master's arithmetic, m and r as F32; the results. Every
operation of the table is rounded once, in its order. DESIGN CHOICE (log 13). -/
def optimise (opt fmt t : Nat) (u : UpdEntry) (p m r g : Nat) : Nat × Nat × Nat :=
  let lr := widen fmt u.lr.toNat
  let wd := widen fmt u.wd.toNat
  let b1 := u.beta1.toNat
  let b2 := u.beta2.toNat
  let one := 0x3F800000
  let step (d : Nat) : Nat := opSub fmt p (opMul fmt lr (opAdd fmt (widen fmt d) (opMul fmt wd p)))
  if opt = 1 then
    let m' := opAdd 0 (opMul 0 b1 m) g
    (step m', m', r)
  else if opt = 2 then
    let m' := opAdd 0 (opMul 0 b1 m) (opMul 0 (opSub 0 one b1) g)
    let r' := numSqrt (decodeNum fF32 (opAdd 0 (opMul 0 b2 (opMul 0 r r)) (opMul 0 (opSub 0 one b2) (opMul 0 g g))))
    let mh := numDiv 0 (decodeNum fF32 m') (decodeNum fF32 (opSub 0 one (betaPow u.beta1 t)))
    let rh := numDiv 0 (decodeNum fF32 r')
      (decodeNum fF32 (numSqrt (decodeNum fF32 (opSub 0 one (betaPow u.beta2 t)))))
    let d := numDiv 0 (decodeNum fF32 mh) (decodeNum fF32 (opAdd 0 rh u.eps.toNat))
    (step d, m', r')
  else
    let c := opAdd 0 (opMul 0 b1 m) (opMul 0 (opSub 0 one b1) g)
    let sg := match decodeNum fF32 c with
      | .nan => c
      | .inf n => if n then 0xBF800000 else one
      | .fin n k _ => if k = 0 then 0 else if n then 0xBF800000 else one
    (step sg, opAdd 0 (opMul 0 b2 m) (opMul 0 (opSub 0 one b2) g), r)

/-- Draws that each lane of the update engines' generator makes for one row (R169, R266). -/
def rowDraws (opt cols : Nat) : Nat := ceilDiv cols 32 * (if opt = 2 then 2 else 1)

/-- One state row (R262, R266): master, moments and WORK_GRN; the buffer is zeroed with the rest. `base` is how many values each lane
of the engines' generator has drawn for the entry (R169). DEDUCED (log 62). -/
def State.updateRow (s : State) (x i : Nat) (rec e : List Byte) (u : UpdEntry) (row base : Nat) : State :=
  let long := recLong rec
  let fmt := if long then 1 else 0
  let opt := leAt rec 7 1
  let mw := if long then 5 else 4
  let cols := tCols e
  let master := s.memRead i (tMaster e + row * tMasterRow long e) (tMasterRow long e)
  let f32 (v : Num) : Nat := (arith 0 v).1
  let ms := (unpackRow 3 cols (s.memRead i (tM1 e + row * tMomentRow e) (tMomentRow e))).map f32
  let rs := (unpackRow fUF8 cols (s.memRead i (tM2 e + row * tMomentRow e) (tMomentRow e))).map f32
  let buf := leAt rec 0x50 8 + u.step % recLag rec * leAt rec 0x58 8 + tGrad e + row * tGradRow e
  let grad := s.granRead i buf (tGradRow e)
  let scale := sext 8 u.scale
  let t := u.step - u.skipped
  let out := (List.range cols).map fun k =>
    let g := f32 ((decodeNum fF32 (leAt grad (4 * k) 4)).scale (-scale))
    optimise opt fmt t u (leAt master (mw * k) mw) (ms.getD k 0) (rs.getD k 0) g
  let draw (base k : Nat) : Rnd := .sr (Config.srDraw x u.step 1023 (k % 32) ((base + k / 32) % 2 ^ 48)).toNat
  let s := s.memWrite i (tMaster e + row * tMasterRow long e) (out.flatMap fun o => leBytes mw o.1)
  let s := s.memWrite i (tM1 e + row * tMomentRow e)
    (packRow 3 Config.thresherSatm (draw base) (out.map fun o => decodeNum fF32 o.2.1))
  let s := if opt = 2 then
      s.memWrite i (tM2 e + row * tMomentRow e)
        (packRow fUF8 Config.thresherSatm (draw (base + ceilDiv cols 32)) (out.map fun o => decodeNum fF32 o.2.2))
    else s
  s.memWrite i (tWorkGrn e + row * tWorkRow e)
    (out.flatMap fun o => leBytes 2 (convertNum fBF16 .rne Config.thresherSatm (decodeNum (arithFmt fmt) o.1)).1)

/-- Whether a row is trained (R245, R255). -/
def State.rowTrained (s : State) (i : Nat) (e : List Byte) (row : Nat) : Bool :=
  tMask e = 0 || bit (leNat (s.memRead i (tMask e + row / 8) 1)) (row % 8)

/-- UPDATE_ENTRY_START (R262, R264): entries run in queue order; one waits for its own record's refresh, which holds no entry of another
record. DEDUCED (log 62). -/
def doUpdateEntryStart (s : State) : State :=
  match s.upd.run, s.upd.queue.find? fun u => (s.train1 u.index).refreshTo.isNone with
  | none, some u => if !s.working then s else { s with upd := { s.upd with queue := s.upd.queue.erase u, run := some u } }
  | _, _ => s

/-- UPDATE_ENTRY_COMPLETE (R262). DEDUCED (log 62). -/
def doUpdateEntryComplete (s : State) : State :=
  match s.upd.run with
  | none => s
  | some u =>
    if !s.working then s
    else
      let x := u.index
      let i := (s.train1 x).inst
      let rec' := s.recBytes x
      let tab := s.recTable x
      let s :=
        if u.skip then s
        else
          (tab.foldl
            (fun (a : State × Nat) e =>
              ((List.range (tRows e)).filter fun r => a.1.rowTrained i e r).foldl
                (fun (a : State × Nat) r => (a.1.updateRow x i rec' e u r a.2, a.2 + rowDraws (leAt rec' 7 1) (tCols e))) a) (s, 0)).1
      let s := s.zeroBuffer x (u.step % recLag rec')
      let s := s.trPut x 0x10 8 u.step
      let s := { s with upd := { s.upd with
        run := none
        applied := if u.skip || s.confid i then s.upd.applied else holdAdd 0xFFFFFFFF s.upd.applied 1
        skipped := if u.skip && !s.confid i then holdAdd 0xFFFFFFFF s.upd.skipped 1 else s.upd.skipped } }
      let s := s.captureDue x
      match (s.train1 x).closeTag with
      | some tag => if s.updPending x = 0 then s.closeTrain x tag else s
      | none => s

/-- A refresh starts once nothing of its record is in progress (R263, R264). -/
def State.startRefresh (s : State) (x : Nat) : State :=
  if s.updating x then s
  else
    let a := s.tr x 0x10 8
    s.updTrain x fun t => { t with refreshTo := some a }

/-- REFRESH_COMPLETE (R263). -/
def doRefreshComplete (x : Nat) (s : State) : State :=
  let t := s.train1 x
  match t.refreshTo with
  | none => s
  | some a =>
    if !s.working then s
    else
      let s := (s.recTable x).foldl
        (fun s e =>
          let n := tRows e * tWorkRow e
          s.memWrite t.inst (tWork e) (s.memRead t.inst (tWorkGrn e) n)) s
      ((s.updTrain x fun t => { t with refreshTo := none }).trPut x 0x18 8 a).captureDue x

/-- TRAIN_OPEN (R246). -/
def execTrainOpen (port inst : Nat) (ide : Bool) (msg : List Byte) (s : State) : Out :=
  .next (doTrainOpen port inst ide msg s)
/-- TRAIN_OPEN_ZEROING_COMPLETE (R246). -/
def execTrainOpenZeroingComplete (index : Nat) (s : State) : Out := .next (doTrainOpenZeroingComplete index s)
/-- TRAIN_SET (R247). -/
def execTrainSet (port inst : Nat) (ide : Bool) (msg : List Byte) (s : State) : Out :=
  .next (doTrainSet port inst ide msg s)
/-- TRAIN_QUERY (R247). -/
def execTrainQuery (port inst : Nat) (ide : Bool) (msg : List Byte) (s : State) : Out :=
  .next (doTrainQuery port inst ide msg s)
/-- SNAPSHOT (R268). -/
def execSnapshot (port inst : Nat) (ide : Bool) (msg : List Byte) (s : State) : Out :=
  .next (doSnapshot port inst ide msg s)
/-- SNAPSHOT_DELIVERED (R270). -/
def execSnapshotDelivered (index : Nat) (ok : Bool) (s : State) : Out := .next (doSnapshotDelivered index ok s)
/-- TRAIN_CLOSE (R272). -/
def execTrainClose (port inst : Nat) (ide : Bool) (msg : List Byte) (s : State) : Out :=
  .next (doTrainClose port inst ide msg s)
/-- UPDATE_ENTRY_START (R262). -/
def execUpdateEntryStart (s : State) : Out := .next (doUpdateEntryStart s)
/-- UPDATE_ENTRY_COMPLETE (R262). -/
def execUpdateEntryComplete (s : State) : Out := .next (doUpdateEntryComplete s)
/-- REFRESH_COMPLETE (R263). -/
def execRefreshComplete (index : Nat) (s : State) : Out := .next (doRefreshComplete index s)

end Sys2Proof.Machine
end

