-- ==== Sys2Proof/Machine/Rates.lean ====
section
/-! DEFINITION. Field speed, the rate keeper, the floor, recalibration pauses and the time base (R330 to R339, R444,
R445). -/

namespace Sys2Proof.Machine

/-! ### The job descriptor (R364) -/

def Job.cls (j : Job) : Nat := leAt j.raw 4 1
def Job.tag (j : Job) : Nat := leAt j.raw 0 4
def Job.any (j : Job) : Bool := bit (leAt j.raw 5 1) 0
def Job.hasHandle (j : Job) : Bool := bit (leAt j.raw 5 1) 1
def Job.irq (j : Job) : Bool := bit (leAt j.raw 5 1) 2
def Job.spans (j : Job) : Bool := bit (leAt j.raw 5 1) 3
def Job.nFields (j : Job) : Nat := leAt j.raw 6 2
def Job.period (j : Job) : Nat := leAt j.raw 8 8
def Job.work (j : Job) : Nat := leAt j.raw 0x10 8
def Job.fixedNs (j : Job) : Nat := leAt j.raw 0x18 8
def Job.plans (j : Job) : Nat := leAt j.raw 0x20 4
def Job.steps (j : Job) : Nat := leAt j.raw 0x24 4
def Job.stretch (j : Job) : Nat := leAt j.raw 0x28 8
def Job.mask (j : Job) : List Nat := (List.range 80).filter fun f => bit (leAt j.raw 0x30 10) f
def Job.semBase (j : Job) : Nat := leAt j.raw 0x3A 2
def Job.semCount (j : Job) : Nat := leAt j.raw 0x3C 2
def Job.taskTable (j : Job) : Nat := leAt j.raw 0x40 8
def Job.nTasks (j : Job) : Nat := leAt j.raw 0x48 2
def Job.rows (j : Job) : Nat := leAt j.raw 0x4A 2
def Job.rowList (j : Job) : Nat := leAt j.raw 0x50 8
def Job.sheaf (j : Job) : Nat := leAt j.raw 0x58 8
def Job.fieldList (j : Job) : Nat := leAt j.raw 0x60 8
def Job.handle (j : Job) : Nat := leAt j.raw 0x68 4
def Job.recordAddr (j : Job) : Nat := leAt j.raw 0x70 8
def Job.span (j : Job) : Nat := leAt j.raw 0x80 4
def Job.parent (j : Job) : Nat := leAt j.raw 0x84 1
def Job.childLinks (j : Job) : List Nat := (List.range 6).filter fun n => bit (leAt j.raw 0x85 1) n
def Job.depth (j : Job) : Nat := leAt j.raw 0x86 1
/-- Request contexts a job holds (R367). -/
def Job.contexts (j : Job) : Nat := max 1 j.rows
/-- Whether a job's promise is renewed step by step (R340). -/
def Job.stepped (j : Job) : Bool := j.cls = 2 && j.steps ≠ 0

/-- Whether a promise is in force: not after a demotion, nor once the last step of a class B job has ended (R340, R353). -/
def Job.promised (j : Job) : Bool := !j.overrun && !(j.stepped && decide (j.steps ≤ j.step))

/-! ### Reports and the keeper (R331, R332) -/

/-- A junction reading, gathered for the window's average (R331, R397). -/
def Region.sense (g : Region) (temp : Nat) : Region := { g with temp := temp, tempSum := g.tempSum + temp, tempN := g.tempN + 1 }

/-- A region's own measurement is taken: rate, supply and hottest junction (R331, R332); `recent` keeps 100 ms of readings. -/
def State.measure (s : State) (r rate mv temp : Nat) : State :=
  let above := decide (102 * s.zen.rateTarget r < 100 * rate)
  let now := s.tb.count
  s.updRegion r fun g =>
    { g.sense temp with
      rate := rate
      mv := mv
      recent := (g.recent.filter fun x => decide (now ≤ x.1 + 100000000)) ++ [(now, temp)]
      aboveSince := if above then (if g.aboveSince.isSome then g.aboveSince else some now) else none }

/-- FLOOR_RECOMPUTE (R333). -/
def doFloorRecompute (s : State) : State :=
  if s.working then (List.range 80).foldl (fun s f => s.updRegion f fun g => { g with floor := s.floorRate f second }) s else s

/-- RATE_KEEPER_STEP (R332, R445): a region under a cap that holds it is not raised; one with no target returns to
V_TARGET_MV. DEDUCED (log 54). -/
def doRateKeeperStep (r : Nat) (s : State) : State :=
  if s.working = false ∨ s.mgt.stage < 8 ∨ 88 ≤ r then s
  else
    let g := s.region r
    let target := s.zen.rateTarget r
    let goal := if r < 80 then s.capped r target else target
    let step (mv : Nat) : State := s.updRegion r fun g => { g with mv := mv }
    if target = 0 then
      if g.mv < s.zen.vTarget r ∧ (80 ≤ r ∨ (s.capOf r).isNone) then step (min (g.mv + 5) (s.zen.vTarget r)) else s
    else if g.rate < goal then
      if g.mv < s.zen.vCeiling r then step (min (g.mv + 5) (s.zen.vCeiling r)) else s
    else if (g.aboveSince.any fun t => decide (t + 100000000 ≤ s.tb.count)) && decide (s.zen.vTarget r < g.mv) then
      step (max (g.mv - 5) (s.zen.vTarget r))
    else s

/-- SUPPLY_STEP (R445): the supply of a capped field falls while the field runs faster than its cap; the core supply is
never below 0.60 V (R454). DEDUCED (log 54). -/
def doSupplyStep (f : Nat) (s : State) : State :=
  match s.capOf f with
  | none => s
  | some c =>
    if 80 ≤ f ∨ s.working = false ∨ (s.region f).rate ≤ c ∨ (s.region f).mv ≤ 600 then s
    else s.updRegion f fun g => { g with mv := max 600 (g.mv - 5) }

/-! ### Recalibration (R34, R335) -/

/-- Whether a job counts on the field of a region; regions other than fields serve every job. -/
def Job.onRegion (j : Job) (r : Nat) : Bool := decide (80 ≤ r) || j.fields.contains r

/-- A job that admission has accepted and that has not ended. -/
def Job.live (j : Job) : Bool := j.phase ≠ .undecided && j.endStatus.isNone

/-- The latest completion a job may be moved to: its promise, or that of its last breach notice; a demoted job has none
(R352, R353). -/
def Job.limit (j : Job) : Nat := max j.promise (j.noticed.getD 0)

/-- Whether a pause of a region fits without moving an accepted job past its promise (R335). -/
def State.pauseFits (s : State) (r n : Nat) : Bool :=
  s.jobs.all fun j => !j.live || !j.onRegion r || !j.promised || decide (j.planned + n ≤ j.limit)

/-- The plans of the jobs on a region move by a pause. -/
def State.movePlans (s : State) (r n : Nat) : State :=
  { s with jobs := mapIf (fun j => j.live && j.onRegion r) (fun j => { j with planned := j.planned + n }) s.jobs }

/-- The region stops for 3 ms (R335). -/
def State.startRecal (s : State) (r : Nat) : State :=
  { s with adm := { s.adm with recalRun := s.adm.recalRun ++ [(r, s.tb.count + 3000000)] } }.stopRegion r 1

/-- The shared part of a write of ADM_RECAL (R335, R355). -/
def State.recalWrite (s : State) (v : BitVec 32) (force : Bool) (body : State → Nat → State) : State :=
  if s.bar0All = false ∨ s.working = false then s
  else
    let s := if bit v.toNat 10 then { s with adm := { s.adm with recalDone := false } } else s
    let r := fld v 6 0
    if bit v.toNat 7 && (bit v.toNat 8 == force) && decide (r < 88) then body s r else s

/-- RECAL_REQUEST (R335): the pause is queued. -/
def doRecalRequest (v : BitVec 32) (s : State) : State :=
  s.recalWrite v false fun s r =>
    if s.adm.recalQueue.contains r then s else { s with adm := { s.adm with recalQueue := s.adm.recalQueue ++ [r] } }

/-- Whether a debug stop or a re-layout holds a pause of a region (R77, R437). -/
def State.pauseHeld (s : State) (r : Nat) : Bool := (s.region r).held.contains 2 || (s.region r).held.contains 4

/-- A pan column that waits for its timing retrain (R421), once the 2 ms fit. DEDUCED (log 70). -/
def State.retrainReady (s : State) : Option Nat :=
  (s.mgt.recBusy.find? fun x =>
    x.1 = 3 && !(Tab.get {} s.panCtl x.2).retraining && s.pauseFits (x.2 / 11) 2000000 && !s.pauseHeld (x.2 / 11)).map (·.2)

/-- The retrain of a column begins: its accesses are held (R34, R421). -/
def State.startRetrain (s : State) (p : Nat) : State :=
  (s.movePlans (p / 11) 2000000).updPan p fun m => { m with retraining := true }

/-- RECAL_PAUSE_START (R335, R421, R437): the first queued region whose pause fits stops, or a column's retrain begins. -/
def doRecalPauseStart (s : State) : State :=
  if s.working = false then s
  else
    match s.adm.recalQueue.find? fun r =>
        s.pauseFits r 3000000 && !s.pauseHeld r && !s.adm.recalRun.any fun x => x.1 = r with
    | none => match s.retrainReady with
      | some p => s.startRetrain p
      | none => s
    | some r =>
      ({ s with adm := { s.adm with recalQueue := s.adm.recalQueue.erase r } }.movePlans r 3000000).startRecal r

/-- RECAL_PAUSE_END (R335): a region whose 3 ms have passed resumes; its new delays are part of the calibration in effect (R62). -/
def doRecalPauseEnd (s : State) : State :=
  match s.adm.recalRun.find? fun x => decide (x.2 ≤ s.tb.count) with
  | none => s
  | some x =>
    if s.working = false then s
    else
      let cal := Config.recalibrated 0 x.1 s.tb.count s.nvs.calibration
      let s := { s with
        adm := { s.adm with recalRun := s.adm.recalRun.erase x, recalDone := true }, nvs := { s.nvs with calibration := cal } }
      (s.resumeRegion x.1 1).runAll

/-! ### The reference (R339) -/

/-- REFERENCE_LOST (R339). -/
def doReferenceLost (s : State) : State :=
  if s.tb.running ∧ s.tb.holdover = false then
    { s with tb := { s.tb with locked := false, holdover := true, refLost := true, lostAt := s.tb.count } }
  else s

/-- REFERENCE_RETURN (R339): within 10 ms the PLL locks again. -/
def doReferenceReturn (s : State) : State :=
  if s.tb.holdover ∧ s.tb.count ≤ s.tb.lostAt + 10000000 ∧ s.mgt.stopped = false then
    { s with tb := { s.tb with locked := true, holdover := false } }
  else s

/-- HOLDOVER_EXPIRY (R339, R422): 10 ms without the reference is a fatal event. -/
def doHoldoverExpiry (s : State) : State :=
  if s.tb.holdover ∧ s.tb.lostAt + 10000000 ≤ s.tb.count ∧ s.mgt.stopped = false then s.blackBox 1 1 else s

/-- FLOOR_RECOMPUTE (R333). -/
def execFloorRecompute (s : State) : Out := .next (doFloorRecompute s)
/-- RATE_KEEPER_STEP (R332). -/
def execRateKeeperStep (region : Nat) (s : State) : Out := .next (doRateKeeperStep region s)
/-- SUPPLY_STEP (R445). -/
def execSupplyStep (field : Nat) (s : State) : Out := .next (doSupplyStep field s)
/-- RECAL_REQUEST (R335). -/
def execRecalRequest (v : BitVec 32) (s : State) : Out := .next (doRecalRequest v s)
/-- RECAL_PAUSE_START (R335). -/
def execRecalPauseStart (s : State) : Out := .next (doRecalPauseStart s)
/-- RECAL_PAUSE_END (R335). -/
def execRecalPauseEnd (s : State) : Out := .next (doRecalPauseEnd s)
/-- REFERENCE_LOST (R339). -/
def execReferenceLost (s : State) : Out := .next (doReferenceLost s)
/-- REFERENCE_RETURN (R339). -/
def execReferenceReturn (s : State) : Out := .next (doReferenceReturn s)
/-- HOLDOVER_EXPIRY (R339). -/
def execHoldoverExpiry (s : State) : Out := .next (doHoldoverExpiry s)

end Sys2Proof.Machine
end

