-- ==== Sys2Proof/Machine/Planner.lean ====
section
/-! DEFINITION. Admission's plans: descriptors, planned completions, placements and re-planning (R340 to R354, R364). -/

namespace Sys2Proof.Machine

/-! ### Planned completion (R343) -/

/-- Time of beats at a rate in M beats/s, in ns, rounded up; nothing runs at rate zero. -/
def beatTime (beats f : Nat) : Nat := if f = 0 then 2 ^ 80 else ceilDiv (1000 * beats) f

/-- Time of one update entry and of one refresh of a slow-tier record at the granary's rate (R262, R263). -/
def State.updateTime (s : State) (x : Nat) : Nat :=
  ceilDiv (s.trainParams x * (if recLong (s.recBytes x) then 24 else 22)) 485
def State.refreshTime (s : State) (x : Nat) : Nat := ceilDiv (s.trainParams x * 2) 485

/-- Work queued ahead of a new update entry (R265). -/
def State.updateBacklog (s : State) : Nat :=
  ((s.upd.queue ++ s.upd.run.toList).map fun u => s.updateTime u.index).sum

/-- Length of a mirror (R418): record, table and arrays, rounded up to 16 KiB. -/
def State.mirrorBytes (s : State) (x : Nat) : Nat :=
  let r := s.recBytes x
  up16K (256 + 96 * recTensors r + ((s.recTable x).map fun e =>
    tRows e * (tMasterRow (recLong r) e + 2 * tMomentRow e + tWorkRow e * (if recSlow r then 2 else 1))).sum)

/-- Waits of one step of a training job: slow tier, snapshot and mirror reads (R263, R265, R268, R419). -/
def State.stepWait (s : State) (j : Job) (f : Nat) : Nat :=
  match j.train with
  | none => 0
  | some x =>
    let r := s.recBytes x
    let own := beatTime j.work f + 1000 * j.plans + j.fixedNs
    let slow :=
      if recSlow r then (s.updateBacklog + s.updateTime x - (recLag r - 1) * own) + s.refreshTime x else 0
    let snap := if (s.train1 x).snaps.isEmpty then 0 else ceilDiv (2 * s.trainParams x) 100
    let mirror := if (s.train1 x).mirror.isSome ∧ leAt r 0x2A 2 ≠ 0 then ceilDiv (s.mirrorBytes x) 100 else 0
    slow + snap + mirror

/-- The mirror that follows a step of a training job is placed in the ledger of its link when the step is accepted, from the step's
planned end (R343, R419). -/
def State.bookMirror (s : State) (j : Job) (at' : Nat) : State :=
  match j.train with
  | none => s
  | some x =>
    let r := s.recBytes x
    match (s.train1 x).mirror with
    | some m =>
      if leAt r 0x2A 2 ≠ 0 ∧ (leAt r 8 8 + 1 - leAt r 0x2C 4) % leAt r 0x2A 2 = 0 then
        s.book [linkLedger m.1] at' (ceilDiv (s.mirrorBytes x) 98) []
      else s
    | none => s

/-- When the page-in of an entry is expected to be done: at the end the ledger promises, or, where none was promised
(VARIANT_PAGE_IN), once room is there and its image is read. -/
def State.pageInEnd (s : State) (x room : Nat) : Nat :=
  match s.adm.ledger.find? fun g => g.entries.contains x with
  | some g => g.finish
  | none => room + ceilDiv ((s.entry x).need * 16384) 485

/-- Latencies of the barriers of a job that spans modules (R300, R343). -/
def State.spanWait (s : State) (j : Job) : Nat :=
  if j.spans then
    let links := j.childLinks ++ (if j.parent ≤ 5 then [j.parent] else [])
    2 * j.depth * (350 + (links.map fun n => (s.link n).delay).foldl max 0) * j.plans
  else 0

/-- One step at floor F: beats, barriers, fixed time and waits (R343). -/
def State.stepTime (s : State) (j : Job) (f : Nat) : Nat :=
  beatTime j.work f + 1000 * j.plans + j.fixedNs + s.stepWait j f + s.spanWait j

/-- Time from a job's start to its planned completion: with a core in retention or not, and with page-ins taking `g` ns
(R343). -/
def State.runTime (s : State) (j : Job) (f : Nat) (retained : Bool) (g : Nat) : Nat :=
  3000 + (if retained then 2000 else 0) + s.stepTime j f + g

/-! ### Accepted plans -/

def State.plansOf (s : State) : List Job := s.jobs.filter Job.live

/-- Whether a job holds its fields: from its first dispatch to its completion, except while sliced (R347). -/
def Job.onFields (j : Job) : Bool := j.phase = .running || (j.phase = .stopped && !j.tasks.isEmpty)

/-- The time from which a job's plan holds its fields. -/
def Job.holdFrom (j : Job) : Nat := if j.onFields then 0 else j.start

/-- The time until which a job's plan holds its fields: its last step's planned end; a demoted job's is unknown. -/
def State.holdTo (s : State) (j : Job) : Nat :=
  if j.overrun then 2 ^ 80
  else max (s.tb.count + 1) j.planned + (if j.stepped then (j.steps - 1 - j.step) * s.stepTime j j.floor else 0)

/-- Bound on the next plan barrier at which a job's fields can be taken: at once when it holds none; else one stretch at
the floor (R349), counted for a class B or C taker from the end of the quantum (R348). -/
def State.takeFrom (s : State) (k : Job) (classA : Bool) : Nat :=
  let now := s.tb.count
  if !k.onFields then now
  else
    let here := if k.phase = .stopped then max now k.start else now
    let base := if classA || k.overrun then here else max here (k.dispatchTb + max 2 s.adm.quantum.toNat * 1000000)
    base + beatTime k.stretch k.floor + 1000

/-- Jobs that wait behind one whose plan moves: jobs not on fields that share a field with one of them. -/
def behind (js : List Job) : Nat → List Job → List Job
  | 0, acc => acc
  | fuel + 1, acc =>
    match js.find? fun k =>
        !k.onFields && !(acc.any fun a => a.inst = k.inst && a.seq = k.seq) &&
        (acc.any fun a => decide (a.start ≤ k.start) && a.fields.any k.fields.contains) with
    | some k => behind js fuel (acc ++ [k])
    | none => acc

/-- Whether a job and those behind it stay within their promises when moved by a gap (R345). -/
def movable (js : List Job) (gap : Nat) (k : Job) : Bool :=
  (behind js js.length [k]).all fun a => !a.promised || decide (a.planned + gap ≤ a.limit)

/-- A placement found: fields, start, planned completion, the floor it counts on, the jobs whose fields it takes, and how
far they move. -/
structure Placing where
  fields : List Nat
  start : Nat
  planned : Nat
  floor : Nat
  taken : List Job
  gap : Nat
  deriving DecidableEq, Repr

/-- Whether any core of a field is in retention (R110, R343). -/
def State.fieldRetained (s : State) (f : Nat) : Bool :=
  (List.range 11).any fun k => (s.core (11 * f + k)).act = .retention

/-- Cores of a field: nine when a logical core is absent (R14). -/
def State.coresOf (s : State) (f : Nat) : Nat := ((List.range 10).filter fun k => (s.logicalPos f k).isSome).length

/-- The time until which a recalibration pause in force holds a field; one of a region that is no field holds them all (R335). -/
def State.pausedTo (s : State) (f : Nat) : Nat :=
  ((s.adm.recalRun.filter fun x => x.1 = f || decide (80 ≤ x.1)).map (·.2)).foldl max 0

/-- The lowest `n` fields of a list; where they have too few cores for the tasks, fields with every core first (R14). -/
def State.pickFields (s : State) (ok : List Nat) (n tasks : Nat) : Option (List Nat) :=
  let enough (fs : List Nat) : Bool := decide (tasks ≤ (fs.map s.coresOf).sum)
  let full := (ok.filter fun f => s.coresOf f = 10) ++ ok.filter fun f => s.coresOf f ≠ 10
  if ok.length < n then none
  else if enough (ok.take n) then some (ok.take n)
  else if enough (full.take n) then some (full.take n)
  else none

/-- Placements of a job on `n` fields of a pool: for each possible start, floor and retention, the lowest fields that
are free, or held only by jobs that `soft` lets the job take fields from (R345, R348, R349, R351). With `strict`, jobs
that lose fields must stay within their promises. DEDUCED (log 55). -/
def State.placements (s : State) (j : Job) (pool : List Nat) (n h g : Nat) (others : List Job) (soft : Job → Bool)
    (strict : Bool) : List Placing :=
  let now := s.tb.count
  let info := pool.map fun f => (f, s.floorRate f h, s.fieldRetained f)
  let floors := (info.map (·.2.1)).eraseDups
  let starts := ([now] ++ others.map s.holdTo ++ (others.filter soft).map (fun k => s.takeFrom k (j.cls = 1)) ++
    s.adm.recalRun.map (·.2)).eraseDups
  starts.flatMap fun st => floors.flatMap fun fl => [false, true].flatMap fun ret =>
    let t := st + s.runTime j fl ret g
    let gap := t + 3000 - st
    let meets (k : Job) (f : Nat) : Bool :=
      k.fields.contains f && decide (k.holdFrom < t) && decide (st < s.holdTo k)
    let ok := (info.filter fun x =>
      decide (fl ≤ x.2.1) && (ret || !x.2.2) && decide (s.pausedTo x.1 ≤ st) && others.all fun k =>
        !meets k x.1 || (soft k && decide (s.takeFrom k (j.cls = 1) ≤ st) && (!strict || movable others gap k))).map (·.1)
    match (if st < now ∨ fl = 0 then none else s.pickFields ok n j.nTasks) with
    | none => []
    | some fs =>
      [{ fields := fs, start := st, planned := t, floor := fl,
         taken := others.filter fun k => fs.any (meets k), gap := gap }]

/-- The placement that completes first. DEDUCED (log 55). -/
def earliest : List Placing → Option Placing
  | [] => none
  | p :: ps =>
    match earliest ps with
    | some q => if q.planned < p.planned then some q else some p
    | none => some p

/-- A later step of a class B job keeps its cadence (R340). DEDUCED (log 55). -/
def State.cadence (s : State) (j : Job) (p : Placing) : Bool :=
  !j.stepped ||
    decide (p.planned + (j.steps - 1) * s.stepTime j p.floor ≤ j.commitTb + j.steps * j.period)

/-- The plans of jobs that lose fields, and of those behind them, move by the gap. -/
def moveTaken (js : List Job) (p : Placing) : List Job :=
  let moved := p.taken.flatMap fun k => behind js js.length [k]
  mapIf (fun a => moved.any fun k => k.inst = a.inst && k.seq = a.seq)
    (fun a => { a with planned := a.planned + p.gap, start := if a.onFields then a.start else a.start + p.gap }) js

/-- Put a placement into a job. -/
def Job.placed (j : Job) (p : Placing) : Job :=
  { j with
    fields := p.fields, start := p.start, planned := p.planned, floor := p.floor, remaining := j.work, planAt := p.start
    takes := p.taken.map fun k => (k.inst, k.seq) }

/-! ### Re-planning (R351, R352) -/

/-- Priority order: class, then commit (R351). -/
def Job.before (a b : Job) : Bool :=
  decide (a.cls < b.cls) || (a.cls = b.cls && (decide (a.commitTb < b.commitTb) ||
    (a.commitTb = b.commitTb && decide (a.inst * 2 ^ 32 + a.seq ≤ b.inst * 2 ^ 32 + b.seq))))

/-- Class A reserve of an instance: its CLASS_A_FIELDS highest-numbered fields; 0xFF means 10 % of them, rounded up
(R47, R341). -/
def State.reserve (s : State) (i : Nat) : List Nat :=
  let fs := s.instFields i
  let n := ((s.instRec? i).map (·.classA)).getD 0
  fs.drop (fs.length - (if n = 0xFF then ceilDiv fs.length 10 else n))

/-- Fields open to a job (R345). -/
def State.poolOf (s : State) (j : Job) : List Nat :=
  let fs := s.instFields j.inst
  if j.cls = 1 then fs else fs.filter fun f => !(s.reserve j.inst).contains f

/-- The horizon of a job now (R345). -/
def State.horizon (s : State) (j : Job) : Nat := j.limit - s.tb.count

/-- Whether a debug stop has stopped fields of an instance, so that its promises are suspended (R354). -/
def State.suspended (s : State) (i : Nat) : Bool :=
  (s.obs.stop = .stopping || s.obs.stop = .stopped) && s.obs.scope.any fun r => s.fieldInst r = some i

/-- The state with the clock of an instance's plans: it stands still while a debug stop suspends its promises, which the resume
moves by the stop's length (R354). -/
def State.clockOf (s : State) (i : Nat) : State :=
  if s.suspended i then { s with tb := { s.tb with count := s.obs.stopAt } } else s

/-- Re-plan a job that has started, on its own fields: its beat time scales with the floor, and the waits for its training record
are those of now (R351). -/
def State.replanStarted (s : State) (j : Job) : Job :=
  let now := s.tb.count
  let running := j.phase = .running
  let fl := (j.fields.map fun f => s.floorRate f (s.horizon j)).foldl min (2 ^ 16)
  let upto := if j.phase = .stopped then j.barrierTb else now
  let done := if running || j.phase = .stopped then (upto - j.planAt) * j.floor / 1000 else 0
  let rest := j.remaining - done
  let other := j.planned - j.planAt - beatTime j.remaining j.floor - j.waits + s.stepWait j fl
  let begins := if running then now else if j.phase = .stopped then now + 3000 else max now j.planAt
  { j with
    planned := begins + beatTime rest fl + other
    remaining := rest
    planAt := if running then now else begins
    start := if j.phase = .stopped then now else j.start
    floor := fl
    waits := s.stepWait j fl }

/-- A sliced job follows the plan of the job it was sliced for (R348, R351). -/
def Job.follow (j : Job) (jobs : List Job) : Job :=
  match j.slicedFor.bind fun x => jobs.find? fun k => k.inst = x.1 && k.seq = x.2 with
  | none => j
  | some k =>
    if j.phase = .sliced then
      { j with start := k.planned, planAt := k.planned + 3000, planned := j.planned + k.planned - j.start }
    else j

/-- The page-ins that a job not dispatched still waits for, as time from now (R343). -/
def State.pageWait (s : State) (j : Job) : Nat :=
  let due := (j.pins.map (·.entry)).filter fun x => (s.entry x).paging
  (due.map fun x => s.pageInEnd x s.tb.count).foldl max 0 - s.tb.count


/-- Re-plan a job not dispatched: a placement that takes no field if one meets its promise, else the earliest (R351). -/
def State.replanWaiting (s : State) (j : Job) (others : List Job) : Placing :=
  let pool := if j.any then s.poolOf j else j.mask
  let n := if j.any then j.nFields else j.mask.length
  let soft (k : Job) : Bool := j.before k && (k.cls ≠ 1 || k.overrun)
  let all := s.placements j pool n (s.horizon j) (s.pageWait j) others soft false
  let good := all.filter fun p => decide (p.planned ≤ j.limit)
  match earliest (good.filter fun p => p.taken.isEmpty) with
  | some p => p
  | none =>
    match earliest (if good.isEmpty then all else good) with
    | some p => p
    | none => { fields := j.fields, start := j.start, planned := 2 ^ 63, floor := j.floor, taken := [], gap := 0 }

/-- One job of the re-planning: `jobs` are all jobs with the choices made so far, `settled` those already considered. A
job not dispatched is placed again when the event touches it, or when an earlier job's plan has moved into its own. -/
def State.replanOne (s : State) (touched : Job → Bool) (jobs : List Job) (settled : List (Nat × Nat)) (i q : Nat) : List Job :=
  let s := s.clockOf i
  match jobs.find? fun j => j.inst = i && j.seq = q with
  | none => jobs
  | some j =>
    let j := j.follow jobs
    let put (x : Job) (js : List Job) : List Job := mapIf (fun a => a.inst = i && a.seq = q) (fun _ => x) js
    if j.phase ≠ .accepted then put (if touched j then s.replanStarted j else j) jobs
    else
      let others := jobs.filter fun k =>
        k.live && !(k.inst = i && k.seq = q) && (k.phase ≠ .accepted || settled.contains (k.inst, k.seq))
      let changed (k : Job) : Bool := s.jobs.all fun o => !(o.inst = k.inst && o.seq = k.seq) || decide (o.planned ≠ k.planned)
      let late := others.any fun k =>
        k.before j && changed k && k.fields.any j.fields.contains && decide (k.holdFrom < j.planned) &&
        decide (j.start < s.holdTo k)
      if touched j || late then
        let p := s.replanWaiting j others
        let jobs := mapIf (fun a => p.taken.any fun k => k.inst = a.inst && k.seq = a.seq)
          (fun a => { a with planned := a.planned + p.gap }) jobs
        put { j.placed p with waits := s.stepWait j p.floor } jobs
      else jobs

/-- Post a breach notice (R352, R373). -/
def State.breach (s : State) (j : Job) (cause : Nat) : State :=
  let s := s.updInst j.inst fun x => { x with breaches := holdAdd 0xFFFFFFFF x.breaches 1 }
  let s := s.updJob j.inst j.seq fun j => { j with noticed := some j.planned }
  s.post j.inst 3 0 j.seq
    (leBytes 4 j.tag ++ leBytes 1 j.cls ++ leBytes 1 cause ++ leBytes 2 0 ++ leBytes 8 j.promise ++ leBytes 8 j.planned)

/-- resolve of R351 for the jobs an event touches: every accepted job in priority order, then the notices, for plans that differ
from those before the event. -/
def State.resolveFrom (s : State) (old : List Job) (cause : Nat) (touched : Job → Bool) : State :=
  let order := s.plansOf.mergeSort fun a b => a.before b
  let r := order.foldl
    (fun (acc : List Job × List (Nat × Nat)) j =>
      (s.replanOne touched acc.1 acc.2 j.inst j.seq, acc.2 ++ [(j.inst, j.seq)]))
    (s.jobs, [])
  let s := { s with jobs := r.1 }
  order.foldl
    (fun s k =>
      match s.job? k.inst k.seq, old.find? fun a => a.inst = k.inst && a.seq = k.seq with
      | some j, some o =>
        if decide (j.promise < j.planned) && j.promised && decide (o.planned ≠ j.planned) && j.noticed ≠ some j.planned then
          s.breach j cause
        else s
      | _, _ => s)
    s

def State.resolve (s : State) (cause : Nat) (touched : Job → Bool) : State := s.resolveFrom s.jobs cause touched

/-- Whether a job uses a unit: the granary controllers and the thresher for a page-in it waits for or a slow-tier record, the host
port of its instance, and the links of a job that spans modules (R343, R351). -/
def State.usesUnit (s : State) (j : Job) (r : Nat) : Bool :=
  let paging := j.pins.any fun p => (s.entry p.entry).paging
  let slow := j.train.any fun x => recSlow (s.recBytes x)
  if r = 86 then paging
  else if r = 96 ∨ r = 97 then paging || slow
  else if r = 88 ∨ r = 89 then s.instPort j.inst + 88 = r
  else decide (90 ≤ r) && j.spans && (j.childLinks.contains (r - 90) || j.parent + 90 = r)

/-- Whether an event touches a job: by a field of its plan, or by a unit it uses (R351). -/
def State.touches (s : State) (regions : List Nat) (j : Job) : Bool :=
  j.fields.any regions.contains || regions.any fun r => decide (80 ≤ r) && s.usesUnit j r

/-- Whether a field's rate lies below the floor that the plan of an accepted job assumes for it (R334). -/
def State.belowPlan (s : State) (f : Nat) : Bool :=
  s.jobs.any fun j => j.live && j.fields.contains f && decide ((s.region f).rate < j.floor)

/-- RESOLVE (R351): after an event of R334, by its cause code and the regions it touches, fields and units. -/
def doResolve (cause : Nat) (regions : List Nat) (s : State) : State :=
  if cause = 0 ∨ 7 < cause ∨ s.working = false then s
  else
    let s := regions.foldl (fun s f => if f < 80 then s.updRegion f fun g => { g with floor := s.floorRate f second } else s) s
    let old := s.jobs
    let s := if cause = 4 then s.rebook else s
    s.resolveFrom old cause (s.touches regions)

/-- FIELD_RATE_REPORT (R331, R334): `mv` the supply, `temp` the hottest junction in °C; the self-timed regions that are no fields
report in the same way. A field whose rate falls below the floor of an accepted plan, or that warms by more than 0.2 K within
100 ms, raises FLOOR while it has accepted work. -/
def doFieldRateReport (r rate mv temp : Nat) (s : State) : State :=
  if 88 ≤ r ∨ s.working = false ∨ s.mgt.powered = false then s
  else
    let s := s.measure r rate mv temp
    let warm := (s.region r).recent.any fun x => decide (x.2 < temp)
    if r < 80 ∧ (s.belowPlan r || (warm && s.jobs.any fun j => j.live && j.fields.contains r)) then
      doResolve 3 [r] (s.updRegion r fun g => { g with recent := [(s.tb.count, temp)] })
    else s

/-- RECAL_FORCE (R335): the region pauses at once, which is event RECAL: the plans on it move by the pause, and are re-planned. A
debug stop or a re-layout holds the pause until it ends. -/
def doRecalForce (v : BitVec 32) (s : State) : State :=
  s.recalWrite v true fun s r =>
    if s.pauseHeld r then
      { s with adm := { s.adm with recalQueue := r :: s.adm.recalQueue.filter (· ≠ r) } }
    else if s.adm.recalRun.any fun x => x.1 = r then s
    else ((s.movePlans r 3000000).startRecal r).resolveFrom s.jobs 7 fun j => j.onRegion r

/-- Whether an event of R334 that lasts explains that a job is late: a fault that stopped it, a link of it that is down, or a pause
of one of its fields; other events moved its plan, with a notice (R353). DEDUCED (log 55). -/
def State.explained (s : State) (j : Job) : Bool :=
  j.phase = .stopped ||
  (j.spans && (List.range 6).any fun n => s.usesUnit j (90 + n) && (s.link n).state ≠ .up) ||
  s.adm.recalRun.any fun x => j.onRegion x.1

/-- OVERRUN (R353): the job is demoted. No overrun is counted while a debug stop suspends its promise (R354).
DEDUCED (log 55). -/
def doOverrun (i q : Nat) (s : State) : State :=
  match s.job? i q with
  | none => s
  | some j =>
    if j.live = false ∨ j.promised = false ∨ s.explained j ∨ s.suspended i ∨ s.tb.count < j.limit ∨ s.working = false then s
    else
      let s := s.updInst i fun x => { x with overruns := holdAdd 0xFFFFFFFF x.overruns 1 }
      let s := s.updJob i q fun j => { j with overrun := true }
      s.post i 4 0 q (leBytes 4 j.tag ++ leBytes 4 0 ++ leBytes 8 j.limit)

/-- QUANTUM_EXPIRY (R348). -/
def doQuantumExpiry (i q : Nat) (s : State) : State :=
  match s.job? i q with
  | none => s
  | some j =>
    if j.phase = .running ∧ j.cls ≠ 1 ∧ j.dispatchTb + max 2 s.adm.quantum.toNat * 1000000 ≤ s.tb.count ∧ s.working then
      s.updJob i q fun j => { j with quantumOver := true }
    else s

/-- FIELD_RATE_REPORT (R331). -/
def execFieldRateReport (field rate mv temp : Nat) (s : State) : Out := .next (doFieldRateReport field rate mv temp s)
/-- RECAL_FORCE (R335). -/
def execRecalForce (v : BitVec 32) (s : State) : Out := .next (doRecalForce v s)
/-- RESOLVE (R351). -/
def execResolve (cause : Nat) (fields : List Nat) (s : State) : Out := .next (doResolve cause fields s)
/-- OVERRUN (R353). -/
def execOverrun (inst seq : Nat) (s : State) : Out := .next (doOverrun inst seq s)
/-- QUANTUM_EXPIRY (R348). -/
def execQuantumExpiry (inst seq : Nat) (s : State) : Out := .next (doQuantumExpiry inst seq s)

end Sys2Proof.Machine
end

