-- ==== Sys2Proof/Machine/Admission.lean ====
section
/-! DEFINITION. The intake window, result slots and admission's decisions (R212, R224, R227 to R230, R249, R340 to R346,
R364 to R370). -/

namespace Sys2Proof.Machine

/-! ### Status codes (R346, R371) -/

def stTooLate : Nat := 0x60
def stNoContext : Nat := 0x61
def stBadPromise : Nat := 0x62
def stNoFields : Nat := 0x63
def stBadWork : Nat := 0x64
def stBadDescriptor : Nat := 0x70
def stBadSequence : Nat := 0x71
def stSlotBusy : Nat := 0x72
def stIntakeFull : Nat := 0x73
def stResetting : Nat := 0x74
def stSquashed : Nat := 0x75
def stTaskFault : Nat := 0x76

/-! ### Result slots (R368, R369) -/

/-- The record of a slot that has had none: undecided, all else zero (DESIGN CHOICE, log 43). -/
def blankRecord : List Byte := List.replicate 36 (0 : Byte) ++ leBytes 2 0xFFFF ++ List.replicate 18 (0 : Byte)

def ResSlot.bytes (x : ResSlot) : List Byte := if x.record.isEmpty then blankRecord else x.record

/-- The state code of VALID (R368). -/
def SlotUse.code : SlotUse → Nat
  | .empty => 0 | .pending => 1 | .done => 2 | .refused => 3

/-- The 64 bytes of a slot as the result window shows them (R368). DESIGN CHOICE (log 43). -/
def ResSlot.view (x : ResSlot) : List Byte := x.bytes ++ leBytes 4 x.seq ++ leBytes 1 x.use.code ++ leBytes 3 0

def Inst.slot (x : Inst) (q : Nat) : ResSlot := Tab.get {} x.slots (q % 64)
def Inst.setSlot (x : Inst) (q : Nat) (r : ResSlot) : Inst := { x with slots := Tab.put {} (q % 64) r x.slots }

/-- Admission fields of a slot (R368, R369). -/
def ResSlot.decided (x : ResSlot) (q status planned : Nat) : ResSlot :=
  { x with record := x.bytes.take 0x20 ++ leBytes 4 q ++ leBytes 2 status ++ leBytes 2 0 ++ leBytes 8 planned ++ leBytes 8 0 }

/-- Bytes 0x00 to 0x1F of a record (R368). -/
def recordHead (status cls tag stamp done withdrawn sticky : Nat) : List Byte :=
  leBytes 2 status ++ leBytes 1 cls ++ leBytes 1 0 ++ leBytes 4 tag ++ leBytes 8 stamp ++ leBytes 4 done ++
  leBytes 4 withdrawn ++ leBytes 4 sticky ++ leBytes 4 0

/-- A job's record is written: to RECORD_ADDR, VALID last and apart, neither write relaxed; then the slot changes, and
vector n fires when IRQ is set (R362, R368, R370). -/
def State.writeRecord (s : State) (j : Job) (use : SlotUse) (head : List Byte) : State :=
  let x := s.inst j.inst
  let r := { x.slot j.seq with use := use, seq := j.seq, record := head ++ (x.slot j.seq).bytes.drop 0x20 }
  let port := s.instPort j.inst
  let a := j.recordAddr
  let s :=
    if a = 0 ∨ a % 64 ≠ 0 ∨ 2 ^ 57 ≤ a then s
    else (s.hostWrite port (some j.inst) a r.bytes false).hostWrite port (some j.inst) (a + 0x38) (r.view.drop 0x38) false
  let s := s.updInst j.inst fun x => x.setSlot j.seq r
  if j.irq then s.fire port j.inst else s

/-! ### The intake window (R361, R363, R365, R367) -/

/-- Whether a write reaches an instance's page: one on another page is counted (R361), and one that the instance's selective IDE stream
does not protect is refused in RUN (R363). -/
def State.pageWrite (s : State) (port i : Nat) (ide : Bool) (body : State → State) : State :=
  if s.bar0All = false ∨ s.working = false ∨ 2 ≤ port then s
  else if !s.pageOn port i then s.wrongPort port
  else if (s.inst i).tdi = 2 ∧ ide = false then s.tdiError i
  else if (s.inst i).tdi = 3 then s
  else body s

/-- A write of another size or place than a chunk is discarded (R365). DEDUCED (log 57). -/
def State.badIntake (s : State) (port i : Nat) : State :=
  (s.updInst i fun x => { x with badWrite := true }).updPort port fun p =>
    { p with intakeDiscarded := holdAdd 0xFFFF p.intakeDiscarded 1 }

/-- INTAKE_CHUNK_WRITE (R365): `off` in the intake window. DEDUCED (log 57). -/
def doIntakeChunkWrite (port i : Nat) (ide : Bool) (off : Nat) (data : List Byte) (s : State) : State :=
  s.pageWrite port i ide fun s =>
    if data.length = 64 ∧ (off = 0 ∨ off = 0x40 ∨ off = 0x80) then
      s.updInst i fun x => { x with chunks := Tab.put [] (off / 64) data x.chunks }
    else if data.length = 64 ∧ off = 0xC0 then s
    else s.badIntake port i

/-- INTAKE_REFUSED (R367, R373). -/
def State.refuseIntake (s : State) (i q status : Nat) : State := s.post i 6 status q (leBytes 4 (s.inst i).nextSeq)

/-- COMMIT (R365, R367): the four chunks are latched and the window is empty again. -/
def doCommit (port i : Nat) (ide : Bool) (data : List Byte) (s : State) : State :=
  s.pageWrite port i ide fun s =>
    if data.length ≠ 64 then s.badIntake port i
    else
      let x := s.inst i
      let chunk (k : Nat) : List Byte := padTo 64 (Tab.get [] x.chunks k)
      let bad := x.badWrite || (List.range 3).any fun k => (Tab.get [] x.chunks k).isEmpty
      let q := leAt data 0x38 4
      let s := s.updInst i fun x => { x with chunks := [], badWrite := false }
      if q ≠ x.nextSeq then s.refuseIntake i q stBadSequence
      else if (x.slot q).use ≠ .empty then s.refuseIntake i q stSlotBusy
      else if 32 ≤ (s.jobs.filter fun j => j.inst = i && j.phase = .undecided).length then s.refuseIntake i q stIntakeFull
      else
        let s := s.updInst i fun x =>
          ({ x with nextSeq := (x.nextSeq + 1) % 2 ^ 32 }).setSlot q { x.slot q with use := .pending }
        let j : Job :=
          { inst := i, port := port, seq := q, raw := chunk 0 ++ chunk 1 ++ chunk 2 ++ data, bad := bad, commitTb := s.tb.count }
        { s with jobs := s.jobs ++ [j] }

/-- RELEASE (R370, R376): `off` in the result window; any other write there is discarded and counted.
DEDUCED (log 57). -/
def doRelease (port i : Nat) (ide : Bool) (off : Nat) (data : List Byte) (s : State) : State :=
  s.pageWrite port i ide fun s =>
    let x := s.inst i
    let r := x.slot (off / 64)
    if x.state ≠ .active ∧ x.state ≠ .adopting then s
    else if data.length = 8 ∧ off % 64 = 0x38 ∧ off < 0x1000 ∧ leAt data 0 4 = r.seq ∧ leAt data 4 4 = 0xFF ∧
        (r.use = .done ∨ r.use = .refused) then
      s.updInst i fun x => x.setSlot (off / 64) { r with use := .empty }
    else s.updPort port fun p => { p with badRelease := holdAdd 0xFFFF p.badRelease 1 }

/-! ### Checks of a descriptor (R148, R340, R342, R345, R364) -/

/-- Fields within their ranges and reserved fields zero (R364). -/
def Job.rangesOk (j : Job) : Bool :=
  let r := j.raw
  decide (1 ≤ j.cls) && decide (j.cls ≤ 3) && decide (leAt r 5 1 < 16) && decide (1 ≤ j.nFields) && decide (j.nFields ≤ 80) &&
  (j.cls = 2 || j.steps = 0) && decide (j.semBase + j.semCount ≤ 65536) && decide (1 ≤ j.nTasks) && decide (j.nTasks ≤ 800) &&
  decide (j.rows ≤ 1024) && (j.train.isNone || j.cls = 2) && (j.parent = 0xFF || decide (j.parent ≤ 5)) &&
  decide (leAt r 0x85 1 < 64) && decide (j.depth ≤ 15) && j.recordAddr % 64 = 0 && decide (j.recordAddr + 64 ≤ 2 ^ 57) &&
  leAt r 0x3E 2 = 0 && leAt r 0x4E 2 = 0 && leAt r 0x6C 4 = 0 && leAt r 0x78 8 = 0 && allZero (slice r 0x87 113) &&
  leAt r 0xFC 4 = 0

/-- Pan addresses in the instance's TRAINING or ACTIVATION regions (R364). DEDUCED (log 56). -/
def State.jobAddrsOk (s : State) (j : Job) : Bool :=
  s.inOwnPan j.inst j.taskTable (128 * j.nTasks) &&
  (j.rows = 0 || (s.inOwnPan j.inst j.rowList (8 * j.rows) && s.inOwnPan j.inst j.sheaf (0x40 + 32 * j.rows))) &&
  (!j.any || s.inOwnPan j.inst j.fieldList 128)

/-- The virtual semaphore range of a job (R148). -/
def State.jobSemsOk (s : State) (j : Job) : Bool :=
  (List.range j.semCount).all (fun k => (s.semPhys j.inst (j.semBase + k)).isSome) &&
  s.jobs.all fun k =>
    k.inst ≠ j.inst || k.phase = .undecided || k.semCount = 0 || j.semCount = 0 ||
    decide (k.semBase + k.semCount ≤ j.semBase) || decide (j.semBase + j.semCount ≤ k.semBase)

/-- FIELD_MASK against ANY and the instance's fields (R345, R364). -/
def State.jobMaskOk (s : State) (j : Job) : Bool :=
  if j.any then j.mask.isEmpty
  else j.mask.length = j.nFields && j.mask.all (s.instFields j.inst).contains

/-- The promise of a class (R340). -/
def Job.promiseOk (j : Job) : Bool :=
  let p := j.period
  if j.cls = 1 then decide (5000000 ≤ p) && decide (p ≤ 10000000000)
  else if j.cls = 2 then decide (10000000 ≤ p) && decide (p ≤ 600000000000)
  else decide (1000000000 ≤ p) && decide (p ≤ 86400000000000)

def Job.workOk (j : Job) : Bool := j.work ≠ 0 && j.stretch ≠ 0 && decide (j.stretch ≤ j.work)

/-! ### Handles (R212, R224, R237, R249) -/

/-- The slot a base-only handle resolves to (R237). -/
def State.redirected (s : State) : Nat → Nat → Nat
  | 0, k => k
  | fuel + 1, k => match (s.slot k).redirect with
    | some n => s.redirected fuel n
    | none => k

/-- The checks of R212: the slot and the catalogue entry a handle names, or the refusal. -/
def State.checkHandle (s : State) (i h : Nat) : Except Nat (Nat × Option Nat) :=
  if bits h 29 24 ≠ i then .error stUnknown
  else if bits h 23 16 = 0 then
    if bits h 15 0 ≠ 0 then .error stUnknown
    else
      let k := s.redirected 4 (bits h 31 30)
      if (s.slot k).state ≠ .active ∨ s.isFork k then .error stBaseNotActive
      else if (s.slotRec? k).any (fun r => bit r.readers i) then .ok (k, none)
      else .error stNotReader
  else (s.variantHandle i h).map fun x => ((s.entry x).slot, some x)

/-- The handles a job names with their rows: sheaf rows, then its own handle, then that of its training record. -/
def State.jobHandles (s : State) (j : Job) : List (Nat × Nat) :=
  let rows := s.panReadG j.rowList (8 * j.rows)
  ((List.range j.rows).map fun r => (r, leAt rows (8 * r) 4)) ++ (if j.hasHandle then [(0xFFFF, j.handle)] else []) ++
  (match j.train with
   | some x => [(0xFFFF, s.tr x 0 4)]
   | none => [])

/-- Every handle of a job checked in order: rows with slot and entry (R212). -/
def State.checkHandles (s : State) (i : Nat) : List (Nat × Nat) → Except Nat (List (Nat × Nat × Option Nat))
  | [] => .ok []
  | (r, h) :: hs =>
    match s.checkHandle i h with
    | .error c => .error c
    | .ok x => (s.checkHandles i hs).map fun l => (r, x.1, x.2) :: l

/-- The checks of a training job on its record (R249). DEDUCED (log 56). -/
def State.trainRefusal (s : State) (j : Job) : Nat :=
  match j.train with
  | none => 0
  | some x =>
    let t := s.train1 x
    if t.isOpen = false ∨ t.inst ≠ j.inst ∨ t.closeTag.isSome then stTrainUnknown
    else if s.tr x 4 1 = 3 then stStale
    else if s.tr x 4 1 = 4 then stNonfinite
    else if s.jobs.any fun k => k.train = some x && k.phase ≠ .undecided then stTrainBusy
    else 0

/-- Page-ins for every entry of a list that needs one; none when room can never be made (R229, R230). -/
def State.askAll (s : State) (named : List Nat) : List Nat → Option State
  | [] => some s
  | x :: xs =>
    if (s.entry x).state = .held ∨ (s.entry x).state = .evicting then (s.askPageIn x named).bind fun s => s.askAll named xs
    else s.askAll named xs

/-- The time at which the frames and places that page-ins wait for have come back: now, or the earliest expected unpin
by which the returns give them (R230). -/
def State.roomAt (s : State) (i : Nat) : Nat :=
  let now := s.tb.count
  let back := s.returns i
  let enough (t : Nat) : Bool :=
    let due := back.filter fun x => decide (x.1 ≤ t)
    decide ((s.usedFrames i).length + s.promisedFrames i ≤ s.totalFrames i + (due.map (·.2.1)).sum) &&
    decide (s.residents ≤ 16384 + (due.map (·.2.2)).sum)
  let ends := now :: (back.map (·.1)).filter fun t => decide (now ≤ t)
  (ends.filter enough).foldl min (ends.foldl max 0)

/-! ### The decision (R344 to R346) -/

/-- What a decision finds: a refusal with its PLANNED, or the state with page-ins asked for, the slot, the rows with their
entries, the placement, and the ledgers. -/
inductive Verdict where
  | refuse (status planned : Nat)
  | accept (s : State) (slot : Nat) (rows : List (Nat × Nat × Option Nat)) (p : Placing) (led : List Promised)

/-- The checks of R345 before the placements, in their order, after those of R367: zero when none refuses. DEDUCED (log 56). -/
def State.jobRefusal (s : State) (j : Job) : Nat :=
  let x := s.inst j.inst
  let pool := s.poolOf j
  let used := ((s.jobs.filter fun k => k.inst = j.inst && k.phase ≠ .undecided).map Job.contexts).sum
  let quota := ((s.instRec? j.inst).map (·.quota)).getD 0
  if j.bad ∨ j.rangesOk = false ∨ s.jobAddrsOk j = false ∨ s.jobSemsOk j = false then stBadDescriptor
  else if x.state ≠ .active ∨ x.tdi = 3 ∨ s.adm.refusing then stResetting
  else if s.trainRefusal j ≠ 0 then s.trainRefusal j
  else
    match s.checkHandles j.inst (s.jobHandles j) with
    | .error c => c
    | .ok hs =>
      if 1 < (hs.map (·.2.1)).eraseDups.length then stBaseNotActive
      else if !s.jobMaskOk j then stBadDescriptor
      else if !j.workOk then stBadWork
      else if !j.promiseOk then stBadPromise
      else if quota < used + j.contexts then stNoContext
      else if pool.length < j.nFields then stNoFields
      else if !j.any && !j.mask.all pool.contains then stNoFields
      else 0

/-- The decision on a job (R345). -/
def State.decideJob (s : State) (j : Job) : Verdict :=
  let c := s.jobRefusal j
  if c ≠ 0 then .refuse c 0
  else
    let hs := match s.checkHandles j.inst (s.jobHandles j) with
      | .ok l => l
      | .error _ => []
    let entries := (hs.filterMap (·.2.2)).eraseDups
    match s.askAll entries entries with
    | none => .refuse stTooLarge 0
    | some s' =>
      let now := s.tb.count
      let fresh := entries.filter fun x => (s.entry x).state = .held || (s.entry x).state = .evicting
      let bytes := (fresh.map fun x => (s.entry x).need * 16384).sum
      let len := ceilDiv bytes 485
      let room := if entries.all fun x => (s'.entry x).state ≠ .paging then now else s'.roomAt j.inst
      let begins := ledgerGap s.adm.ledger pageInUnits room len
      let led := if bytes = 0 then s.adm.ledger else (s.book pageInUnits room len fresh).adm.ledger
      let waits := (entries.filter fun x => (s'.entry x).state = .paging).map fun x =>
        if fresh.contains x then begins + len else s'.pageInEnd x room
      let g := waits.foldl max 0 - now
      let j := { j with promise := j.commitTb + j.period }
      let others := s.plansOf.filter fun k => !(k.inst = j.inst && k.seq = j.seq)
      let pool := if j.any then s.poolOf j else j.mask
      let soft (k : Job) : Bool := k.overrun || (k.cls ≠ 1 && (j.cls = 1 || k.onFields))
      let all := s.placements j pool j.nFields (s.horizon j) g others soft true
      match earliest (all.filter fun p => decide (p.planned ≤ j.promise) && s.cadence j p) with
      | some p =>
        .accept s' ((hs.head?.map (·.2.1)).getD 4) hs p led
      | none => .refuse stTooLate (((earliest all).map (·.planned)).getD 0)

/-- Count a decision, unless the instance is confidential (R355, R398). -/
def State.countDecision (s : State) (i : Nat) (ok : Bool) : State :=
  if s.confid i then s
  else if ok then { s with adm := { s.adm with accepts := holdAdd 0xFFFFFFFF s.adm.accepts 1 } }
  else { s with adm := { s.adm with refusals := holdAdd 0xFFFFFFFF s.adm.refusals 1 } }

/-- The decision is posted and shown in the slot's admission fields (R369, R373). -/
def State.postDecision (s : State) (j : Job) (status planned : Nat) : State :=
  let s := s.updInst j.inst fun x => x.setSlot j.seq ((x.slot j.seq).decided j.seq status planned)
  s.post j.inst 2 status j.seq (leBytes 4 j.tag ++ leBytes 4 0 ++ leBytes 8 planned)

/-- Refuse a job: its record is that of the refusal (R367, R368). -/
def State.refuseJob (s : State) (j : Job) (status planned : Nat) : State :=
  let s := { s with jobs := s.jobs.filter fun k => !(k.inst = j.inst && k.seq = j.seq) }
  let s := (s.postDecision j status planned).countDecision j.inst false
  s.writeRecord j .refused (recordHead status j.cls j.tag s.tb.count 0 0 0)

/-- Accept a job: its plan is committed, its variants are pinned, and the mirror that its first step may be followed by is placed in
the ledger (R227, R343, R345). -/
def State.acceptJob (s : State) (j : Job) (slot : Nat) (rows : List (Nat × Nat × Option Nat)) (p : Placing) : State :=
  let named := rows.filterMap fun r => r.2.2.map fun x => (r.1, x)
  let pins : List Pin := named.map fun r => { entry := r.2, row := r.1, set := (s.entry r.2).cur.id }
  let s := named.foldl (fun s r => s.pinEntry r.2) s
  let js := moveTaken s.jobs p
  let put (k : Job) : Job :=
    { k.placed p with
      phase := .accepted, promise := k.commitTb + k.period, slot := slot, pins := pins, barrierTb := p.start
      bases := (List.range 4).filter fun k => (s.slot k).state = .active
      waits := s.stepWait k p.floor }
  let s := { s with jobs := mapIf (fun k => k.inst = j.inst && k.seq = j.seq) put js }
  let s := s.bookMirror j p.planned
  (s.postDecision j 0 p.planned).countDecision j.inst true

/-- ADMISSION_DECISION (R344, R345): the oldest undecided commit is decided. -/
def doAdmissionDecision (s : State) : State :=
  if s.working = false then s
  else
    match s.jobs.find? fun j => j.phase = .undecided with
    | none => s
    | some j =>
      let d := s.tb.count - j.commitTb
      let s := { s with adm := { s.adm with
        late := if 2000 < d then holdAdd 0xFFFF s.adm.late 1 else s.adm.late
        lastLatency := min 0xFFF d } }
      match s.decideJob j with
      | .refuse c t => s.refuseJob j c t
      | .accept s' slot rows p led =>
        { s' with adm := { s'.adm with ledger := led } }.acceptJob j slot rows p

/-- INTAKE_CHUNK_WRITE (R365). -/
def execIntakeChunkWrite (port inst : Nat) (ide : Bool) (off : Nat) (data : List Byte) (s : State) : Out :=
  .next (doIntakeChunkWrite port inst ide off data s)
/-- COMMIT (R367). -/
def execCommit (port inst : Nat) (ide : Bool) (data : List Byte) (s : State) : Out := .next (doCommit port inst ide data s)
/-- RELEASE (R370). -/
def execRelease (port inst : Nat) (ide : Bool) (off : Nat) (data : List Byte) (s : State) : Out :=
  .next (doRelease port inst ide off data s)
/-- ADMISSION_DECISION (R345). -/
def execAdmissionDecision (s : State) : Out := .next (doAdmissionDecision s)

end Sys2Proof.Machine
end

