-- ==== Sys2Proof/Machine/Jobs.lean ====
section
/-! DEFINITION. Dispatching a job and completing it (R113 to R116, R223 to R225, R347, R366, R368 to R370). -/

namespace Sys2Proof.Machine

/-- A table from a list of values. -/
def tabOf {α : Type} [DecidableEq α] (d : α) (l : List α) : Tab α := l.zipIdx.foldl (fun t x => Tab.put d x.2 x.1 t) []

/-! ### The task table (R366) -/

/-- A task from its 128-byte entry. -/
def taskOf (e : List Byte) : Task :=
  { fieldSlot := leAt e 0xA 1, logical := leAt e 0xB 1, prog := leAt e 0 8, words := leAt e 8 2, save := leAt e 0x10 8,
    seed := leAt e 0x18 8, args := (List.range 8).map fun k => BitVec.ofNat 64 (leAt e (0x20 + 8 * k) 8), taskId := 0,
    arrived := false, halted := false, haltAt := 0, sticky := 0, k7 := false }

/-- The checks of R366 on one entry. DEDUCED (log 58). -/
def State.taskOk (s : State) (j : Job) (e : List Byte) : Bool :=
  let t := taskOf e
  decide (1 ≤ t.words) && decide (t.words ≤ 8192) && leAt e 0xC 4 = 0 && allZero (slice e 0x60 32) &&
  s.inOwnPan j.inst t.prog (8 * t.words) && s.inOwnPan j.inst t.save 1536 && decide (t.fieldSlot < j.nFields) &&
  decide (t.logical ≤ 9) && (s.logicalPos (j.fields.getD t.fieldSlot 0) t.logical).isSome

/-- The position a task runs on. -/
def State.taskPos (s : State) (j : Job) (t : Task) : Option Nat := s.logicalPos (j.fields.getD t.fieldSlot 0) t.logical

/-- Whether a pan range of a global address meets an uncorrectable block. -/
def State.badG (s : State) (a n : Nat) : Bool :=
  match s.place a with
  | .pan p off => s.panBad p off n
  | _ => false

/-- The same for an address of an instance in the pan or its granary. -/
def State.badAt (s : State) (i a n : Nat) : Bool :=
  match s.place a with
  | .gran off => s.granBad (s.granBase i + off) n
  | _ => s.badG a n

/-- The program store that an image gives (R115). -/
def State.program (s : State) (t : Task) : Tab Word :=
  let b := s.panReadG t.prog (8 * t.words)
  tabOf 0 ((List.range t.words).map fun k => BitVec.ofNat 64 (leAt b (8 * k) 8))

/-- A core at the start of a task (R113, R116). Scratchpad and accumulators with their flags are not architectural state and stay
(R176). -/
def State.freshCore (s : State) (c : Core) (j : Job) (n : Nat) (t : Task) : Core :=
  { c with
    act := .running, waking := none, inst := j.inst, seq := j.seq, taskNo := n, taskId := t.taskId, planCount := 0, fault := {}
    sticky := 0, a := tabOf 0 ((0 : Word) :: t.args), c := [], t := [], v0 := 0, k := 0, stack := [], pi := 0
    store := s.program t, slots := [], mask := none, stats := none, seed := t.seed, srBarrier := 0, srCtr := []
    inflight := [], wait := .none, ueCause := 0, ueAddr := 0, saveArea := t.save, semBase := j.semBase
    semCount := j.semCount, hungAt := none, hangReads := 0 }

/-! ### Field list and sheaf table (R223, R224, R347) -/

/-- The number of the first item of a list equal to a value. -/
def indexIn (x : Nat) (l : List Nat) : Nat := (findIdx? (· = x) l).getD 0

/-- The sheaf table of a job (R223). -/
def State.sheafTable (s : State) (j : Job) : List Byte :=
  let b := s.panReadG j.rowList (8 * j.rows)
  let handle (r : Nat) : Nat := leAt b (8 * r) 4
  let input (r : Nat) : Nat := leAt b (8 * r + 4) 4
  let rs := List.range j.rows
  let groups := (rs.map input).eraseDups
  let vars := ((rs.map handle).filter fun h => bits h 23 16 ≠ 0).eraseDups
  let low (r : Nat) : Nat := if bits (handle r) 23 16 = 0 then 0xFFFF else (s.entry (bits (handle r) 15 0)).lowLayer
  let depth (g : Nat) : Nat := ((rs.filter fun r => input r = g).map low).foldl min 0xFFFF
  let dir (r : Nat) : Nat :=
    match j.pins.find? fun p => p.row = r with
    | none => 0
    | some p =>
      let e := s.entry p.entry
      let fs := ((e.cur :: e.old).find? fun x => x.id = p.set).map (·.frames)
      match fs with
      | some (f :: _) => frameAddr f
      | _ => 0
  let row (r : Nat) : List Byte :=
    let h := handle r
    let base := decide (bits h 23 16 = 0)
    leBytes 4 h ++ leBytes 1 (b2n (j.withdrawn.contains r)) ++ leBytes 1 (if base then 0 else (s.entry (bits h 15 0)).kinds) ++
    leBytes 2 (indexIn (input r) groups) ++ leBytes 2 (low r) ++ leBytes 2 (depth (input r)) ++
    leBytes 2 (if base then 0xFFFF else indexIn h vars) ++ leBytes 2 0 ++ leBytes 8 (if base then 0 else dir r) ++ leBytes 8 0
  leBytes 2 j.rows ++ leBytes 2 groups.length ++ leBytes 2 vars.length ++ leBytes 1 j.slot ++ leBytes 57 0 ++ rs.flatMap row

/-! ### Dispatch -/

/-- Whether the fields of a job are free: no other job's tasks hold them, and none is stopped (R34, R347). -/
def State.fieldsFree (s : State) (j : Job) : Bool :=
  j.fields.all fun f =>
    !s.held f && s.jobs.all fun k => !k.onFields || (k.inst = j.inst && k.seq = j.seq) || !k.fields.contains f

/-- Whether the cores of a job's tasks can start one: none runs a march test, and no acknowledgement of an earlier plan record is on
its way to one (R111, R145). -/
def State.coresReady (s : State) (j : Job) (ts : List Task) : Bool :=
  (ts.filterMap (s.taskPos j)).all fun p =>
    (s.core p).march.busy = 0 && s.net.all fun t => t.origin ≠ .seq p

/-- Whether a promise needs the fields of a demoted job now: that of a job whose plan holds one of them (R353). -/
def State.neededNow (s : State) (j : Job) : Bool :=
  j.overrun && s.jobs.any fun k =>
    k.live && k.promised && !(k.inst = j.inst && k.seq = j.seq) && k.fields.any j.fields.contains && decide (k.start ≤ s.tb.count)

/-- Whether every frame set a job pins is resident (R229). -/
def State.pinsResident (s : State) (j : Job) : Bool :=
  j.pins.all fun p => let e := s.entry p.entry; !(e.paging && e.cur.id = p.set)

/-- Cores in retention among those a job's tasks run on; dispatch wakes them (R110, R347). DEDUCED (log 58). -/
def State.retained (s : State) (j : Job) (ts : List Task) : List Nat :=
  (ts.filterMap (s.taskPos j)).filter fun p => (s.core p).act = .retention

/-- Change the state of a job's training record (R244). -/
def State.trainState (s : State) (j : Job) (from' into : Nat) : State :=
  match j.train with
  | some x => if s.tr x 4 1 = from' then s.trPut x 4 1 into else s
  | none => s

/-- Start the tasks of a job (R115, R116). -/
def State.startTasks (s : State) (j : Job) (ts : List Task) : State :=
  ts.zipIdx.foldl
    (fun s x =>
      match s.taskPos j x.1 with
      | some p => s.setCore p (s.freshCore (s.core p) j x.2 x.1)
      | none => s)
    s

/-- Whether the request of a whole job was withdrawn: every row, or the job's own handle (R233). -/
def Job.allWithdrawn (j : Job) : Bool :=
  j.withdrawn.contains 0xFFFF || (j.rows ≠ 0 && (List.range j.rows).all j.withdrawn.contains)

/-- DISPATCH (R223, R347, R366): at a job's planned start. DEDUCED (log 58). -/
def doDispatch (i q : Nat) (s : State) : State :=
  match s.job? i q with
  | none => s
  | some j =>
    if j.phase ≠ .accepted ∨ j.endStatus.isSome ∨ s.tb.count < j.start ∨ s.working = false ∨ s.fieldsFree j = false ∨
        s.neededNow j then s
    else if j.allWithdrawn then (s.trainState j 1 3).endJob i q stWithdrawn
    else if s.pinsResident j = false then s
    else
      let table := s.panReadG j.taskTable (128 * j.nTasks)
      let es := (List.range j.nTasks).map fun k => slice table (128 * k) 128
      let ts := es.map taskOf
      if s.badG j.taskTable (128 * j.nTasks) || !es.all (s.taskOk j) ||
          !distinct (ts.map fun t => (t.fieldSlot, t.logical)) || ts.any (fun t => s.badG t.prog (8 * t.words)) then
        s.endJob i q stTaskFault
      else if s.retained j ts ≠ [] then (s.retained j ts).foldl State.wake s
      else if s.coresReady j ts = false then s
      else
        let s := if j.any then s.memWrite i j.fieldList (padTo 128 (j.fields.map (BitVec.ofNat 8))) else s
        let s := if j.rows = 0 then s else s.memWrite i j.sheaf (s.sheafTable j)
        let ts := ts.zipIdx.map fun x => { x.1 with taskId := s.adm.nextTask + 1 + x.2 }
        let now := s.tb.count
        let s := { s with adm := { s.adm with nextTask := s.adm.nextTask + ts.length } }
        let s := s.updJob i q fun j =>
          { j with phase := .running, dispatchTb := now, planAt := now + 3000, barrierTb := now, quantumOver := false, tasks := ts }
        (s.startTasks j ts).trainState j 1 2

/-! ### Completion (R368, R370) -/

/-- Whether every descriptor of a job's tasks has retired (R105, R106). -/
def State.jobDrained (s : State) (i q : Nat) : Bool :=
  s.cores.all fun e => e.2.inst ≠ i || e.2.seq ≠ q || (e.2.ce0.act.isEmpty && e.2.ce1.act.isEmpty)

/-- Values of TRAIN_SET that wait are applied (R247, R259). -/
def State.applySets (s : State) (x : Nat) : State :=
  let sets := (s.train1 x).sets
  let s := s.updTrain x fun t => { t with sets := [] }
  sets.foldl (fun s v => s.trPut x v.1 (settable v.1) v.2) s

/-- A job ends on its training record: it is open again unless withdrawn or ended, and what waited for its next step end
happens now (R244, R247, R268). -/
def State.endTraining (s : State) (j : Job) : State :=
  match j.train with
  | some x => if (s.train1 x).isOpen then ((s.trainState j 2 1).applySets x).capture x else s
  | none => s

/-- JOB_COMPLETE (R369, R370). -/
def doJobComplete (i q : Nat) (s : State) : State :=
  match s.job? i q with
  | none => s
  | some j =>
    let halted := j.phase = .running && j.tasks.all (·.halted)
    if (!halted && j.endStatus.isNone) || !s.jobDrained i q || !s.working then s
    else
      let status := j.endStatus.getD (if j.allWithdrawn then stWithdrawn else 0)
      let gone := (j.withdrawn.filter fun r => decide (r < j.rows)).length
      let done := if status = 0 then j.rows - gone else 0
      let sticky := (j.tasks.filter (·.halted)).foldl (fun v t => v ||| t.sticky.toNat) 0
      let s := s.writeRecord j .done (recordHead status j.cls j.tag s.tb.count done gone sticky)
      let s := { s with jobs := s.jobs.filter fun k => !(k.inst = i && k.seq = q) }
      (j.pins.foldl State.unpin s).endTraining j

/-- DISPATCH (R347). -/
def execDispatch (inst seq : Nat) (s : State) : Out := .next (doDispatch inst seq s)
/-- JOB_COMPLETE (R370). -/
def execJobComplete (inst seq : Nat) (s : State) : Out := .next (doJobComplete inst seq s)

end Sys2Proof.Machine
end

