-- ==== Sys2Proof/Machine/Plan.lean ====
section
/-! DEFINITION. Plan points, barriers, slices and restarts (R144 to R150, R228, R233, R250, R257 to R263, R268, R271, R300,
R348, R375, R414). -/

namespace Sys2Proof.Machine

/-- Change one task of a job. -/
def Job.updTask (j : Job) (n : Nat) (f : Task → Task) : Job :=
  { j with tasks := j.tasks.zipIdx.map fun x => if x.2 = n then f x.1 else x.1 }

/-! ### The plan record (R145, R149) -/

/-- A plan record (R149). -/
def Core.planRecord (c : Core) (n id : Nat) : List Byte :=
  leBytes 4 ((c.pi + 1) % 8192) ++ leBytes 2 id ++ leBytes 1 c.sticky.toNat ++ leBytes 1 c.k.toNat ++ leBytes 4 n ++
  leBytes 1 c.stack.length ++ leBytes 3 0 ++ (List.range 8).flatMap (fun k => leBytes 4 (c.stack.getD k 0)) ++
  leBytes 16 c.v0.toNat ++ (List.range 32).flatMap (fun k => leBytes 8 (c.areg k).toNat) ++
  (List.range 16).flatMap (fun k => leBytes 4 (Tab.get 0 c.c k).toNat) ++
  (List.range 16).flatMap (fun k => leBytes 16 (Tab.get 0 c.t k).toNat) ++ List.replicate 128 (0 : Byte)

/-- Where copy n mod 2 of a plan save area lies. -/
def planCopy (save n : Nat) : Nat := save + n % 2 * 0x300

/-- The first block of a consumed piece that is uncorrectable, looked for from the piece's address (R410). -/
def State.firstBad (s : State) (i a : Nat) : Nat :=
  (((List.range 64).map fun k => (a + 64 * k) / 64 * 64).find? fun b => s.badAt i b 1).getD a

/-- PLAN_RECORD_WRITE (R145): once drained, PLAN_COUNT advances and the record leaves block by block; a consumed
uncorrectable block faults here (R410). -/
def doPlanRecordWrite (p : Nat) (s : State) : State :=
  let c := s.core p
  match c.wait with
  | .plan id =>
    if !c.busy || !c.drained || s.held (p / 11) || !s.working then s
    else if c.ueCause ≠ 0 then s.coreFault p c.ueCause 0 c.pi (s.firstBad c.inst c.ueAddr)
    else
      let n := c.planCount + 1
      let a := planCopy c.saveArea n
      let ws := cutWrites 64 false 0x400 (BitVec.ofNat 64 a) (c.planRecord n id)
      if !s.addrOk c.inst (p / 11) .write a 0x300 then s.coreFault p 1 0 c.pi a
      else
        let s := s.setCore p { c with planCount := n, wait := .planAck ws.length id }
        ws.foldl
          (fun s w =>
            match s.place w.dst.toNat with
            | .pan q _ =>
              s.send { id := 0, kind := .write, origin := .seq p, inst := c.inst, srcUnit := posUnit p 0, dstUnit := posUnit q 7,
                       addr := w.dst, n := w.data.length, seq := c.taskId, data := w.data }
            | _ => s)
          s
  | _ => s

/-! ### Arrivals (R145, R146, R250, R262, R300) -/

/-- GATE and STEP_END of a PLAN_ID (R250). -/
def planGate (id : Nat) : Bool := bit id 14
def planStepEnd (id : Nat) : Bool := bit id 13

/-- Whether a PLAN_ID breaks R250 at this point of a training job's step. -/
def Job.planBad (j : Job) (id : Nat) : Bool :=
  j.train.isSome && ((planGate id && planStepEnd id) || (planGate id && j.inUpdate) || (planStepEnd id && !j.inUpdate))

/-- Whether every task of a job has arrived at its next barrier, one at least by a PLAN (R145, R146). -/
def Job.allArrived (j : Job) : Bool := j.tasks.all (fun t => t.arrived || t.halted) && j.tasks.any (·.arrived)

/-- OR of k7 over the tasks of this module, with the record's LATE bit at a GATE (R257, R259). -/
def State.localFlag (s : State) (j : Job) : Bool :=
  (j.tasks.any fun t => t.arrived && t.k7) ||
  (match j.train with
   | some x => planGate (j.planId.getD 0) && bit (s.tr x 0x23 1) 1
   | none => false)

/-- Payload of ARRIVE and COMPLETE (R300). -/
def barrierPayload (j : Job) (flag : Bool) : List Byte :=
  leBytes 4 j.span ++ leBytes 4 (j.barrier + 1) ++ leBytes 1 (b2n flag) ++ leBytes 7 0

/-- In a job that spans modules, send ARRIVE once this module and all its children have arrived; the root forms the
reduced flag and sends COMPLETE (R300). -/
def State.spanArrive (s : State) (i q : Nat) : State :=
  match s.job? i q with
  | none => s
  | some j =>
    if !j.spans || j.arriveSent || !j.allArrived || !j.childLinks.all j.children.contains then s
    else
      let flag := s.localFlag j || j.childFlag
      if j.parent = 0xFF then
        let s := s.updJob i q fun j => { j with arriveSent := true, complete := some flag }
        j.childLinks.foldl (fun s n => if s.linkReady n 0xFF then s.linkControl n 4 (barrierPayload j flag) else s) s
      else if s.linkReady j.parent 0xFF then
        (s.updJob i q fun j => { j with arriveSent := true }).linkControl j.parent 3 (barrierPayload j flag)
      else s

/-- UPDATE_ENTRY_QUEUE (R262): the slow-tier entry of the step that ends. -/
def State.queueUpdate (s : State) (j : Job) : State :=
  match j.train with
  | some x =>
    let r := s.recBytes x
    if !recSlow r || !planStepEnd (j.planId.getD 0) || j.updQueued || s.tr x 4 1 = 3 then s
    else
      let skip := bit (leAt r 0x23 1) 0
      let f (o : Nat) : BitVec 32 := BitVec.ofNat 32 (leAt r o 4)
      let u : UpdEntry :=
        { index := x, step := leAt r 8 8 + 1, skip := skip, scale := leAt r 0x20 1, lr := f 0x30, beta1 := f 0x34,
          beta2 := f 0x38, eps := f 0x3C, wd := f 0x40, skipped := leAt r 0x2C 4 + b2n skip }
      ({ s with upd := { s.upd with queue := s.upd.queue ++ [u] } }).updJob j.inst j.seq fun j => { j with updQueued := true }
  | none => s

/-- What the arrival of a task brings about once all have arrived. DEDUCED (log 59). -/
def State.afterArrival (s : State) (i q : Nat) : State :=
  match s.job? i q with
  | none => s
  | some j => (if j.allArrived then s.queueUpdate j else s).spanArrive i q

/-- TASK_END (R144, R146): after HALT, once every engine and descriptor has drained; a halted task counts as arrived, so it may be the
last that a barrier waits for. -/
def doTaskEnd (p : Nat) (s : State) : State :=
  let c := s.core p
  if c.wait ≠ .halt || !c.busy || !c.drained || s.held (p / 11) || !s.working then s
  else
    let s := s.setCore p { c with act := .idle, wait := .none }
    let s := s.updJob c.inst c.seq fun j =>
      j.updTask c.taskNo fun t => { t with halted := true, haltAt := j.barrier, sticky := c.sticky }
    s.afterArrival c.inst c.seq

/-- BARRIER_ARRIVAL (R145, R146, R250): the record is acknowledged, and the task arrives at plan n. -/
def doBarrierArrival (p : Nat) (s : State) : State :=
  let c := s.core p
  match c.wait, s.job? c.inst c.seq with
  | .planAck 0 id, some j =>
    if !c.busy || s.held (p / 11) || !s.working then s
    else if j.planId.any (· ≠ id) || j.planBad id then s.coreFault p 2 0 c.pi 0
    else
      let s := s.setCore p { c with act := .waiting, wait := .planBarrier c.planCount }
      let s := s.updJob c.inst c.seq fun j =>
        { j.updTask c.taskNo (fun t => { t with arrived := true, k7 := c.k.getLsbD 7 }) with planId := some id }
      s.afterArrival c.inst c.seq
  | _, _ => s

/-! ### What a barrier does to a training record (R257 to R260) -/

/-- Set k6 of every task that arrived, live and in its saved record (R257). -/
def State.setK6 (s : State) (j : Job) (n : Nat) (flag : Bool) : State :=
  j.tasks.foldl
    (fun s t =>
      if !t.arrived then s
      else
        let a := planCopy t.save n + 7
        let k := leNat (s.panReadG a 1)
        let s := s.panWriteG a (leBytes 1 (k - (if bit k 6 then 64 else 0) + (if flag then 64 else 0)))
        match s.taskPos j t with
        | some p => s.updCore p fun c =>
            { c with k := BitVec.ofNat 8 (c.k.toNat - (if bit c.k.toNat 6 then 64 else 0) + (if flag then 64 else 0)) }
        | none => s)
    s

/-- GATE_REDUCTION (R257). -/
def State.gateReduction (s : State) (j : Job) (x n : Nat) (flag : Bool) : State :=
  let s := s.setK6 j n flag
  let g := s.tr x 0x23 1
  let s := s.trPut x 0x23 1 (g - g % 2 + b2n flag)
  let s := if flag && !s.confid j.inst then { s with adm := { s.adm with skips := holdAdd 0xFFFF s.adm.skips 1 } } else s
  s.updJob j.inst j.seq fun j => { j with inUpdate := true }

/-- STEP_END_UPDATE (R259, R260, R268, R419): the record at the end of a step, then what waits for a step boundary. The
second result says whether the job ends with NONFINITE_PERSISTENT. DEDUCED (log 59). -/
def State.stepEndUpdate (s : State) (j : Job) (x : Nat) (late : Bool) : State × Bool :=
  let r := s.recBytes x
  let skip := bit (leAt r 0x23 1) 0
  let exp := sext 8 (leAt r 0x20 1)
  let min' := sext 8 (leAt r 0x21 1)
  let max' := sext 8 (leAt r 0x22 1)
  let grow := if leAt r 0x24 2 = 0 then 1000 else leAt r 0x24 2
  let clean := leAt r 0x26 2 + 1
  let step := leAt r 8 8 + 1
  let code (v : Int) : Nat := (v % 256).toNat
  let run := leAt r 0x28 2 + 1
  let s := s.trPut x 0x23 1 (b2n skip + 2 * b2n late)
  let exp' := if skip then (if min' < exp then exp - 1 else exp) else if grow ≤ clean ∧ exp < max' then exp + 1 else exp
  let s := s.trPut x 0x20 1 (code exp')
  let s :=
    if skip then ((s.trPut x 0x2C 4 (leAt r 0x2C 4 + 1)).trPut x 0x28 2 run).trPut x 0x26 2 0
    else (s.trPut x 0x28 2 0).trPut x 0x26 2 (if grow ≤ clean then 0 else clean)
  let s := s.trPut x 8 8 step
  let s := if recSlow r then s else s.trPut x 0x10 8 step
  let s := s.applySets x
  let s := s.capture x
  let interval := leAt r 0x2A 2
  let mirror := (s.train1 x).mirror.isSome && interval ≠ 0 && !skip && (step - leAt r 0x2C 4) % interval = 0
  let s := if mirror then s.updTrain x fun t => { t with mirrorDue := true } else s
  let s := s.updJob j.inst j.seq fun j => { j with inUpdate := false }
  if skip && decide (16 ≤ run) && exp' = min' then
    let s := s.trPut x 4 1 4
    (if s.confid j.inst then s else { s with adm := { s.adm with persistent := holdAdd 0xFFFF s.adm.persistent 1 } }, true)
  else (s, false)

/-- The waits that hold a barrier (R263, R268, R300, R419): true when none does. -/
def State.barrierFree (s : State) (j : Job) : Bool :=
  (!j.spans || j.complete.isSome) &&
  (match j.train with
   | none => true
   | some x =>
     let r := s.recBytes x
     let id := j.planId.getD 0
     if planGate id && !recSlow r then !(s.train1 x).mirrorDue
     else if planStepEnd id && recSlow r then
       decide (leAt r 8 8 + 2 - recLag r ≤ leAt r 0x10 8) && (s.train1 x).refreshTo.isNone &&
       (j.refreshed || decide (leAt r 0x10 8 ≤ leAt r 0x18 8))
     else true)

/-- Whether the refresh of R263 is due before the barrier can complete. -/
def State.refreshDue (s : State) (j : Job) : Bool :=
  match j.train with
  | none => false
  | some x =>
    let r := s.recBytes x
    planStepEnd (j.planId.getD 0) && recSlow r && !j.refreshed && (s.train1 x).refreshTo.isNone &&
    decide (leAt r 8 8 + 2 - recLag r ≤ leAt r 0x10 8) && decide (leAt r 0x18 8 < leAt r 0x10 8)

/-! ### Withdrawal, slices and planned swaps at a barrier -/

/-- ROW_WITHDRAWAL (R233): ROW_STATE WITHDRAWN is written, and the pins drop. -/
def State.withdrawRows (s : State) (j : Job) (rows : List Nat) : State :=
  let s := rows.foldl
    (fun s r => if r < j.rows then s.panWriteG (j.sheaf + 0x40 + 32 * r + 4) [(1 : Byte)] else s) s
  s.dropRows j.inst j.seq rows

/-- The job whose plan takes the fields of another at this barrier (R348, R349): one planned to take them, that is to start before
the job's next barrier; from a demoted job, any that a promise binds (R353). -/
def State.taker (s : State) (j : Job) : Option Job :=
  if j.cls = 1 ∧ j.overrun = false then none
  else
    s.jobs.find? fun k =>
      k.phase = .accepted && k.endStatus.isNone && k.fields.any j.fields.contains &&
      decide (k.start < s.tb.count + beatTime j.stretch j.floor + 1000) &&
      (if j.overrun then k.promised else k.takes.contains (j.inst, j.seq) && (k.cls = 1 || j.quantumOver))

/-- The tasks of a job leave their cores at a barrier, their state in their plan records (R348, R350). -/
def State.leaveFields (s : State) (j : Job) : State :=
  (s.stopJobTasks j.inst j.seq).semClear (s.semIn j.inst j.semBase j.semCount)

/-- A job is sliced for another (R348, R350): it resumes when that one is planned to end. -/
def State.sliceJob (s : State) (j k : Job) : State :=
  let now := s.tb.count
  let s := s.leaveFields j
  let s := s.updJob k.inst k.seq fun k => { k with start := min k.start now }
  s.updJob j.inst j.seq fun j =>
    { j with
      phase := .sliced
      slicedFor := some (k.inst, k.seq)
      start := k.planned
      remaining := j.remaining - (now - j.planAt) * j.floor / 1000
      planAt := k.planned + 3000 }

/-- Every task of a job goes on after barrier n (R145). -/
def State.continueTasks (s : State) (j : Job) (n : Nat) : State :=
  let go (c : Core) : Core :=
    match c.wait with
    | .planBarrier _ =>
      if c.inst = j.inst ∧ c.seq = j.seq ∧ c.busy then
        { c.advance with
          act := .running, wait := .none, mask := none, slots := [], stats := none, srBarrier := n, srCtr := [] }
      else c
    | _ => c
  { s with cores := Tab.mapAll {} (fun _ c => go c) s.cores }

/-- A step of a class B job has ended: the promise and plan of the next, and the mirror that may follow it (R340, R343); after the
last there is none. -/
def State.nextStep (s : State) (i q : Nat) : State :=
  let now := s.tb.count
  match s.job? i q with
  | none => s
  | some j =>
    if !j.stepped then s
    else if j.steps ≤ j.step + 1 then s.updJob i q fun j => { j with step := j.steps, planned := now, planAt := now, noticed := none }
    else
      let promise := j.promise + j.period
      let planned := now + s.stepTime j j.floor
      (s.updJob i q fun j =>
        { j with
          step := j.step + 1, promise := promise, planned := planned, remaining := j.work, planAt := now
          waits := s.stepWait j j.floor
          noticed := if j.noticed.isSome ∧ promise < planned then some planned else none }).bookMirror j planned

/-- A planned spare swap of a position that the job's tasks use takes place at this barrier (R421). -/
def State.swapHere (s : State) (j : Job) : Bool :=
  s.mgt.fenceReq.any fun p => j.tasks.any fun t => s.taskPos j t = some p

/-- What a barrier that completes does (R145): the record of a training job, withdrawal, then the tasks go on, leave their
fields or end. DEDUCED (log 59). -/
def State.completeBarrier (s : State) (j : Job) : State :=
  let i := j.inst
  let q := j.seq
  let n := j.barrier + 1
  let id := j.planId.getD 0
  let s := s.queueUpdate j
  let flag := j.complete.getD (s.localFlag j)
  let r : State × Bool :=
    match j.train with
    | some x =>
      if planGate id then (s.gateReduction j x n flag, false)
      else if planStepEnd id then
        let e := s.stepEndUpdate j x flag
        (e.1.nextStep i q, e.2)
      else (s, false)
    | none => (if planStepEnd id && j.stepped then s.nextStep i q else s, false)
  let s := r.1
  let token := bit id 15
  let all := (List.range j.rows) ++ (if j.rows = 0 then [0xFFFF] else [])
  let rows := if j.withdrawAll && (token || j.train.isSome) then all else if token then j.forced else []
  let ends := (j.train.isSome && (j.withdrawAll || j.forced.contains 0xFFFF)) ||
    (token && (j.withdrawAll || j.forced.contains 0xFFFF))
  let s := s.withdrawRows j rows
  let s := s.updJob i q fun j =>
    { j with
      barrier := n, planId := none, children := [], childFlag := false, complete := none, arriveSent := false
      updQueued := false, refreshed := false, restarts := 0, hostFault := false, barrierTb := s.tb.count
      tasks := j.tasks.map fun t => { t with arrived := false } }
  if r.2 then s.endJob i q stNonfinite
  else if ends then (s.trainState j 2 3).endJob i q stWithdrawn
  else if s.swapHere j then
    (s.leaveFields j).updJob i q fun j => { j with phase := .stopped, start := s.tb.count }
  else
    match s.job? i q with
    | none => s
    | some j =>
      match s.taker j with
      | some k => s.sliceJob j k
      | none => s.continueTasks j n

/-- BARRIER_COMPLETE (R145, R263). -/
def doBarrierComplete (i q : Nat) (s : State) : State :=
  match s.job? i q with
  | none => s
  | some j =>
    if j.phase ≠ .running || j.endStatus.isSome || !j.allArrived || !s.working || j.fields.any s.held then s
    else if s.refreshDue j then
      match j.train with
      | some x =>
        let t := s.startRefresh x
        if (t.train1 x).refreshTo.isSome then t.updJob i q fun j => { j with refreshed := true } else t
      | none => s
    else if s.barrierFree j then s.completeBarrier j
    else s

/-! ### Restart (R147, R261, R321, R413, R414) -/

/-- The architectural state of a task from its plan record (R147, R149). -/
def Core.restored (c : Core) (b : List Byte) : Core :=
  { c with
    pi := leAt b 0 4
    sticky := BitVec.ofNat 4 (leAt b 6 1)
    k := BitVec.ofNat 8 (leAt b 7 1)
    planCount := leAt b 8 4
    stack := (List.range (leAt b 0xC 1)).map fun n => leAt b (0x10 + 4 * n) 4
    v0 := BitVec.ofNat 128 (leAt b 0x30 16)
    a := tabOf 0 ((List.range 32).map fun n => BitVec.ofNat 64 (leAt b (0x40 + 8 * n) 8))
    c := tabOf 0 ((List.range 16).map fun n => BitVec.ofNat 32 (leAt b (0x140 + 4 * n) 4))
    t := tabOf 0 ((List.range 16).map fun n => BitVec.ofNat 128 (leAt b (0x180 + 16 * n) 16)) }

/-- Restart one task from barrier n: scratchpad and accumulators hold no defined value (R147, log 12). -/
def State.restartTask (s : State) (j : Job) (k : Nat) (t : Task) : State :=
  match s.taskPos j t with
  | none => s
  | some p =>
    let c := s.freshCore (s.core p) j k t
    let c := if j.barrier = 0 then c else
      { c.restored (s.panReadG (planCopy t.save j.barrier) 0x300) with srBarrier := j.barrier }
    { s.setCore p { c with
        scratch := [], scratchFree := some s.freeN, ueWords := [], acc := [], accFree := some s.freeN, accFlags := [] } with
      freeN := s.freeN + 1 }

/-- Tasks that run again: all but those that had retired HALT before the barrier (R146, R147). DEDUCED (log 60). -/
def Job.again (j : Job) (t : Task) : Bool := !(t.halted && decide (t.haltAt < j.barrier))

/-- TASK_RESTART (R147): at its planned start a stopped or sliced job resumes every task from its last completed barrier;
a fifth restart from one barrier ends it (R414), with HOST_FAULT when a flush of its result data failed since that barrier (R371), and so does a task whose logical core is absent (R413).
DEDUCED (log 60). -/
def doTaskRestart (i q : Nat) (s : State) : State :=
  match s.job? i q with
  | none => s
  | some j =>
    let stopped := j.phase = .stopped
    let ts := j.tasks.filter j.again
    if (j.phase ≠ .stopped ∧ j.phase ≠ .sliced) ∨ j.endStatus.isSome ∨ s.tb.count < j.start ∨ s.working = false ∨
        s.fieldsFree j = false ∨ s.neededNow j ∨ s.coresReady j ts = false ∨ (j.ue.any fun a => s.badAt i a 1) ∨
        (ts.any fun t => (s.taskPos j t).any fun p => (s.core p).hungAt.isSome || s.mgt.fenceReq = some p) then s
    else if j.tasks.isEmpty then s.updJob i q fun j => { j with phase := .accepted }
    else if stopped ∧ 4 ≤ j.restarts then s.endJob i q (if j.hostFault then 0x77 else stTaskFault)
    else if ts.any (fun t => (s.taskPos j t).isNone) ∨
        ts.any (fun t => s.badG t.prog (8 * t.words) || (j.barrier ≠ 0 && s.badG (planCopy t.save j.barrier) 0x300)) then
      s.endJob i q stTaskFault
    else if s.retained j ts ≠ [] then (s.retained j ts).foldl State.wake s
    else
      let now := s.tb.count
      let s := s.semClear (s.semIn i j.semBase j.semCount)
      let s := match j.train with
        | some x =>
          let r := s.recBytes x
          if recSlow r && j.inUpdate then s.zeroBuffer x ((leAt r 8 8 + 1) % recLag r) else s
        | none => s
      let s := s.updJob i q fun j =>
        { j with
          phase := .running, slicedFor := none, dispatchTb := now, planAt := now + 3000, barrierTb := now, quantumOver := false
          planId := none
          arriveSent := false, ue := none, restarts := if stopped then j.restarts + 1 else j.restarts
          tasks := j.tasks.map fun t => if j.again t then { t with arrived := false, halted := false } else t }
      (j.tasks.zipIdx.filter fun x => j.again x.1).foldl (fun s x => s.restartTask j x.2 x.1) s

/-- TASK_END (R144). -/
def execTaskEnd (p : Nat) (s : State) : Out := .next (doTaskEnd p s)
/-- PLAN_RECORD_WRITE (R145). -/
def execPlanRecordWrite (p : Nat) (s : State) : Out := .next (doPlanRecordWrite p s)
/-- BARRIER_ARRIVAL (R145). -/
def execBarrierArrival (p : Nat) (s : State) : Out := .next (doBarrierArrival p s)
/-- BARRIER_COMPLETE (R145). -/
def execBarrierComplete (inst seq : Nat) (s : State) : Out := .next (doBarrierComplete inst seq s)
/-- TASK_RESTART (R147). -/
def execTaskRestart (inst seq : Nat) (s : State) : Out := .next (doTaskRestart inst seq s)

end Sys2Proof.Machine
end

