-- ==== Sys2Proof/Machine/Links.lean ====
section
/-! DEFINITION. Tiller links: flits (R276 to R278), the message kinds a partner sends (R280 to R283, R291, R292, R296,
R300), bring-up and sessions (R288, R289, R386, R387), links going down (R285, R290, R311) and lost partners (R420). -/

namespace Sys2Proof.Machine

/-! ### Flits (R276, R277) -/

/-- Fields of a flit header. -/
def flitVc (f : List Byte) : Nat := bits (leAt f 0 1) 1 0
def flitKind (f : List Byte) : Nat := bits (leAt f 0 1) 3 2
def flitFirst (f : List Byte) : Nat := leAt f 1 1
def flitSeq (f : List Byte) : Nat := leAt f 2 2
def flitAck (f : List Byte) : Nat := leAt f 4 2
def flitCreditVc (f : List Byte) : Nat := bits (leAt f 6 1) 1 0
def flitCredits (f : List Byte) : Nat := bits (leAt f 6 1) 7 2

/-- Whether the CRC-64 of a flit is good. -/
def flitGood (f : List Byte) : Bool := f.length = 256 && crc64 (f.take 248) = leAt f 248 8

/-- Flits pass once the lanes are trained, while the link's region is not stopped (R34, R288). DEDUCED (log 41). -/
def State.linkRuns (s : State) (n : Nat) : Bool := decide (n < 6) && (s.link n).electrical && s.working && !s.held (90 + n)

/-- Drop the replay entries up to and including an acknowledged sequence number. -/
def ackReplay (ack : Nat) (q : List SentFlit) : List SentFlit :=
  match findIdx? (fun e => e.seq = ack) q with
  | some k => q.drop (k + 1)
  | none => q

/-- The acknowledgement of a good flit. -/
def Link.flitAcks (l : Link) (f : List Byte) : Link := { l with replay := ackReplay (flitAck f) l.replay }

/-- The acknowledgement and credits of a good flit. -/
def Link.flitHead (l : Link) (f : List Byte) : Link :=
  let l := l.flitAcks f
  { l with credits := if flitCreditVc f = 3 then l.credits else Tab.upd 0 (flitCreditVc f) (· + flitCredits f) l.credits }

/-- Cut the bytes of a VC into whole messages, what remains of a message, and padding (R279). DEDUCED (log 41). -/
def cutMessages : Nat → List Byte → List Byte × List Byte
  | 0, b => ([], b)
  | fuel + 1, b =>
    let len := leAt b 0 2
    if b.length < 2 then ([], b)
    else if len = 0 then ([], [])
    else if b.length < 4 + len + 16 then ([], b)
    else
      let r := cutMessages fuel (b.drop (4 + len + 16))
      (b.take (4 + len + 16) ++ r.1, r.2)

/-- The body of a DATA flit takes a receive buffer and joins its VC; a flit whose first message starts at offset 0 shows that what was
left of the last one was padding (R278, R279). DEDUCED (log 41). -/
def Link.flitBody (l : Link) (f : List Byte) : Link :=
  let vc := flitVc f
  let tail := if flitFirst f = 0 then [] else Tab.get [] l.rxTail vc
  let r := cutMessages 250 (tail ++ slice f 8 240)
  { l with
    rxTail := Tab.put [] vc r.2 l.rxTail, inStream := Tab.upd [] vc (· ++ r.1) l.inStream, bufs := Tab.upd 0 vc (· + 1) l.bufs
    ackOwed := true }.freeBuffers vc

/-- A flit is discarded, and a REPLAY flit is sent (R277). -/
def State.flitGap (s : State) (n : Nat) : State := s.updLink n fun l => { l.sendControl 2 with gap := true }

/-- A flit arrives (R275 to R277): the codewords on its way that were not corrected are counted; one whose CRC fails is discarded, and
a REPLAY flit is sent; a good one of the row's kind has its effect, and then the sender runs. DEDUCED (log 41). -/
def State.flitArrives (s : State) (n kind fec : Nat) (f : List Byte) (body : State → State) : State :=
  if !s.linkRuns n then s
  else
    let s := s.updLink n fun l => { l with fecUncorrected := holdAdd 0xFFFF l.fecUncorrected fec }
    if !flitGood f then (s.flitGap n).linkPump n
    else if flitKind f ≠ kind then s
    else (body s).linkPump n

/-- DATA_FLIT (R276, R277). A flit already received is a repeat and is discarded; the first that leaves a gap asks for a REPLAY.
DEDUCED (log 41). -/
def doDataFlit (n fec : Nat) (f : List Byte) (s : State) : State :=
  s.flitArrives n 0 fec f fun s =>
    let l := s.link n
    if flitSeq f = (l.rxSeq + 1) % 65536 then
      s.updLink n fun l => ({ l with rxSeq := flitSeq f, gap := false }.flitHead f).flitBody f
    else if (l.rxSeq + 65536 - flitSeq f) % 65536 < 512 then s.updLink n fun l => l.flitAcks f
    else if l.gap then s
    else s.flitGap n

/-- IDLE_FLIT (R276). -/
def doIdleFlit (n fec : Nat) (f : List Byte) (s : State) : State :=
  s.flitArrives n 1 fec f fun s => s.updLink n fun l => l.flitHead f

/-- REPLAY_FLIT (R277): every flit after ACK_SEQ is sent again; one that was replayed eight times without being received
good takes the link down. -/
def doReplayFlit (n fec : Nat) (f : List Byte) (s : State) : State :=
  s.flitArrives n 2 fec f fun s =>
    let s := s.updLink n fun l => l.flitHead f
    let q := (s.link n).replay
    if q.any fun e => decide (8 ≤ e.tries) then s.linkDown n 3
    else s.updLink n fun l =>
      { l with
        replay := q.map fun e => { e with tries := e.tries + 1 }, replays := holdAdd 0xFFFF l.replays q.length
        flits := l.flits ++ q.map (·.bytes) }

/-! ### Requests from the partner (R280 to R283, R292, R296) -/

/-- The check of a request under this module's image (R36, R37, R49, R283); no route is asked for traffic of a link. -/
def State.linkAddrOk (s : State) (i : Nat) (u : Use) (a n : Nat) : Bool :=
  match s.place a with
  | .pan p off => off + n ≤ columnBytes && s.panRange i u p 225 off n
  | .gran off => off + n ≤ s.granSize i
  | .scratch p off => off + n ≤ 0x100000 && s.fieldInst (p / 11) = some i && u ≠ .acc
  | _ => false

/-- STATUS of a request that the LINK record does not admit (R282, R283); none when it admits it. -/
def State.linkAdmits (s : State) (n i : Nat) : Bool :=
  i ≠ 0xFF && (s.instRec? i).isSome && (s.linkRec? n).any fun r => bit r.insts i

/-- The token a request becomes at its destination. -/
def State.linkToken (s : State) (n i : Nat) (kind : TokKind) (m : List Byte) (len : Nat) : Option Token :=
  let a := msgAddr m
  let tok (dst : Nat) : Token :=
    { id := 0, kind := kind, origin := .link n (msgTagOf m), inst := i, srcUnit := linkUnit n, dstUnit := dst,
      addr := BitVec.ofNat 64 a, n := len, data := msgPayload m }
  match s.place a with
  | .pan q _ => some (tok (posUnit q 7))
  | .gran off => some (tok (granUnit (granCtlOf (s.granBase i + off))))
  | .scratch q _ => some (tok (posUnit q 6))
  | _ => none

/-- The shared meaning of WRITE, READ and ACCUMULATE. DEDUCED (log 42). -/
def State.linkAccess (s : State) (n i k : Nat) (kind : TokKind) (u : Use) (m : List Byte) (len : Nat) : State :=
  if !s.linkAdmits n i then s.linkResponse n i k 2 (msgTagOf m) []
  else if !s.linkAddrOk i u (msgAddr m) (if u = .acc then 2 * len else len) then s.linkResponse n i k 1 (msgTagOf m) []
  else
    match s.linkToken n i kind m len with
    | some t => s.send t
    | none => s

/-- WRITE (R280, R282, R283). -/
def doWrite (n key : Nat) (plain : List Byte) (s : State) : State :=
  s.receive n 0 (fun m => msgKind m = 1 && !msgResp m) key plain noWait fun s i =>
    s.linkAccess n i 1 .write .write plain (msgPayload plain).length

/-- A READ of a scratchpad is answered at its bank; a word that is uncorrectable there is counted and makes the answer
UNCORRECTABLE (R109, R282). -/
def State.linkScratchRead (s : State) (n i q off : Nat) (m : List Byte) : State :=
  let c := s.core q
  let len := msgArg m
  let s := (s.crossed (90 + n) (q / 11) i).crossed (q / 11) (90 + n) i
  match c.scratchRead 0 off len with
  | .ok bs => s.linkResponse n i 2 0 (msgTagOf m) bs
  | .error f => (s.scratchUe q f.detail).linkResponse n i 2 3 (msgTagOf m) (c.bytes off len)

/-- Why a READ of a scratchpad waits: a stopped region lies on its way (R34), or the core is in retention and is woken first (R110). -/
def State.scratchReadWaits (s : State) (n i : Nat) (m : List Byte) : Option State :=
  match s.place (msgAddr m) with
  | .scratch q _ =>
    if !s.linkAdmits n i || !s.linkAddrOk i .read (msgAddr m) (msgArg m) then none
    else if s.wayHeld (90 + n) (q / 11) || s.wayHeld (q / 11) (90 + n) then some s
    else if (s.core q).act = .retention then some (s.wake q)
    else none
  | _ => none

/-- READ (R280, R282, R283). DEDUCED (log 42). -/
def doRead (n key : Nat) (plain : List Byte) (s : State) : State :=
  s.receive n 0 (fun m => msgKind m = 2 && !msgResp m) key plain (fun i => s.scratchReadWaits n i plain) fun s i =>
    match s.place (msgAddr plain) with
    | .scratch q off =>
      if !s.linkAdmits n i then s.linkResponse n i 2 2 (msgTagOf plain) []
      else if !s.linkAddrOk i .read (msgAddr plain) (msgArg plain) then s.linkResponse n i 2 1 (msgTagOf plain) []
      else s.linkScratchRead n i q off plain
    | _ => s.linkAccess n i 2 .readReq .read plain (msgArg plain)

/-- ACCUMULATE (R280, R292). -/
def doAccumulate (n key : Nat) (plain : List Byte) (s : State) : State :=
  s.receive n 0 (fun m => msgKind m = 3 && !msgResp m) key plain noWait fun s i =>
    s.linkAccess n i 3 .accumulate .acc plain (msgPayload plain).length

/-- SEMAPHORE (R36, R280, R296, R320). -/
def doSemaphore (n key : Nat) (plain : List Byte) (s : State) : State :=
  s.receive n 0 (fun m => msgKind m = 4 && !msgResp m) key plain noWait fun s i =>
    if !s.linkAdmits n i then s.linkResponse n i 4 2 (msgTagOf plain) []
    else if bits (msgAddr plain) 59 16 ≠ 0 then s.linkResponse n i 4 1 (msgTagOf plain) []
    else
      match s.semPhys i (msgAddr plain % 65536) with
      | none => s.linkResponse n i 4 1 (msgTagOf plain) []
      | some k =>
        s.send { id := 0, kind := .semAdd, origin := .link n (msgTagOf plain), inst := i, srcUnit := linkUnit n,
                 dstUnit := semUnit (k / 4096), addr := BitVec.ofNat 64 k, n := msgArg plain }

/-! ### Responses (R282, R285) -/

/-- A mirror write was answered (R419): on the header's, the mirror is complete and the other copy is the older one. -/
def Train.mirrorAnswer (t : Train) (tag : Nat) (ok : Bool) : Train :=
  if !t.mirrorWrites.contains tag then t
  else if !ok then t.dropMirror
  else
    let left := t.mirrorWrites.erase tag
    if t.mirrorStep.isNone ∧ left.isEmpty then { t with mirrorWrites := [], mirrorCopy := 1 - t.mirrorCopy }
    else { t with mirrorWrites := left }

/-- What the response to a request does: an acknowledgement reaches its copy engine at once (R105). -/
def State.answer (s : State) (n : Nat) (r : LinkReq) (status : Nat) (data : List Byte) : State :=
  let s := s.updLink n fun l => { l with reqs := l.reqs.filter fun x => x.tag ≠ r.tag }
  match r.origin with
  | .ce p e d =>
    if status = 1 ∨ status = 2 then s.copyFault p e d 1 r.addr r.writes
    else if r.kind ≠ 2 then (s.crossed (90 + n) (p / 11) r.inst).ackWrites p e d r.n
    else
      s.send { id := 0, kind := .readData, origin := r.origin, inst := r.inst,
               srcUnit := linkUnit n, dstUnit := posUnit p (4 + e), addr := BitVec.ofNat 64 r.addr, n := data.length,
               seq := r.n, data := data,
               ue := if status = 3 then (if bits r.addr 63 60 = 2 then 8 else 7) else 0 }
  | _ =>
    let f (t : Train) : Train := if (t.mirror.map (·.1)) = some n then t.mirrorAnswer r.tag (decide (status = 0)) else t
    { s with train := Tab.mapAll {} (fun _ t => f t) s.train }

/-- The request that a RESPONSE of an instance answers. -/
def State.answered (s : State) (n i : Nat) (m : List Byte) : Option LinkReq :=
  (s.link n).reqs.find? fun r => r.tag = msgTagOf m && r.inst = i && r.kind = msgKind m

/-- Whether a stopped region lies on the way of a response to its copy engine (R34). -/
def State.answerHeld (s : State) (n : Nat) (r : LinkReq) : Bool :=
  match r.origin with
  | .ce p _ _ => s.wayHeld (90 + n) (p / 11)
  | _ => false

/-- RESPONSE (R280, R282): one that answers no outstanding request is discarded (R285); the answer to a READ that was performed carries
as many bytes as it asked for. -/
def doResponse (n key : Nat) (plain : List Byte) (s : State) : State :=
  s.receive n 1 (fun m => msgResp m) key plain
    (fun i => if (s.answered n i plain).any (s.answerHeld n) then some s else none)
    fun s i =>
      match s.answered n i plain with
      | none => s
      | some r =>
        let want := if r.kind = 2 ∧ (msgStatus plain = 0 ∨ msgStatus plain = 3) then r.len else 0
        if (msgPayload plain).length ≠ want then s.authFail n else (s.answer n r (msgStatus plain) (msgPayload plain)).linkPump n

/-- REQUEST_TIMEOUT (R285): 2 ms after it was sent. -/
def doRequestTimeout (n tag : Nat) (s : State) : State :=
  match (s.link n).reqs.find? fun r => r.tag = tag with
  | none => s
  | some r => if r.sentAt.any fun t => decide (t + 2000000 ≤ s.tb.count) then s.endRequest n r else s

/-! ### Bring-up (R288, R289, R386) -/

/-- MEDIA of a link's cage (R311, R451). -/
def State.media (s : State) (n : Nat) : Nat := ((Tab.get none s.mgt.cages n).getD (0, 0)).1

/-- LINK_TRAINING_COMPLETE (R278, R288, R453): the lanes of an identified cable are trained, its length and delay are known, the receive
buffers are granted, and the CAPABILITY message is handed over. DEDUCED (log 79). -/
def doLinkTrainingComplete (n lengthCm delayNs : Nat) (s : State) : State :=
  let l := s.link n
  let media := s.media n
  if 6 ≤ n ∨ l.state ≠ .training ∨ l.electrical ∨ s.working = false ∨ (media ≠ 1 ∧ media ≠ 2) then s
  else
    let len := if media = 1 then lengthCm else ((Tab.get none s.mgt.cages n).getD (0, 0)).2
    let s := s.updLink n fun l =>
      { l with
        electrical := true, length := len % 65536, delay := delayNs % 1024
        owed := (List.range 3).foldl (fun t vc => Tab.put 0 vc (Config.linkBuffers vc) t) [] }
    s.linkControl n 1 (s.capPayload n)

/-- The first message of the REQUEST VC when it is in clear and of a subtype (R288). DEDUCED (log 39). -/
def State.clearMsg (s : State) (n sub : Nat) : Option (List Byte × Nat) :=
  (s.nextMsg n 0).bind fun b =>
    let m := slice b 4 (leAt b 0 2)
    if clearForm b && msgArg m = sub then some (m, b.length) else none

/-- Take a message in clear of a subtype: one that breaks the tables of R279 and R280 is discarded and counted; else its payload has
its meaning. -/
def State.receiveClear (s : State) (n sub : Nat) (body : State → List Byte → State) : State :=
  match s.clearMsg n sub with
  | none => s
  | some (m, len) =>
    if !s.linkRuns n then s
    else
      let t := s.dropMsg n 0 len
      if msgOk 0 0xFF m && !msgResp m then body t (msgPayload m) else t.authFail n

/-- Cause of staying down that a partner's CAPABILITY gives (R289), 0 for none. -/
def State.capCause (s : State) (n : Nat) (c : List Byte) : Nat :=
  match s.linkRec? n with
  | none => 4
  | some r =>
    let f := leAt c 5 1
    if leAt c 0 2 ≠ 0xF880 ∨ leAt c 3 1 ≠ 1 then 4
    else if r.partner ≠ 0 ∧ r.partner ≠ leAt c 8 8 then 5
    else if bit f 0 ≠ r.downstream ∨ bit f 1 ≠ r.upstream then 6
    else 0

/-- CAPABILITY (R289, R290): on a link that is up it shows that the partner has reset. -/
def doCapability (n : Nat) (s : State) : State :=
  s.receiveClear n 1 fun s c =>
    if (s.link n).state = .up then s.linkDown n 8
    else if (s.link n).state ≠ .training then s
    else
      let cause := s.capCause n c
      if cause ≠ 0 then s.stayDown n cause
      else
        let f := leAt c 5 1
        (s.updLink n fun l =>
          { l with
            capOk := true
            spread := bit f 2 && (s.linkRec? n).any (·.spreadOk)
            partnerSerial := BitVec.ofNat 64 (leAt c 8 8)
            partnerCap := BitVec.ofNat 32 (leAt c 3 1 + bits (leAt c 4 1) 3 0 * 256 + (f % 8) * 4096 + leAt c 0 2 * 65536)
            partnerInsts := leAt c 16 8
            partnerPayload := c }).sendSession n 0 0xFF

/-- The sessions of a link that comes up (R286): the module's, and one for each instance both LINK records admit, with the keys of
the draw that made this side's ephemeral key and of the partner's. -/
def State.newSessions (s : State) (n draw : Nat) (peer : List Byte) : List Session :=
  let both := ((s.linkRec? n).map (·.insts)).getD 0 &&& (s.link n).partnerInsts
  (0xFF :: (List.range 64).filter (bit both)).map fun i =>
    let k := s.sessionKeys n draw peer i
    { inst := i, live := true, txKey := k.1, rxKey := k.2, tx := [], rx := [], renewing := false, oldKey := none, oldRx := [],
      oldVcs := [] }

/-- A session takes new keys; the receiver accepts the old one on a VC until the new one has verified there (R387). -/
def Session.renewed (x : Session) (k : List Byte × List Byte) : Session :=
  { x with
    live := true, txKey := k.1, rxKey := k.2, tx := [], rx := [], renewing := false
    oldKey := if x.live then some x.rxKey else none
    oldRx := if x.live then x.rx else []
    oldVcs := if x.live then [0, 1, 2] else [] }

/-- A RENEW (R386, R387): this side answers with its own when it has sent none; for a session that an instance reset
destroyed it fails without taking the link down. DEDUCED (log 39). -/
def State.renewArrived (s : State) (n i : Nat) (peer : List Byte) : State :=
  let hit (x : Session) : Bool := i = 0xFF || x.inst = i
  if !(s.link n).sessions.any hit then s
  else
    let s := if (Tab.get none (s.link n).ephs i).isSome then s else s.sendSession n 1 i
    match Tab.get none (s.link n).ephs i with
    | none => s
    | some d =>
      s.updLink n fun l =>
        { l with sessions := mapIf hit (fun x => x.renewed (s.sessionKeys n d peer x.inst)) l.sessions, ephs := Tab.put none i none l.ephs }

/-- Whether a SESSION payload verifies (R386): the certificate is issued under the device CA key in the trust ROM to the SERIAL of the
partner's CAPABILITY, and its key has signed both CAPABILITY payloads and the payload's head. -/
def State.sessionGood (s : State) (n : Nat) (c : List Byte) : Bool :=
  let l := s.link n
  let cert := leAt c 2 2
  decide (1 ≤ cert) && decide (cert ≤ 1024) && leAt c 4 4 = 0 && c.length = 0x68 + cert &&
  (Config.certificate (Config.gorciaDigest 1) (slice c 0x68 cert)).any fun k =>
    k.1 = l.partnerSerial.toNat &&
    Config.ed25519 k.2 (Config.sha512 (l.partnerPayload ++ s.capPayload n ++ c.take 0x28)) (slice c 0x28 64)

/-- SESSION (R386, R387). DEDUCED (log 39). -/
def doSession (n : Nat) (s : State) : State :=
  s.receiveClear n 2 fun s c =>
    let l := s.link n
    let phase := leAt c 0 1
    let i := leAt c 1 1
    let peer := slice c 8 32
    if l.state = .up then
      if phase ≠ 1 then s else if !s.sessionGood n c then s.linkDown n 7 else s.renewArrived n i peer
    else if l.state ≠ .training ∨ l.capOk = false then s
    else
      match Tab.get none l.ephs 0xFF with
      | none => s
      | some d =>
        if !s.sessionGood n c ∨ phase ≠ 0 ∨ i ≠ 0xFF then s.stayDown n 7
        else
          s.updLink n fun l =>
            { l with
              state := .up, sessions := s.newSessions n d peer, ephs := Tab.put none 0xFF none l.ephs, downSince := none
              lostPosted := false }

/-- SESSION_RENEW (R387): a VC counter of the session has reached 2^55. -/
def doSessionRenew (n i : Nat) (s : State) : State :=
  if (s.link n).state = .up ∧ s.working ∧
      ((s.link n).sessions.any fun x =>
        x.inst = i && x.live && !x.renewing && (List.range 3).any fun vc => decide (2 ^ 55 ≤ Tab.get 0 x.tx vc)) then
    s.renewSession n i
  else s

/-! ### Going down and up again (R289, R290, R311) -/

/-- LOSS_OF_SIGNAL (R290): of signal, or of FEC lock. -/
def doLossOfSignal (n : Nat) (fecLost : Bool) (s : State) : State :=
  if decide (n < 6) && (s.link n).electrical && s.working then s.linkDown n (if fecLost then 2 else 1) else s

/-- LINK_RETRY (R289): a link that stayed down trains again. DEDUCED (log 79). -/
def doLinkRetry (n : Nat) (s : State) : State :=
  if n < 6 ∧ (s.link n).state = .downRetrying ∧ s.media n ≠ 3 ∧ s.working then s.updLink n fun l => { l with state := .training } else s

/-- Whether the LINK record enables a link. -/
def State.linkEnabled (s : State) (n : Nat) : Bool := (s.linkRec? n).any (·.enabled)

/-- The DISABLE bit of TLn_CTRL takes its written value (R311). DEDUCED (log 40). -/
def State.setDisable (s : State) (n : Nat) (v : Bool) : State :=
  let l := s.link n
  if v then
    let s := s.updLink n fun l => { l with disable := true }
    if l.state = .disabled then s
    else if l.electrical then s.linkDown n l.cause
    else s.updLink n fun l => { l with state := .disabled }
  else
    s.updLink n fun l =>
      { l with disable := false, state := if l.state = .disabled ∧ s.linkEnabled n then .training else l.state }

/-- RETRAIN (R290, R311): a write of TLn_CTRL with RETRAIN set. -/
def doRetrain (n : Nat) (v : BitVec 32) (s : State) : State :=
  if 6 ≤ n ∨ bit v.toNat 0 = false ∨ s.regOk = false then s
  else
    let s := s.setDisable n (bit v.toNat 1)
    if (s.link n).state = .disabled then s else s.linkDown n 9

/-- DISABLE (R311): a write of TLn_CTRL with RETRAIN clear. -/
def doDisable (n : Nat) (v : BitVec 32) (s : State) : State :=
  if 6 ≤ n ∨ bit v.toNat 0 ∨ s.regOk = false then s else s.setDisable n (bit v.toNat 1)

/-- PARTNER_LOST (R420): a link has stayed down for 1 s. -/
def doPartnerLost (n : Nat) (s : State) : State :=
  let l := s.link n
  match l.downSince with
  | none => s
  | some t =>
    if 6 ≤ n ∨ l.lostPosted ∨ l.state = .up ∨ l.state = .disabled ∨ s.tb.count < t + 1000000000 ∨ s.working = false then s
    else
      let s := s.updLink n fun l => { l with lostPosted := true }
      let body := leBytes 8 n ++ leBytes 8 l.partnerSerial.toNat
      let s := ((List.range 64).filter fun i => (s.linkRec? n).any fun r => bit r.insts i).foldl
        (fun s i => s.post i 8 0 0 body) s
      (s.jobs.filter fun j => j.spans && (j.parent = n || j.childLinks.contains n)).foldl
        (fun s j => s.endJob j.inst j.seq stTaskFault) s

/-! ### Barriers across modules (R300) -/

/-- The job of this module that a barrier message names. -/
def State.spanJob (s : State) (pl : List Byte) (side : Job → Bool) : Option Job :=
  s.jobs.find? fun j => j.spans && j.span = leAt pl 0 4 && side j

/-- ARRIVE (R300): one for the barrier after this waits in the receive buffers until this barrier is complete. -/
def doArrive (n key : Nat) (plain : List Byte) (s : State) : State :=
  let pl := msgPayload plain
  let mine (j : Job) : Bool := j.childLinks.contains n
  s.receive n 0 (fun m => msgKind m = 6 && !msgResp m && msgArg m = 3) key plain
    (fun _ => if (s.spanJob pl mine).any fun j => decide (j.barrier + 1 < leAt pl 4 4) then some s else none)
    fun s _ =>
      match s.spanJob pl mine with
      | none => s
      | some j =>
        if leAt pl 4 4 ≠ j.barrier + 1 ∨ j.children.contains n then s
        else
          (s.updJob j.inst j.seq fun j =>
            { j with children := j.children ++ [n], childFlag := j.childFlag || bit (leAt pl 8 1) 0 }).spanArrive j.inst j.seq

/-- COMPLETE (R300): it is passed down the tree, and the barrier may complete here. -/
def doComplete (n key : Nat) (plain : List Byte) (s : State) : State :=
  let pl := msgPayload plain
  s.receive n 0 (fun m => msgKind m = 6 && !msgResp m && msgArg m = 4) key plain noWait fun s _ =>
    match s.spanJob pl fun j => j.parent = n with
    | none => s
    | some j =>
      if leAt pl 4 4 ≠ j.barrier + 1 then s
      else
        let flag := bit (leAt pl 8 1) 0
        let s := s.updJob j.inst j.seq fun j => { j with complete := some flag }
        j.childLinks.foldl (fun s c => if s.linkReady c 0xFF then s.linkControl c 4 (barrierPayload j flag) else s) s

/-- DATA_FLIT (R277). -/
def execDataFlit (link fec : Nat) (flit : List Byte) (s : State) : Out := .next (doDataFlit link fec flit s)
/-- IDLE_FLIT (R276). -/
def execIdleFlit (link fec : Nat) (flit : List Byte) (s : State) : Out := .next (doIdleFlit link fec flit s)
/-- REPLAY_FLIT (R277). -/
def execReplayFlit (link fec : Nat) (flit : List Byte) (s : State) : Out := .next (doReplayFlit link fec flit s)
/-- WRITE (R280). -/
def execWrite (link key : Nat) (plain : List Byte) (s : State) : Out := .next (doWrite link key plain s)
/-- READ (R280). -/
def execRead (link key : Nat) (plain : List Byte) (s : State) : Out := .next (doRead link key plain s)
/-- ACCUMULATE (R292). -/
def execAccumulate (link key : Nat) (plain : List Byte) (s : State) : Out := .next (doAccumulate link key plain s)
/-- SEMAPHORE (R296). -/
def execSemaphore (link key : Nat) (plain : List Byte) (s : State) : Out := .next (doSemaphore link key plain s)
/-- CAPABILITY (R289). -/
def execCapability (link : Nat) (s : State) : Out := .next (doCapability link s)
/-- SESSION (R386). -/
def execSession (link : Nat) (s : State) : Out := .next (doSession link s)
/-- ARRIVE (R300). -/
def execArrive (link key : Nat) (plain : List Byte) (s : State) : Out := .next (doArrive link key plain s)
/-- COMPLETE (R300). -/
def execComplete (link key : Nat) (plain : List Byte) (s : State) : Out := .next (doComplete link key plain s)
/-- RESPONSE (R282). -/
def execResponse (link key : Nat) (plain : List Byte) (s : State) : Out := .next (doResponse link key plain s)
/-- REQUEST_TIMEOUT (R285). -/
def execRequestTimeout (link tag : Nat) (s : State) : Out := .next (doRequestTimeout link tag s)
/-- SESSION_RENEW (R387). -/
def execSessionRenew (link inst : Nat) (s : State) : Out := .next (doSessionRenew link inst s)
/-- LINK_TRAINING_COMPLETE (R288). -/
def execLinkTrainingComplete (link lengthCm delayNs : Nat) (s : State) : Out :=
  .next (doLinkTrainingComplete link lengthCm delayNs s)
/-- LOSS_OF_SIGNAL (R290). -/
def execLossOfSignal (link : Nat) (fecLost : Bool) (s : State) : Out := .next (doLossOfSignal link fecLost s)
/-- LINK_RETRY (R289). -/
def execLinkRetry (link : Nat) (s : State) : Out := .next (doLinkRetry link s)
/-- RETRAIN (R311). -/
def execRetrain (link : Nat) (v : BitVec 32) (s : State) : Out := .next (doRetrain link v s)
/-- DISABLE (R311). -/
def execDisable (link : Nat) (v : BitVec 32) (s : State) : Out := .next (doDisable link v s)
/-- PARTNER_LOST (R420). -/
def execPartnerLost (link : Nat) (s : State) : Out := .next (doPartnerLost link s)

end Sys2Proof.Machine
end

