-- ==== Sys2Proof/Machine/Attest.lean ====
section
/-! DEFINITION. Attestation reports (R391 to R394) and the three requests that ask for one. -/

namespace Sys2Proof.Machine

/-- Base-slot state codes (R201). -/
def SlotState.code : SlotState → Nat
  | .empty => 0 | .staging => 1 | .ready => 2 | .active => 3 | .retiring => 4

/-- The digest shown of a slot: zero while it is EMPTY or STAGING (R203). -/
def Slot.shown (x : Slot) : BitVec 512 := if x.state = .empty ∨ x.state = .staging then 0 else x.digest

/-- ZENAL_DIGEST: the full image in effect, zero if none (R61, R391). -/
def State.zenalDigest (s : State) : BitVec 512 := if s.nvs.full.isEmpty then 0 else imageDigest s.nvs.full

/-- PARTIAL_CHAIN (R392). -/
def State.partialChain (s : State) : BitVec 512 :=
  s.nvs.partials.foldl (fun d b => Config.sha512 (digestBytes d ++ digestBytes (imageDigest b))) s.zenalDigest

/-- Entries of an instance that are not FREE, in ascending index. -/
def State.instEntries (s : State) (i : Nat) : List Nat :=
  (s.cat.filter fun e => e.2.inst = i && e.2.state ≠ .free).map (·.1)

/-- BINDING (R393). -/
def State.binding (s : State) (i : Nat) : BitVec 512 :=
  Config.sha512 ((s.instEntries i).flatMap fun x =>
    let e := s.entry x
    leBytes 4 (s.handle x) ++ leBytes 1 e.state.code ++ leBytes 3 0 ++ digestBytes e.lineage ++ digestBytes e.digest)

/-- An instance record (R393). -/
def State.instanceRecord (s : State) (i : Nat) (own : Bool) : List Byte :=
  let x := s.inst i
  let conf := s.confid i
  let hide := conf && !own
  let flags := b2n conf + 2 * b2n (!conf) + 4 * (x.tdi % 4) + 16 * (s.instPort i % 2)
  leBytes 1 i ++ leBytes 1 flags ++ leBytes 2 0 ++ leBytes 4 (s.instPasid i) ++
  padTo 32 (s.transportKey i) ++ leBytes 4 x.keyGen ++
  leBytes 4 (if hide then 0 else (s.instEntries i).length) ++
  (if hide then leBytes 64 0 else digestBytes (s.binding i)) ++ leBytes 16 0

/-- FUSES (R391): the shipped part has JTAG fused off and is a production part (DESIGN CHOICE, log 3). -/
def State.fuses (s : State) : Nat :=
  3 + Tab.get 0 s.sec.floors 0 % 256 * 2 ^ 8 + Tab.get 0 s.sec.floors 1 % 256 * 2 ^ 16 + Tab.get 0 s.sec.floors 2 % 256 * 2 ^ 24

/-- The signed span of a report (R391, R394). -/
def State.reportSpan (s : State) (is : List Nat) (fromInst : Bool) (nonce : List Byte) : List Byte :=
  let len := 0x380 + 128 * is.length + 64
  let slot (k : Nat) : Slot := s.slot k
  leBytes 4 0x54415446 ++ leBytes 2 1 ++ leBytes 1 is.length ++
  leBytes 1 (b2n s.sec.debugOpen + 2 * b2n (s.nvs.boot = 2) + 4 * b2n fromInst) ++
  leBytes 4 len ++ leBytes 1 s.sec.unlocks ++ leBytes 3 0 ++ leBytes 8 s.nvs.serial.toNat ++ leBytes 8 s.tb.count ++
  padTo 32 nonce ++ padTo 32 Config.identityPublic ++ leBytes 8 s.fuses ++ leBytes 8 0 ++
  digestBytes Config.romDigest ++ ((List.range 3).flatMap fun k => digestBytes (Tab.get 0 s.sec.fwDigest k)) ++
  digestBytes s.zenalDigest ++ digestBytes s.partialChain ++ leBytes 1 s.nvs.partials.length ++ leBytes 15 0 ++
  ((List.range 4).flatMap fun k => leBytes 1 ((slot k).state.code + 128 * b2n (s.isFork k))) ++ leBytes 12 0 ++
  ((List.range 80).flatMap fun f => leBytes 1 ((s.fieldInst f).getD 0xFF)) ++ padTo 32 (s.key.getD []) ++
  ((List.range 4).flatMap fun k => digestBytes (slot k).shown) ++ is.flatMap fun i => s.instanceRecord i fromInst

/-- A report: the span and its signature under the identity key (R394). -/
def State.report (s : State) (is : List Nat) (fromInst : Bool) (nonce : List Byte) : List Byte :=
  let span := s.reportSpan is fromInst nonce
  span ++ padTo 64 (Config.identitySign (Config.sha512 span))

/-- The instances that exist, in ascending order. -/
def State.allInsts (s : State) : List Nat := (List.range 64).filter fun i => (s.instRec? i).isSome

/-! ### SEC commands (R391, R403) -/

/-- Results of SEC_RESULT (R403). -/
def secOk : Nat := 0
def secBadSignature : Nat := 1
def secBadFormat : Nat := 2
def secWrongSerial : Nat := 3
def secStale : Nat := 4
def secExhausted : Nat := 5
def secRollback : Nat := 6
def secHostRead : Nat := 7
def secHostWrite : Nat := 8

/-- Whether a SEC command runs: BUSY (R403). -/
def Sec.busy (x : Sec) : Bool := x.running.isSome || x.unlocking.isSome

/-- An operation ends with a result. -/
def State.secEnd (s : State) (r : Nat) : State := { s with sec := { s.sec with running := none, done := true, result := r } }

/-- A SEC command: ignored while one runs, which sets REFUSED (R403). DEDUCED (log 68). -/
def State.secCmd (s : State) (op : Nat) (v : BitVec 32) (body : State → State) : State :=
  if fld v 3 0 ≠ op ∨ s.bar0 = false ∨ s.working = false then s
  else if s.sec.busy then { s with sec := { s.sec with refused := true } }
  else body s

/-- A SEC command that first reads `n` bytes at SEC_IN_ADDR, on the port of the write that started it (R360, R403); another length
than its own ends it with BAD_FORMAT. DEDUCED (log 68). -/
def State.secRead (s : State) (port op n : Nat) (v : BitVec 32) : State :=
  s.secCmd op v fun s =>
    if s.sec.inLen.toNat ≠ n then s.secEnd secBadFormat
    else ({ s with sec := { s.sec with running := some (op, port) } }).fetch port none (.sec op) s.sec.inAddr.toNat n

/-- ATTEST (R391): the nonce is asked for. -/
def doAttest (port : Nat) (v : BitVec 32) (s : State) : State := s.secRead port 1 32 v

/-- The nonce of an ATTEST has come: the report is written and flushed (R391). DEDUCED (log 68). -/
def State.attestArrived (s : State) (port : Nat) (nonce : List Byte) : State :=
  let r := s.report (s.allInsts.filter fun i => bit s.sec.insts.toNat i) false nonce
  let a := s.sec.outAddr.toNat
  (s.hostWrite port none a r false).hostAsk port none a 0 (.report r.length)

/-- The flush behind the report of an ATTEST has come back: LENGTH shows the bytes written (R403). DEDUCED (log 68). -/
def State.attestFlushed (s : State) (ok : Bool) (len : Nat) : State :=
  if ok then { s.secEnd secOk with sec := { (s.secEnd secOk).sec with length := len } } else s.secEnd secHostWrite

/-- GET_MEASUREMENTS (R388, R391, R394): at a host port's DOE mailbox or, at endpoint 2, on the MCTP sideband; every existing instance is
included, and the response's signature covers the report. PRESUMED (log 66). -/
def doGetMeasurements (endpoint : Nat) (nonce : List Byte) (s : State) : State :=
  if 3 ≤ endpoint ∨ s.bar0 = false ∨ s.working = false then s
  else
    let r := s.report s.allInsts false nonce
    let m : Measurement := { endpoint := endpoint, index := 0x80, report := r, sig := Config.identitySign (Config.sha512 (padTo 32 nonce ++ r)) }
    { s with sec := { s.sec with measurements := s.sec.measurements ++ [m] } }

/-- MAILBOX_ATTEST (R391): the report goes to the instance's host and is flushed; the reply follows the flush. -/
def doMailboxAttest (port i : Nat) (ide : Bool) (msg : List Byte) (s : State) : State :=
  s.message port i ide 0x30 msg fun s =>
    let r := s.report [i] true (slice msg 0x10 32)
    let a := leAt msg 8 8
    (s.hostWrite port (some i) a r false).hostAsk port (some i) a 0 (.attest i (msgTag msg) r.length)

/-- ATTEST (R391). -/
def execAttest (port : Nat) (v : BitVec 32) (s : State) : Out := .next (doAttest port v s)
/-- GET_MEASUREMENTS (R391). -/
def execGetMeasurements (endpoint : Nat) (nonce : List Byte) (s : State) : Out := .next (doGetMeasurements endpoint nonce s)
/-- MAILBOX_ATTEST (R391). -/
def execMailboxAttest (port inst : Nat) (ide : Bool) (msg : List Byte) (s : State) : Out :=
  .next (doMailboxAttest port inst ide msg s)

end Sys2Proof.Machine
end

