-- ==== Sys2Proof/Machine/Mailbox.lean ====
section
/-! DEFINITION. The remaining mailbox operations: STAGE_IN (R372), mirrors of training state (R418 to R420), unknown
codes (R371) and the ring's CONSUMED (R373). -/

namespace Sys2Proof.Machine

/-! ### STAGE_IN (R372) -/

def stHostFault : Nat := 0x77
def stUnknownOp : Nat := 0x78
def stStageRange : Nat := 0x79

/-- Whether a STAGE_IN may write its destination: pan or granary of the instance (R36, R202, R219, R372). -/
def State.stageInOk (s : State) (i a n : Nat) : Bool :=
  decide (64 ≤ n) && decide (n ≤ 0x100000) && n % 64 = 0 &&
  (match s.place a with
   | .pan p off => decide (off + n ≤ columnBytes) && s.carvesAll (s.ctlAllows i [] .write) p 225 off n && s.mapped p off n
   | .gran off => decide (off + n ≤ s.granSize i)
   | _ => false)

/-- STAGE_IN: the host read begins. -/
def doStageIn (port i : Nat) (ide : Bool) (msg : List Byte) (s : State) : State :=
  s.message port i ide 0x20 msg fun s =>
    let n := leAt msg 0x10 4
    let a := leAt msg 0x18 8
    if !s.stageInOk i a n then s.reply i stStageRange (msgTag msg) []
    else
      (s.updInst i fun x => { x with
        stageIn := x.stageIn ++ [{ id := s.nextFetch, tag := msgTag msg, dst := BitVec.ofNat 64 a, len := n, got := none }] }).fetch
        port (some i) (.stage i) (leAt msg 8 8) n

/-- STAGE_IN_COMPLETE (R372): the oldest whose data has come is written, every write acknowledged, or its read failed.
DEDUCED (log 65). -/
def doStageInComplete (i : Nat) (s : State) : State :=
  match (s.inst i).stageIn.find? fun q => q.got.isSome with
  | none => s
  | some q =>
    if !s.working then s
    else
      let got := q.got.getD (false, [])
      let s := s.updInst i fun x => { x with stageIn := x.stageIn.erase q }
      if got.1 then (s.memWrite i q.dst.toNat (padTo q.len got.2)).reply i 0 q.tag [] else s.reply i stHostRead q.tag []

/-! ### Mirrors (R418 to R420) -/

/-- MIRROR_SET (R418); an ended or withdrawn record takes none (R260, R271). DEDUCED (log 64). -/
def doMirrorSet (port i : Nat) (ide : Bool) (msg : List Byte) (s : State) : State :=
  s.message port i ide 0x31 msg fun s =>
    match s.msgTrain i msg with
    | none => s.reply i stTrainUnknown (msgTag msg) []
    | some x =>
      let n := leAt msg 0xA 1
      let st := s.tr x 4 1
      if st = 4 then s.reply i stNonfinite (msgTag msg) []
      else if st = 3 then s.reply i stStale (msgTag msg) []
      else if !((s.linkRec? n).any fun r => bit r.insts i) then s.reply i stTrainInvalid (msgTag msg) []
      else
        (s.updTrain x fun t =>
          { t.dropMirror with mirror := some (n, leAt msg 0x10 8), mirrorCopy := 0 }).reply i 0 (msgTag msg) []

/-- The arrays of a tensor that a mirror holds, with their lengths: all but the gradient buffers and STAMPS (R419).
DEDUCED (log 64). -/
def mirrorArrays (r e : List Byte) : List (Nat × Nat) :=
  let n := tRows e
  [(tMaster e, n * tMasterRow (recLong r) e), (tM1 e, n * tMomentRow e), (tM2 e, n * tMomentRow e), (tWork e, n * tWorkRow e)] ++
  (if recSlow r then [(tWorkGrn e, n * tWorkRow e)] else [])

/-- A mirror without its header: record, table and arrays (R419). -/
def State.mirrorBody (s : State) (x : Nat) : List Byte :=
  let r := s.recBytes x
  let i := (s.train1 x).inst
  r ++ s.panReadG (leAt r 0x48 8) (96 * recTensors r) ++
  (s.recTable x).flatMap fun e => (mirrorArrays r e).flatMap fun a => s.memRead i a.1 a.2

/-- The mirror header: the step, then the first 56 bytes of the digest of the rest (DESIGN CHOICE, log 25). -/
def mirrorHeader (step : Nat) (digest : BitVec 512) : List Byte := leBytes 8 step ++ (digestBytes digest).take 56

/-- Send bytes to a partner's granary as WRITEs, none across 4 KiB (R281); the tags of the requests. -/
def State.mirrorSend (s : State) (n i off : Nat) (bs : List Byte) : State × List Nat :=
  let ws := cutWrites 4096 false (bs.length / 4096 + 2) (BitVec.ofNat 64 (granGlobal off)) bs
  ws.foldl
    (fun r w =>
      let tag := (r.1.link n).nextTag
      (r.1.linkRequest n i 1 w.dst.toNat 0 w.data .none 0, r.2 ++ [tag]))
    (s, [])

/-- MIRROR_TAKE (R264, R419): after the step whose mirror is due, the state is read and sent; on the slow tier once the
record's queued updates are done and no refresh runs. Without the link the mirror is given up. -/
def doMirrorTake (x : Nat) (s : State) : State :=
  let t := s.train1 x
  match t.mirror with
  | none => s
  | some m =>
    if !t.isOpen || !t.mirrorDue || t.refreshTo.isSome || (recSlow (s.recBytes x) && s.updPending x ≠ 0) || !s.working then s
    else if !s.linkReady m.1 t.inst then s.updTrain x fun t => { t.dropMirror with mirrorDue := false }
    else
      let body := s.mirrorBody x
      let r := s.mirrorSend m.1 t.inst (m.2 + t.mirrorCopy * s.mirrorBytes x + 64) body
      r.1.updTrain x fun t =>
        { t with mirrorDue := false, mirrorStep := some (s.tr x 8 8), mirrorWrites := r.2, mirrorDigest := Config.sha512 body }

/-- MIRROR_HEADER_WRITE (R419): once every write of the mirror is acknowledged. -/
def doMirrorHeaderWrite (x : Nat) (s : State) : State :=
  let t := s.train1 x
  match t.mirror, t.mirrorStep, t.mirrorWrites with
  | some m, some step, [] =>
    if !s.working then s
    else if !s.linkReady m.1 t.inst then s.updTrain x Train.dropMirror
    else
      let r := s.mirrorSend m.1 t.inst (m.2 + t.mirrorCopy * s.mirrorBytes x) (mirrorHeader step t.mirrorDigest)
      r.1.updTrain x fun t => { t with mirrorStep := none, mirrorWrites := r.2 }
  | _, _, _ => s

/-- Place of a range in the absolute memories: granary or not, first byte, length. -/
def State.extent (s : State) (i a n : Nat) : Bool × Nat × Nat :=
  match s.place a with
  | .pan p off => (false, p * columnBytes + off, n)
  | .gran off => (true, s.granBase i + off, n)
  | _ => (false, 0, 0)

/-- Every range of a training record: the record, its table and every array (R245, R420). -/
def State.recordExtents (s : State) (i addr : Nat) (r : List Byte) (table : List (List Byte)) : List (Bool × Nat × Nat) :=
  (addr, 256) :: (leAt r 0x48 8, 96 * recTensors r) ::
  (table.flatMap fun e =>
    mirrorArrays r e ++ (if tStamps e = 0 then [] else [(tStamps e, tRows e * 8)]) ++
    (if recSlow r then (List.range (recLag r)).map fun j =>
      (granGlobal (leAt r 0x50 8 + j * leAt r 0x58 8 + tGrad e), tRows e * tGradRow e) else [])) |>.map fun a => s.extent i a.1 a.2

def overlaps (a b : Bool × Nat × Nat) : Bool :=
  a.1 = b.1 && decide (a.2.1 < b.2.1 + b.2.2) && decide (b.2.1 < a.2.1 + a.2.2)

/-- The ranges of every open training record of the module. -/
def State.openExtents (s : State) : List (Bool × Nat × Nat) :=
  (s.train.filter fun e => e.2.isOpen).flatMap fun e =>
    s.recordExtents e.2.inst e.2.addr.toNat (s.recBytes e.1) (s.recTable e.1)

/-- A mirror in an instance's granary: its step and body, when its digest verifies. DESIGN CHOICE (log 25). -/
def State.mirrorAt (s : State) (i off : Nat) : Option (Nat × List Byte) :=
  let h := s.granRead i off 64
  let r := s.granRead i (off + 64) 256
  let n := recTensors r
  let table := tableEntries n (s.granRead i (off + 64 + 256) (96 * n))
  let len := 256 + 96 * n + ((table.flatMap (mirrorArrays r)).map (·.2)).sum
  if 4096 < n ∨ s.granSize i < off + 64 + len then none
  else
    let body := s.granRead i (off + 64) len
    if h = mirrorHeader (leAt h 0 8) (Config.sha512 body) then some (leAt h 0 8, body) else none

/-- Length of the mirror whose record lies at an offset (R418). -/
def State.mirrorLen (s : State) (i off : Nat) : Nat :=
  let r := s.granRead i (off + 64) 256
  let n := recTensors r
  let table := tableEntries n (s.granRead i (off + 64 + 256) (96 * n))
  up16K (256 + 96 * n + ((table.flatMap (mirrorArrays r)).map (·.2)).sum)

/-- The newer mirror of an area that verifies (R420). -/
def State.newerMirror (s : State) (i off : Nat) : Option (Nat × List Byte) :=
  match s.mirrorAt i off, s.mirrorAt i (off + s.mirrorLen i off) with
  | some a, some b => if a.1 < b.1 then some b else some a
  | some a, none => some a
  | none, b => b

/-- Copy the arrays of a mirror back to their addresses. -/
def State.restoreArrays (s : State) (i : Nat) (body : List Byte) : State :=
  let n := recTensors body
  let table := tableEntries n (body.drop 256)
  ((table.flatMap (mirrorArrays body)).foldl
    (fun (acc : State × Nat) a => (acc.1.memWrite i a.1 (slice body acc.2 a.2), acc.2 + a.2))
    (s, 256 + 96 * n)).1

/-- MIRROR_RESTORE (R420). The record is open again, and a slow-tier record's gradient buffers are zero, as its next
update phase needs them (R261, log 26). DEDUCED (log 64). -/
def doMirrorRestore (port i : Nat) (ide : Bool) (msg : List Byte) (s : State) : State :=
  s.message port i ide 0x32 msg fun s =>
    let tag := msgTag msg
    let addr := leAt msg 0x10 8
    match s.newerMirror i (leAt msg 8 8) with
    | none => s.reply i stTrainInvalid tag []
    | some (_, body) =>
      let r := body.take 256
      let n := recTensors r
      let tableBytes := slice body 256 (96 * n)
      if !s.recordOk i addr r tableBytes || (match s.variantHandle i (leAt r 0 4) with | .ok _ => false | .error _ => true) then
        s.reply i stTrainInvalid tag []
      else if (s.recordExtents i addr r (tableEntries n tableBytes)).any fun a => s.openExtents.any (overlaps a) then
        s.reply i stMirrorConflict tag []
      else
        match s.freeTrain (recSlow r) with
        | none => s.reply i stTrainFull tag []
        | some x =>
          let s := s.updTrain x fun _ =>
            { inst := i, isOpen := true, addr := BitVec.ofNat 64 addr, slot := (s.entry (bits (leAt r 0 4) 15 0)).slot }
          let s := s.memWrite i addr (slice r 0 4 ++ leBytes 1 1 ++ slice r 5 251)
          let s := (s.memWrite i (leAt r 0x48 8) tableBytes).restoreArrays i body
          let s := (List.range (recLag r)).foldl (fun s j => s.zeroBuffer x j) s
          s.reply i 0 tag (leBytes 4 x ++ leBytes 4 0 ++ leBytes 8 (leAt r 8 8))

/-! ### Unknown codes and CONSUMED -/

/-- Codes of R372, R391, R418 and R420. -/
def knownCodes : List Nat := [1, 2, 3, 4, 5, 0x10, 0x11, 0x12, 0x13, 0x14, 0x20, 0x30, 0x31, 0x32]

/-- UNKNOWN_OPERATION (R371). -/
def doUnknownOperation (port i : Nat) (ide : Bool) (msg : List Byte) (s : State) : State :=
  let code := leAt msg 0 1
  if knownCodes.contains code then s
  else s.message port i ide code msg fun s => s.reply i stUnknownOp (msgTag msg) []

/-- Move messages from the internal queue into the ring while it has room; each fires the vector (R362, R373). -/
def State.drainMail (s : State) (i : Nat) : Nat → State
  | 0 => s
  | fuel + 1 =>
    let x := s.inst i
    match x.queue with
    | [] => s
    | e :: es =>
      if x.ringFull then s
      else (((s.updInst i fun x => { x with queue := es }).updInst i fun x => x.ringPut e).fire (s.instPort i) i).drainMail i fuel

/-- CONSUMED_WRITE (R373, R376): one that arrives during a reset is discarded. -/
def doConsumedWrite (port i : Nat) (ide : Bool) (v : BitVec 32) (s : State) : State :=
  s.pageWrite port i ide fun s =>
    if (s.inst i).state ≠ .active ∧ (s.inst i).state ≠ .adopting then s
    else (s.updInst i fun x => { x with consumed := v.toNat }).drainMail i 32

/-- STAGE_IN (R372). -/
def execStageIn (port inst : Nat) (ide : Bool) (msg : List Byte) (s : State) : Out :=
  .next (doStageIn port inst ide msg s)
/-- STAGE_IN_COMPLETE (R372). -/
def execStageInComplete (inst : Nat) (s : State) : Out := .next (doStageInComplete inst s)
/-- MIRROR_SET (R418). -/
def execMirrorSet (port inst : Nat) (ide : Bool) (msg : List Byte) (s : State) : Out :=
  .next (doMirrorSet port inst ide msg s)
/-- MIRROR_RESTORE (R420). -/
def execMirrorRestore (port inst : Nat) (ide : Bool) (msg : List Byte) (s : State) : Out :=
  .next (doMirrorRestore port inst ide msg s)
/-- MIRROR_TAKE (R419). -/
def execMirrorTake (index : Nat) (s : State) : Out := .next (doMirrorTake index s)
/-- MIRROR_HEADER_WRITE (R419). -/
def execMirrorHeaderWrite (index : Nat) (s : State) : Out := .next (doMirrorHeaderWrite index s)
/-- UNKNOWN_OPERATION (R371). -/
def execUnknownOperation (port inst : Nat) (ide : Bool) (msg : List Byte) (s : State) : Out :=
  .next (doUnknownOperation port inst ide msg s)
/-- CONSUMED_WRITE (R373). -/
def execConsumedWrite (port inst : Nat) (ide : Bool) (v : BitVec 32) (s : State) : Out :=
  .next (doConsumedWrite port inst ide v s)

end Sys2Proof.Machine
end

