-- ==== Sys2Proof/Machine/Reset.lean ====
section
/-! DEFINITION. Instance reset (R374 to R376), the host ports' own events (R357 to R363, R388) and reads of
an instance page. -/

namespace Sys2Proof.Machine

/-! ### Starting a reset (R374, R375) -/

/-- Whether a re-layout under way touches an instance. -/
def State.inRelayout (s : State) (i : Nat) : Bool :=
  s.nvs.relayout.any fun r => r.full || (touched s.zen r.cfg r.scope).contains i

/-- Every incomplete job of an instance ends with SQUASHED, and every undecided commit is refused (R375). -/
def State.squashJobs (s : State) (i : Nat) : State :=
  (s.jobs.filter fun j => j.inst = i).foldl
    (fun s j => if j.phase = .undecided then s.refuseJob j stResetting 0 else s.endJob i j.seq stSquashed) s

/-- Squash mode (R375). -/
def State.squashInst (s : State) (i : Nat) : State :=
  (s.updInst i fun x => { x with state := .squashing, adopt := none }).squashJobs i

/-- A write of HPn_INST_RESET in a mode (R374): `ok` says in which states it is taken. -/
def State.instReset (s : State) (port mode : Nat) (v : BitVec 32) (ok : InstState → Bool) (body : State → Nat → State) : State :=
  let i := fld v 5 0
  if fld v 7 6 ≠ mode ∨ 2 ≤ port ∨ s.bar0All = false ∨ s.working = false then s
  else
    let s := if bit v.toNat 8 then s.updPort port fun p => { p with refused := false } else s
    if !s.pageOn port i || s.inRelayout i || !ok (s.inst i).state then s.updPort port fun p => { p with refused := true }
    else body s i

/-- DRAIN (R233, R375): jobs end at their next token boundary or plan barrier, up to the drain limit of R47; page-ins in progress
are abandoned. -/
def doDrain (port : Nat) (v : BitVec 32) (s : State) : State :=
  s.instReset port 1 v (fun st => st = .active) fun s i =>
    let lim := ((s.instRec? i).map (·.drainMs)).getD 0
    let s := s.updInst i fun x => { x with state := .draining, drainAt := s.tb.count + lim * 1000000 }
    let s : State :=
      { s with jobs := mapIf (fun j => j.inst = i && j.phase ≠ .undecided) (fun j => { j with withdrawAll := true }) s.jobs }
    (s.instEntries i).foldl State.drainEntry s

/-- SQUASH (R374, R375): a drain turns into a squash at once. -/
def doSquash (port : Nat) (v : BitVec 32) (s : State) : State :=
  s.instReset port 2 v (fun st => st = .active || st = .draining) fun s i => s.squashInst i

/-- DRAIN_LIMIT_EXPIRY (R75, R375). DEDUCED (log 80). -/
def doDrainLimitExpiry (i : Nat) (s : State) : State :=
  let x := s.inst i
  if s.tb.count < x.drainAt ∨ s.working = false then s
  else if x.state = .draining then s.squashInst i
  else if x.state = .adopting then s.squashJobs i
  else s

/-! ### RETIRED and ACTIVE again (R376) -/

/-- Whether every job of an instance has its record, and every copy descriptor, link request, granary write and port transaction of it
has retired. -/
def State.instQuiet (s : State) (i : Nat) : Bool := (s.jobs.all fun j => j.inst ≠ i) && !s.transfers i

/-- What becomes of an instance once everything has retired (R376): its keys are gone, its slots and mailboxes empty. Its number's
keys and notices are counted since cold start (R355, R393). -/
def Inst.retire (x : Inst) : Inst :=
  { ({} : Inst) with state := .retired, keyGen := x.keyGen, breaches := x.breaches, overruns := x.overruns }

/-- INSTANCE_RETIRED (R376). What can still leave the instance's engines leaves them first. -/
def doInstanceRetired (i : Nat) (s : State) : State :=
  let x := s.inst i
  if (x.state ≠ .draining ∧ x.state ≠ .squashing) ∨ s.working = false then s
  else if s.instQuiet i = false then s.runAll
  else
    let s := s.event (portUnit (s.instPort i)) 0x70 i (s.confid i)
    let s := (s.updInst i Inst.retire).endSessions i
    let s := s.semClear fun k => s.zen.sems.any fun r =>
      r.inst = i && r.field = k / 4096 && r.pbase ≤ k % 4096 && k % 4096 < r.pbase + r.count
    { s with
      cat := s.cat.map fun e => if e.2.inst = i ∧ e.2.state ≠ .free then (e.1, e.2.release) else e
      train := s.train.filter fun e => e.2.inst ≠ i
      upd := { s.upd with queue := s.upd.queue.filter fun u => (s.train1 u.index).inst ≠ i } }

/-- Zero the pan and granary regions of an instance; its fork slots are EMPTY again (R205, R376). -/
def State.zeroInst (s : State) (i : Nat) : State :=
  let s1 := s.zeroCarves fun c => (decide (1 ≤ c.kind) && decide (c.kind ≤ 3) && c.owner = i) || s.forkCarve i c
  let s2 := s1.granZeroAbs (s.granBase i) (s.granSize i)
  ((s.zen.slots.filter fun r => r.fork && r.owner = i).map (·.slot)).foldl (fun s k => s.updSlot k fun _ => {}) s2

/-- INSTANCE_ZEROING_COMPLETE (R376, R383): zeroed, with new granary and transport keys, the instance is ACTIVE. During a service unlock
it waits for the zeroing of all pan and granary. DEDUCED (log 68). -/
def doInstanceZeroingComplete (i : Nat) (s : State) : State :=
  if (s.inst i).state ≠ .retired ∨ s.working = false ∨ s.sec.rngFail ∨ s.sec.unlocking.isSome then s
  else
    ((s.zeroInst i).updInst i fun x => { x with state := .active }).newKeys i

/-- FUNCTION_LEVEL_RESET (R359): the port's function and configuration, and every instance bound to it in squash mode.
DEDUCED (log 67). -/
def doFunctionLevelReset (port : Nat) (s : State) : State :=
  if 2 ≤ port ∨ s.mgt.powered = false ∨ s.working = false then s
  else
    let s := s.updPort port fun p => { p with ats := false, atsPending := [], spdm := none, linkIde := none }
    (s.allInsts.filter fun i =>
      s.instPort i = port && ((s.inst i).state = .active || (s.inst i).state = .draining || (s.inst i).state = .adopting)).foldl
      State.squashInst s

/-! ### The port's protocols (R357, R358, R363, R388) -/

/-- TDISP_MESSAGE (R363): inside the port's secured session, lock, start or stop. PRESUMED (log 66). -/
def doTdispMessage (port i tdi : Nat) (s : State) : State :=
  let now := (s.inst i).tdi
  if !s.pageOn port i || (s.port port).spdm.isNone || !s.working then s
  else if (now = 0 ∧ tdi = 1) ∨ (now = 1 ∧ tdi = 2) ∨ (now = 1 ∧ tdi = 0) ∨ (now = 2 ∧ tdi = 0) then
    s.updInst i fun x => { x with tdi := tdi }
  else s

/-- Pending ATS invalidations complete once every request that may use the translation of each has retired (R358).
DEDUCED (log 67). -/
def Port.atsSettle (p : Port) : Port :=
  let clear (n : Nat) : Bool := p.reqs.all fun r => !r.ats || decide (n ≤ r.id)
  { p with atsPending := p.atsPending.filter fun n => !clear n, atsDone := p.atsDone + (p.atsPending.filter clear).length }

/-- ATS_INVALIDATION (R358). DEDUCED (log 67). -/
def doAtsInvalidation (port : Nat) (s : State) : State :=
  if 2 ≤ port ∨ s.working = false then s
  else s.updPort port fun p => ({ p with atsPending := p.atsPending ++ [p.nextReq] }).atsSettle

/-- HOST_LINK_TRAINING_COMPLETE (R71, R377). -/
def doHostLinkTrainingComplete (port speed width : Nat) (flit : Bool) (s : State) : State :=
  if 2 ≤ port ∨ (s.port port).training = false then s
  else s.updPort port fun p => { p with training := false, speed := speed, width := width, flit := flit }

/-- SPDM_SECURED_SESSION (R381, R388): a secured session of a port's DOE mailbox or, at endpoint 2, of the MCTP sideband begins, with
a secret from the random source, or ends. PRESUMED (log 66). -/
def doSpdmSecuredSession (endpoint : Nat) (established : Bool) (s : State) : State :=
  if 3 ≤ endpoint ∨ s.bar0 = false ∨ s.working = false ∨ (established = true ∧ s.sec.rngFail = true) then s
  else
    let secret := if established then some s.sec.draws else none
    let s := if established then s.drawn 1 else s
    if endpoint = 2 then { s with sec := { s.sec with sideband := secret } }
    else s.updPort endpoint fun p => { p with spdm := secret }

/-- KEY_PROG (R357, R388): inside a secured session of the same port, the key of an instance's selective stream, or of the link stream
(number 64). PRESUMED (log 66). -/
def doKeyProg (port i : Nat) (key : List Byte) (s : State) : State :=
  if 2 ≤ port ∨ (s.port port).spdm.isNone ∨ s.working = false then s
  else if i = 64 then s.updPort port fun p => { p with linkIde := some key }
  else if s.pageOn port i then s.updInst i fun x => { x with ideKey := some key }
  else s

/-! ### Reads of an instance page (R361, R363, R365, R368, R372, R373) -/

/-- The byte at an offset of an instance's page. -/
def Inst.pageByte (x : Inst) (off : Nat) : Byte :=
  if off / 0x1000 = 1 then (x.slot (off % 0x1000 / 64)).view.getD (off % 64) 0
  else if 0x2040 ≤ off ∧ off < 0x2048 then (leBytes 8 x.credits).getD (off - 0x2040) 0
  else if 0x3000 ≤ off ∧ off < 0x3F80 then (Tab.get [] x.ring ((off - 0x3000) / 128)).getD (off % 128) 0
  else if 0x3F80 ≤ off ∧ off < 0x3F84 then (leBytes 4 x.produced).getD (off - 0x3F80) 0
  else if 0x3F84 ≤ off ∧ off < 0x3F88 then (leBytes 4 x.consumed).getD (off - 0x3F84) 0
  else 0

/-- The answer to a read: its bytes, the first eight of which `readData` shows. -/
def State.answerRead (s : State) (bs : List Byte) : State := { s with readBytes := bs, readData := BitVec.ofNat 64 (leAt bs 0 8) }

/-- INSTANCE_PAGE_READ: a read of 1 to 64 bytes within one 64-byte span, which shows one instant (R369); `ide` says whether it is protected
by the instance's selective stream. -/
def doInstancePageRead (port i off len : Nat) (ide : Bool) (s : State) : State :=
  let n := min len (64 - off % 64)
  let zero (s : State) : State := s.answerRead (leBytes n 0)
  if 2 ≤ port ∨ s.bar0All = false ∨ s.working = false then zero s
  else if !s.pageOn port i then zero (s.wrongPort port)
  else if (s.inst i).tdi = 3 then zero s
  else if (s.inst i).tdi = 2 ∧ ide = false then zero (s.tdiError i)
  else s.answerRead ((List.range n).map fun k => (s.inst i).pageByte (off + k))

/-- DRAIN (R375). -/
def execDrain (port : Nat) (v : BitVec 32) (s : State) : Out := .next (doDrain port v s)
/-- SQUASH (R375). -/
def execSquash (port : Nat) (v : BitVec 32) (s : State) : Out := .next (doSquash port v s)
/-- DRAIN_LIMIT_EXPIRY (R375). -/
def execDrainLimitExpiry (inst : Nat) (s : State) : Out := .next (doDrainLimitExpiry inst s)
/-- INSTANCE_RETIRED (R376). -/
def execInstanceRetired (inst : Nat) (s : State) : Out := .next (doInstanceRetired inst s)
/-- INSTANCE_ZEROING_COMPLETE (R376). -/
def execInstanceZeroingComplete (inst : Nat) (s : State) : Out := .next (doInstanceZeroingComplete inst s)
/-- FUNCTION_LEVEL_RESET (R359). -/
def execFunctionLevelReset (port : Nat) (s : State) : Out := .next (doFunctionLevelReset port s)
/-- TDISP_MESSAGE (R363). -/
def execTdispMessage (port inst tdi : Nat) (s : State) : Out := .next (doTdispMessage port inst tdi s)
/-- ATS_INVALIDATION (R358). -/
def execAtsInvalidation (port : Nat) (s : State) : Out := .next (doAtsInvalidation port s)
/-- HOST_LINK_TRAINING_COMPLETE (R71). -/
def execHostLinkTrainingComplete (port speed width : Nat) (flitMode : Bool) (s : State) : Out :=
  .next (doHostLinkTrainingComplete port speed width flitMode s)
/-- SPDM_SECURED_SESSION (R388). -/
def execSpdmSecuredSession (endpoint : Nat) (established : Bool) (s : State) : Out :=
  .next (doSpdmSecuredSession endpoint established s)
/-- KEY_PROG (R388). -/
def execKeyProg (port inst : Nat) (key : List Byte) (s : State) : Out := .next (doKeyProg port inst key s)
/-- INSTANCE_PAGE_READ (R363). -/
def execInstancePageRead (port inst off len : Nat) (ide : Bool) (s : State) : Out :=
  .next (doInstancePageRead port inst off len ide s)

end Sys2Proof.Machine
end

