-- ==== Sys2Proof/Machine/Security.lean ====
section
/-! DEFINITION. The trust region: the operator key (R389, R390), service unlock (R399 to R401), firmware floors (R404) and
the random source (R382). -/

namespace Sys2Proof.Machine

/-! ### The operator key (R389, R390) -/

/-- OPERATOR_KEY (R389): the record is asked for. -/
def doOperatorKey (port : Nat) (v : BitVec 32) (s : State) : State := s.secRead port 2 128 v

/-- Why an operator key record is refused, or zero: serial, sequence and signature, in that order; the first record is accepted
unsigned (R389). DEDUCED (log 68). -/
def State.keyCause (s : State) (b : List Byte) : Nat :=
  if leAt b 0x24 8 ≠ s.nvs.serial.toNat then secWrongSerial
  else
    match s.sec.opKey with
    | none => 0
    | some k =>
      if leAt b 0x20 4 ≤ k.seq then secRollback
      else if Config.ed25519 k.key (Config.sha512 (b.take 64)) (slice b 64 64) then 0
      else secBadSignature

/-- The record of an OPERATOR_KEY has come (R389, R390). -/
def State.keyArrived (s : State) (data : List Byte) : State :=
  let b := padTo 128 data
  let c := s.keyCause b
  if c ≠ 0 then s.secEnd c
  else
    let k : OpKey := { key := slice b 0 32, seq := leAt b 0x20 4, raw := b, stored := false }
    { s.secEnd secOk with sec := { (s.secEnd secOk).sec with opKey := some k } }

/-! ### Service unlock (R399, R400) -/

/-- Whether a signature by the service key over bytes verifies (R378, R399). -/
def serviceSigned (span sig : List Byte) : Bool :=
  decide (Config.sha512 Config.serviceKey = Config.gorciaDigest 2) && Config.ed25519 Config.serviceKey (Config.sha512 span) sig

/-- Why a token is refused, or zero (R400). DEDUCED (log 68). -/
def State.tokenCause (s : State) (b : List Byte) : Nat :=
  if leAt b 0 4 ≠ 0x4B4C4E55 ∨ leAt b 4 2 ≠ 1 ∨ leAt b 6 2 % 4 = 0 then secBadFormat
  else if leAt b 8 8 ≠ s.nvs.serial.toNat then secWrongSerial
  else if leAt b 0x10 32 ≠ s.sec.challenge.toNat then secStale
  else if !serviceSigned (b.take 64) (slice b 64 64) then secBadSignature
  else if 16 ≤ s.sec.unlocks then secExhausted
  else 0

/-- A fresh challenge is drawn (R399). -/
def State.newChallenge (s : State) : State :=
  ({ s with sec := { s.sec with challenge := Config.drbg s.sec.draws } } : State).drawn 1

/-- UNLOCK (R399, R400): the token is asked for. An attempt that ends before that draws a fresh challenge too. -/
def doUnlock (port : Nat) (v : BitVec 32) (s : State) : State :=
  s.secCmd 3 v fun s => if s.sec.inLen.toNat ≠ 128 then s.newChallenge.secEnd secBadFormat else s.secRead port 3 128 v

/-- Every instance that is not on its way to RETIRED is reset in squash mode. -/
def State.squashAll (s : State) : State :=
  (s.allInsts.filter fun i =>
    (s.inst i).state = .active || (s.inst i).state = .draining || (s.inst i).state = .adopting).foldl State.squashInst s

/-- The token of an UNLOCK has come, or not (R399, R400): an accepted one makes admission refuse every commit and resets every
instance in squash mode. -/
def State.tokenArrived (s : State) (ok : Bool) (data : List Byte) : State :=
  let b := padTo 128 data
  let c := if ok then s.tokenCause b else secHostRead
  let s := s.newChallenge
  if c ≠ 0 then s.secEnd c
  else
    ({ s with
      sec := { s.sec with running := none, unlocking := some (leAt b 6 2 % 4) }
      adm := { s.adm with refusing := true } } : State).squashAll

/-- What a SEC command asked for has come, or its read failed (R360, R403). -/
def State.secArrived (s : State) (op port : Nat) (ok : Bool) (data : List Byte) : State :=
  if op = 3 then s.tokenArrived ok data
  else if !ok then s.secEnd secHostRead
  else if op = 1 then s.attestArrived port data
  else s.keyArrived data

/-- Whether every instance's reset has got as far as destroying its keys (R376, R400). It goes no further before all pan and granary
are zero: INSTANCE_ZEROING_COMPLETE waits. DEDUCED (log 68). -/
def State.allRetired (s : State) : Bool := s.allInsts.all fun i => (s.inst i).state = .retired

/-- A link ends its sessions and trains again (R288, R400). -/
def State.relink (s : State) (n : Nat) : State :=
  if (s.link n).electrical then s.linkDown n 9
  else s.updLink n fun l => if l.state = .downRetrying then { l with state := .training } else l

/-- UNLOCK_ZEROING_COMPLETE (R400): all pan and granary is zero and every slot EMPTY; sessions end and links retrain; one
fuse is programmed; then the scopes open. -/
def doUnlockZeroingComplete (s : State) : State :=
  match s.sec.unlocking with
  | none => s
  | some scope =>
    if !s.working then s
    else if !s.allRetired then s.squashAll
    else
      let s := (s.breakStream strBroken).zeroAll
      let s := { s with thr := { s.thr with slots := [] } }
      let s := if s.thr.cmd.isSome then s.thrDone thrAborted else s
      let s := (List.range 6).foldl State.relink s
      let s := (s.updPort 0 fun p => { p with spdm := none }).updPort 1 fun p => { p with spdm := none }
      { s with
        adm := { s.adm with refusing := s.nvs.relayout.any (·.full) }
        sec := { s.sec with
          unlocking := none, unlocks := s.sec.unlocks + 1, debugOpen := true, scopes := scope, sideband := none, done := true,
          result := secOk } }

/-! ### Floors and the random source (R382, R404) -/

/-- RAISE_FLOOR (R404). -/
def doRaiseFloor (_port : Nat) (v : BitVec 32) (s : State) : State :=
  s.secCmd 4 v fun s =>
    let k := fld v 6 4
    if k = 0 ∨ 3 < k then s.secEnd secBadFormat
    else
      let svn := Tab.get 0 s.sec.svn (k - 1)
      if svn ≤ Tab.get 0 s.sec.floors (k - 1) then s.secEnd secRollback
      else { s.secEnd secOk with sec := { (s.secEnd secOk).sec with floors := Tab.put 0 (k - 1) svn s.sec.floors } }

/-- RNG_FAIL (R382, R422): a failed health test is a fatal event. -/
def doRngFail (s : State) : State :=
  if s.mgt.powered = false ∨ s.sec.rngFail then s
  else { s with sec := { s.sec with rngFail := true } }.blackBox 1 2

/-- DRBG_RESEED (R382): after 2^20 requests. -/
def doDrbgReseed (s : State) : State :=
  if s.sec.sinceReseed < 2 ^ 20 ∨ s.sec.rngFail then s
  else { s with sec := { s.sec with sinceReseed := 0, reseeds := s.sec.reseeds + 1 } }

/-- OPERATOR_KEY (R389). -/
def execOperatorKey (port : Nat) (v : BitVec 32) (s : State) : Out := .next (doOperatorKey port v s)
/-- UNLOCK (R400). -/
def execUnlock (port : Nat) (v : BitVec 32) (s : State) : Out := .next (doUnlock port v s)
/-- UNLOCK_ZEROING_COMPLETE (R400). -/
def execUnlockZeroingComplete (s : State) : Out := .next (doUnlockZeroingComplete s)
/-- RAISE_FLOOR (R404). -/
def execRaiseFloor (port : Nat) (v : BitVec 32) (s : State) : Out := .next (doRaiseFloor port v s)
/-- RNG_FAIL (R382). -/
def execRngFail (s : State) : Out := .next (doRngFail s)
/-- DRBG_RESEED (R382). -/
def execDrbgReseed (s : State) : Out := .next (doDrbgReseed s)

end Sys2Proof.Machine
end

