-- ==== Sys2Proof/Machine/Completion.lean ====
section
/-! DEFINITION. Completions of what the device asks of host memory (R105, R302, R308, R357, R358, R360, R371, R391). -/

namespace Sys2Proof.Machine

/-- A fetch has all its bytes: what asked for them goes on. DEDUCED (log 65). -/
def State.fetched (s : State) (port : Nat) (f : Fetch) : State :=
  let ok := !f.bad
  let data := padTo f.len f.bytes
  match f.use with
  | .image => { s with nvs := { s.nvs with op := s.nvs.op.map fun o => { o with got := some (ok, data) } } }
  | .place => s.checkPlacement (if ok then data else [])
  | .forkPlace x => s.updEntry x fun e => { e with placeTab := some (if ok then data else []) }
  | .sec op => s.secArrived op port ok data
  | .sealed x => s.sealedArrived x ok data
  | .stage i => s.updInst i fun x =>
      { x with stageIn := mapIf (fun q => q.id = f.id) (fun q => { q with got := some (ok, data) }) x.stageIn }
  | .record i msg => s.recordArrived i msg ok data
  | .table i msg r => s.openTrain i msg r ok data

/-- One piece of a fetch has come, or failed; the last one ends the fetch. -/
def State.fetchPiece (s : State) (port f off len : Nat) (ok : Bool) (data : List Byte) : State :=
  match s.fetches.find? fun g => g.id = f with
  | none => s
  | some g =>
    let g' := { g with pieces := g.pieces ++ [(off, padTo len data)], left := g.left - 1, bad := g.bad || !ok }
    if g'.left = 0 then ({ s with fetches := s.fetches.erase g } : State).fetched port g'
    else { s with fetches := mapIf (fun h => h.id = f) (fun _ => g') s.fetches }

/-- A flush of a copy's writes to the host has come back: they are acknowledged, or their core takes a HOST fault, and its job keeps the
cause (R105, R114, R371). DEDUCED (log 65). -/
def State.copyFlushed (s : State) (p e d : Nat) (r : HostReq) (ok : Bool) : State :=
  match ((s.core p).ce e).find d with
  | none => s
  | some a =>
    let c := s.core p
    let s := s.putDesc p e { a with outstanding := 0, flush := 0 }
    if ok || a.stopped then s.run p e d
    else (s.updJob c.inst c.seq fun j => { j with hostFault := true }).coreFault p 5 (4 + e) a.idx r.addr

/-- The flush behind the records that READ_BLACKBOX wrote has come back (R424, R426). DEDUCED (log 78). -/
def State.boxFlushed (s : State) (ok : Bool) : State :=
  { s with mgt := { s.mgt with recBusy := s.mgt.recBusy.erase (4, 0), recDone := true, recResult := if ok then 0 else 4 } }

/-- What the completion of one request does. DEDUCED (log 65). -/
def State.hostDone (s : State) (port : Nat) (r : HostReq) (ok : Bool) (data : List Byte) : State :=
  match r.use with
  | .copy p e d n =>
    if !ok then s.copyFault p e d 5 (7 * 2 ^ 60 + r.addr) 0
    else
      s.send
        { id := 0, kind := .readData, origin := .ce p e d, inst := (s.core p).inst, srcUnit := portUnit port,
          dstUnit := posUnit p (4 + e), addr := BitVec.ofNat 64 (7 * 2 ^ 60 + r.addr), n := r.len, seq := n,
          data := padTo r.len data }
  | .flush p e d => s.copyFlushed p e d r ok
  | .attest i tag len => if ok then s.reply i 0 tag (leBytes 8 len) else s.reply i stHostFault tag []
  | .report len => s.attestFlushed ok len
  | .box => s.boxFlushed ok
  | .snap x tag => s.updTrain x fun t =>
      { t with snaps := mapIf (fun q => q.tag = tag && q.captured.isSome && q.dest = 0) (fun q => { q with flushed := some ok }) t.snaps }
  | .stream => s.headData ok data r.len
  | .fetch f off => s.fetchPiece port f off r.len ok data

/-- HOST_COMPLETION (R358): a completion, or its failure or absence. A stopped port region takes none (R34). What waited for room at the
port goes on (R357). -/
def doHostCompletion (port id : Nat) (ok : Bool) (data : List Byte) (s : State) : State :=
  match (s.port port).reqs.find? fun r => r.id = id with
  | none => s
  | some r =>
    if s.held (88 + port) || !s.working then s
    else
      let s := if ok then s.portBytes port (s.useInst r.use) 0x04 r.len else s
      let s := s.updPort port fun p => ({ p with reqs := p.reqs.filter fun x => x.id ≠ id }).issue.atsSettle
      (s.hostDone port r ok data).runAll

/-- HOST_COMPLETION (R358). -/
def execHostCompletion (port id : Nat) (ok : Bool) (data : List Byte) (s : State) : Out :=
  .next (doHostCompletion port id ok data s)

end Sys2Proof.Machine
end

