-- ==== Sys2Proof/Machine/Recovery.lean ====
section
/-! DEFINITION. Faults, fencing and recovery: rebuilding blocks (R410, R411), hangs and fences (R412, R413), retired
columns (R416, R417), live operations (R421) and the black box (R422 to R424). -/

namespace Sys2Proof.Machine

/-! ### Rebuild (R411) -/

/-- The physical block of a global address of an instance: granary or not, and its number. -/
def State.blockOf (s : State) (i a : Nat) : Option (Bool × Nat) :=
  match s.place a with
  | .pan p off => (s.panKey p off).map fun k => (false, k / 64)
  | .gran off => some (true, (s.granBase i + off) / 64)
  | _ => none

/-- The jobs that consumed a block (R410). -/
def State.consumers (s : State) (granary : Bool) (block : Nat) : List Job :=
  s.jobs.filter fun j => j.ue.any fun a => s.blockOf j.inst a = some (granary, block)

/-- The jobs that consumed a block that cannot be rebuilt end with TASK_FAULT. -/
def State.failConsumers (s : State) (granary : Bool) (block : Nat) : State :=
  (s.consumers granary block).foldl (fun s j => s.endJob j.inst j.seq stTaskFault) s

/-- A rebuilt pan block is written, and counted. -/
def State.rebuiltPan (s : State) (p block : Nat) (data : List Byte) : State :=
  { s with
    pan := Memory.write s.pan (block * 64) (padTo 64 data)
    panUe := Tab.put false block false s.panUe }.updPan p fun m => { m with rebuilt := holdAdd 0xFF m.rebuilt 1 }

/-- A granary block cannot be rebuilt (R411): an entry whose image holds it becomes DELETING; jobs on it end.
DEDUCED (log 71). -/
def State.granLost (s : State) (block : Nat) : State :=
  let hit := s.cat.filter fun e =>
    e.2.state ≠ .free && e.2.state ≠ .loading && e.2.state ≠ .deleting && !e.2.fork && e.2.len ≠ 0 &&
    decide ((s.granBase e.2.inst + e.2.gran) / 64 ≤ block) && decide (block * 64 < s.granBase e.2.inst + e.2.gran + e.2.len)
  let s := hit.foldl
    (fun s e => ((s.withdrawPins e.1).answerWaiters e.1 stDeleting).updEntry e.1 fun x => ({ x with state := .deleting }).settle) s
  let hits (e : Nat × Train) (a n : Nat) : Bool :=
    match s.extent e.2.inst a n with
    | (g, b, len) => g && decide (b < block * 64 + 64) && decide (block * 64 < b + len)
  let lost := s.train.filter fun e =>
    e.2.isOpen && recSlow (s.recBytes e.1) && (s.recTable e.1).any fun t =>
      (mirrorArrays (s.recBytes e.1) t).any fun a => hits e a.1 a.2
  let s := (s.jobs.filter fun j => lost.any fun e => j.train = some e.1).foldl
    (fun s j => s.endJob j.inst j.seq stTaskFault) s
  s.failConsumers true block

/-- The entry and set one of whose frames lies at a column offset, with the frame's number in the image. -/
def State.frameOwner (s : State) (p off : Nat) : Option (Entry × List Nat × Nat) :=
  let f := p * 2 ^ 14 + off / 0x4000
  (s.cat.flatMap fun e => (e.2.cur :: e.2.old).filterMap fun x =>
    (findIdx? (· = f) x.frames).map fun k => (e.2, x.frames, k)).head?

/-- The slow-tier working copy that holds a pan address: its granary copy's address, and the instance.
DEDUCED (log 71). -/
def State.workSource (s : State) (p off : Nat) : Option (Nat × Nat) :=
  (s.train.filterMap fun e =>
    if e.2.isOpen && recSlow (s.recBytes e.1) then
      (s.recTable e.1).findSome? fun t =>
        match s.place (tWork t) with
        | .pan q o =>
          if q = p ∧ o ≤ off ∧ off < o + tRows t * tWorkRow t then some (e.2.inst, tWorkGrn t + (off - o)) else none
        | _ => none
    else none).head?

/-- Rebuild of a pan block at a column offset from its region's source. `ok` and `data`: what the partner's READ
returned for a BASE region; for another TRAINING or ACTIVATION block, `ok` says that the repeated stretch writes it.
DEDUCED (log 71). -/
def State.rebuildPan (s : State) (p off block : Nat) (ok : Bool) (data : List Byte) : State :=
  match s.carveAt p off with
  | none => s
  | some c =>
    let r := s.mgt.repair.toNat
    if c.kind = 0 then
      if ok && bit r 3 && s.linkReady (bits r 2 0) (bits r 9 4) then s.rebuiltPan p block data
      else (s.event (posUnit p 7) 0x14 off (s.slotConfid c.owner)).failConsumers false block
    else if c.kind = 1 then
      match s.frameOwner p off with
      | none => s
      | some (e, frames, k) =>
        let base := s.granBase e.inst + e.gran
        match (List.range (ceilDiv e.len 64)).find? fun n => s.granBad (base + 64 * n) 1 with
        | some n => (s.granLost ((base + 64 * n) / 64)).failConsumers false block
        | none =>
          let img := residentImage (s.granRead e.inst e.gran e.len) frames
          s.rebuiltPan p block (slice img (k * 16384 + off % 0x4000 / 64 * 64) 64)
    else if c.kind = 4 then s
    else
      match s.workSource p (off / 64 * 64) with
      | some (i, a) =>
        match (List.range 2).find? fun n => s.badAt i (a + 63 * n) 1 with
        | some n =>
          match s.blockOf i (a + 63 * n) with
          | some b => (s.granLost b.2).failConsumers false block
          | none => s
        | none => s.rebuiltPan p block (s.memRead i a 64)
      | none =>
        if ok then
          { s with jobs := mapIf (fun j => j.ue.any fun a => s.blockOf j.inst a = some (false, block))
                     (fun j => { j with ue := none }) s.jobs }
        else s.failConsumers false block

/-- REBUILD (R411): of a physical block that is marked uncorrectable. -/
def doRebuild (granary : Bool) (block : Nat) (ok : Bool) (data : List Byte) (s : State) : State :=
  if s.working = false then s
  else if granary then if Tab.get false s.granUe block then s.granLost block else s
  else if !Tab.get false s.panUe block then s
  else
    let l := s.panLogical (block * 64)
    s.rebuildPan (l / columnBytes) (l % columnBytes) block ok data

/-! ### Hangs and fences (R412 to R414) -/

/-- HANG (R412, R413): a running core's boundary has held a token for 1 ms. DEDUCED (log 69). -/
def doHang (p : Nat) (s : State) : State :=
  let c := s.core p
  if c.act ≠ .running ∨ c.hungAt.isSome ∨ s.held (p / 11) ∨ s.working = false then s
  else s.setCore p { c with hungAt := some s.tb.count, hangReads := 0 }

/-- HANG_CONFIRM (R413): two further reads, 8 ms apart; the job on the position stops. DEDUCED (log 69). -/
def doHangConfirm (p : Nat) (s : State) : State :=
  let c := s.core p
  match c.hungAt with
  | none => s
  | some t =>
    if c.hangReads ≠ 0 ∨ s.tb.count < t + 16000000 ∨ s.working = false then s
    else
      let s := s.setCore p { c with hungAt := some s.tb.count, hangReads := 2 }
      if c.busy then (s.stopJob c.inst c.seq).updCore p Core.stopTask else s

/-- WRITE_DISCARD_TIMEOUT (R413): 1 ms after the stop, what the core still has outstanding is discarded. -/
def doWriteDiscardTimeout (p : Nat) (s : State) : State :=
  let c := s.core p
  match c.hungAt with
  | none => s
  | some t =>
    if c.hangReads ≠ 2 ∨ s.tb.count < t + 1000000 ∨ s.working = false then s
    else
      let mine (k : Token) : Bool :=
        match k.origin with
        | .ce q _ _ => q = p
        | .seq q => q = p
        | _ => false
      { s.setCore p { c with ce0 := {}, ce1 := {} } with net := s.net.filter fun k => !mine k }

/-- The fence-map code with which a position is to be fenced now: 3 hang, 4 SCRATCH_UE, 5 command; none when it is not.
DEDUCED (log 69). -/
def State.fenceCode (s : State) (p : Nat) : Option Nat :=
  let c := s.core p
  if s.fenced p ∨ 880 ≤ p then none
  else if c.hungAt.isSome ∧ c.hangReads = 2 ∧ c.ce0.act.isEmpty ∧ c.ce1.act.isEmpty then
    some (if c.act = .faulted ∧ c.fault.cause = 4 then 4 else 3)
  else if s.mgt.fenceReq = some p ∧ c.busy = false ∧ c.ce0.act.isEmpty ∧ c.ce1.act.isEmpty then some 5
  else none

/-- FENCE (R413): the position becomes FENCED in the fence map in effect. -/
def doFence (p : Nat) (s : State) : State :=
  match s.fenceCode p with
  | none => s
  | some code =>
    if s.working = false ∨ (s.region (p / 11)).held.contains 2 then s
    else (s.fencePos p code).event (switchUnit (p / 11)) 0x11 (p + 1024 * code) (s.fieldConfid (p / 11))

/-- A planned spare swap of a position is done (R421, R426). -/
def State.swapDone (s : State) (p : Nat) : State :=
  if s.mgt.fenceReq = some p then
    { s with mgt := { s.mgt with fenceReq := none, recBusy := s.mgt.recBusy.erase (1, p), recDone := true, recResult := 0 } }
  else s

/-- RENAME (R413): the spare takes the fenced logical number, or it stays absent; admission re-plans with cause FENCE. -/
def doRename (p : Nat) (s : State) : State :=
  if !s.fenced p || (s.logicalOf p).isNone || !s.working then s
  else
    let s := ((s.renameCore p).updCore p fun c => { c with hungAt := none, hangReads := 0 }).swapDone p
    s.resolve 1 fun j => j.fields.contains (p / 11)

/-! ### Retirement (R416) -/

/-- COLUMN_RETIREMENT (R416): a failed retrain, the eighth uncorrectable block in 24 hours or an internal fault. -/
def doColumnRetirement (p : Nat) (s : State) : State := if s.working then s.retireColumn p else s

/-! ### MGT_RECOVERY_CMD (R421, R426) -/

def recBadPosition : Nat := 1
def recNoSpare : Nat := 2
def recVerifyFailed : Nat := 3

/-- An operation ends with a result. -/
def State.recEnd (s : State) (r : Nat) : State := { s with mgt := { s.mgt with recDone := true, recResult := r } }

/-- A recovery command: one of the same kind while one runs sets REFUSED. -/
def State.recCmd (s : State) (op : Nat) (v : BitVec 32) (body : State → Nat → State) : State :=
  if fld v 3 0 ≠ op ∨ s.bar0 = false ∨ s.working = false ∨ s.mgt.mgtFwDown then s
  else if s.mgt.recBusy.any fun x => x.1 = op then { s with mgt := { s.mgt with recRefused := true } }
  else body s (fld v 25 16)

/-- An operation runs. -/
def State.recStart (s : State) (op p : Nat) : State := { s with mgt := { s.mgt with recBusy := s.mgt.recBusy ++ [(op, p)] } }

/-- FENCE_CORE (R421): the swap takes place at the next barrier that the position's job completes. -/
def doFenceCore (_port : Nat) (v : BitVec 32) (s : State) : State :=
  s.recCmd 1 v fun s p =>
    if 880 ≤ p ∨ s.posCode p ≠ 0 then s.recEnd recBadPosition
    else if (s.spareOf (p / 11)).isNone then s.recEnd recNoSpare
    else { s.recStart 1 p with mgt := { (s.recStart 1 p).mgt with fenceReq := some p } }

/-- RETIRE_COLUMN (R416). -/
def doRetireColumn (_port : Nat) (v : BitVec 32) (s : State) : State :=
  s.recCmd 2 v fun s p =>
    if 880 ≤ p ∨ s.fence.retired.contains p then s.recEnd recBadPosition else (s.retireColumn p).recEnd 0

/-- RETRAIN_COLUMN (R335, R421): at once when the pause fits; else when RECAL_PAUSE_START finds that it does.
DEDUCED (log 70). -/
def doRetrainColumn (_port : Nat) (v : BitVec 32) (s : State) : State :=
  s.recCmd 3 v fun s p =>
    if 880 ≤ p ∨ s.fence.retired.contains p then s.recEnd recBadPosition
    else
      let s := s.recStart 3 p
      match s.retrainReady with
      | some q => s.startRetrain q
      | none => s

/-- SWITCH_MGT_FW (R421): the management region stops. -/
def doSwitchMgtFw (_port : Nat) (v : BitVec 32) (s : State) : State :=
  s.recCmd 5 v fun s _ => { s.recStart 5 0 with mgt := { (s.recStart 5 0).mgt with mgtFwDown := true } }

/-- RELOAD_MICROCODE (R421): it waits for the thresher to be idle. -/
def doReloadMicrocode (_port : Nat) (v : BitVec 32) (s : State) : State := s.recCmd 6 v fun s _ => s.recStart 6 0

/-- Whether no stream, load, page-in, snapshot or mirror is in progress (R421). -/
def State.thrIdle (s : State) : Bool :=
  s.thr.stream.isNone && s.cat.all (fun e => !e.2.loading && !e.2.started) &&
  s.train.all fun e => e.2.snaps.all (fun q => q.captured.isNone) && e.2.mirrorStep.isNone && e.2.mirrorWrites.isEmpty

/-- A new copy of a component stands in the boot flash in place of the one not marked active. If it verifies and is not below its floor, it
takes over: its version and digest replace the old, and it is the copy marked active (R378 to R380, R421). DEDUCED (log 77). -/
def State.takeOver (s : State) (k : Nat) (ok : Bool) (x : FwCopy) : State :=
  let c := 1 - Tab.get 0 s.sec.active k
  let s := { s with sec := { s.sec with flash := Tab.put none (2 * k + c) (some x) s.sec.flash } }
  if !ok || !x.signed || decide (x.svn < Tab.get 0 s.sec.floors k) then s.recEnd recVerifyFailed
  else
    { s.recEnd 0 with sec := { s.sec with
        svn := Tab.put 0 k x.svn s.sec.svn, fwDigest := Tab.put 0 k x.digest s.sec.fwDigest, active := Tab.put 0 k c s.sec.active } }

/-- A retrain's settings are part of the calibration in effect (R62). -/
def State.calibrated (s : State) (kind n : Nat) : State :=
  { s with nvs := { s.nvs with calibration := Config.recalibrated kind n s.tb.count s.nvs.calibration } }

/-- LIVE_OPERATION_COMPLETE (R416, R421): the oldest running retrain or update ends. A retrain that fails retires the
column. The other operands are the new copy of an update. DEDUCED (log 70). -/
def doLiveOperationComplete (ok : Bool) (svn : Nat) (digest : BitVec 512) (key sig : List Byte) (s : State) : State :=
  match s.mgt.recBusy.find? fun x =>
      (x.1 = 3 && (Tab.get {} s.panCtl x.2).retraining) || x.1 = 5 || (x.1 = 6 && s.thrIdle) with
  | none => s
  | some x =>
    if s.working = false then s
    else
      let s := { s with mgt := { s.mgt with recBusy := s.mgt.recBusy.erase x } }
      if x.1 = 3 then
        let s := (s.updPan x.2 fun m => { m with retraining := false }).recEnd (if ok then 0 else recVerifyFailed)
        let s := s.calibrated 1 x.2
        if ok then s else s.retireColumn x.2
      else if x.1 = 5 then ({ s with mgt := { s.mgt with mgtFwDown := false } }).takeOver 1 ok ⟨svn, digest, key, sig⟩
      else s.takeOver 2 ok ⟨svn, digest, key, sig⟩

/-- GRANARY_INTERFACE_RETRAIN (R334, R427): a retrain takes bandwidth that admission has promised; what it sets is part of the
calibration in effect (R62). -/
def doGranaryInterfaceRetrain (c : Nat) (begins : Bool) (s : State) : State :=
  if 2 ≤ c ∨ s.working = false then s
  else
    let s := s.updGran c fun m => { m with retraining := begins }
    if begins then doResolve 4 [96 + c] s else s.calibrated 2 c

/-! ### The black box (R422 to R424) -/

/-- The newest 8,188 records of the management ring, oldest first (R423). -/
def State.boxRecords (s : State) : List (List Byte) :=
  let e := s.obs.mgt.events
  let n := min e 8188
  (List.range n).map fun k => padTo 16 (Tab.get [] s.obs.mgt.recs ((e - n + k) % 8192))

/-- Where the dump slots lie, and a slot's SEQUENCE (R423). -/
def boxSlot (k : Nat) : Nat := 0x6B0000 + 0x20000 * k
def State.boxSequence (s : State) (k : Nat) : Nat := leNat (Memory.read s.nvs.mem (boxSlot k + 8) 8)

/-- The header of a dump without its tag (R423). -/
def State.boxHead (s : State) (n seq : Nat) : List Byte :=
  leBytes 4 0x58424B42 ++ leBytes 2 1 ++ leBytes 2 n ++ leBytes 8 seq ++ leBytes 8 s.mgt.freezeTb ++
  leBytes 1 s.mgt.causes ++ leBytes 1 s.mgt.fatal ++ leBytes 2 s.mgt.inputMv ++ leBytes 20 0

/-- The dump goes to the slot of lower SEQUENCE, records first and header last; the records stand in plaintext under an
ideal seal (DESIGN CHOICE, log 8). -/
def State.writeBox (s : State) : State :=
  let k := if s.boxSequence 1 < s.boxSequence 0 then 1 else 0
  let seq := s.mgt.boxSeq + 1
  let recs := s.boxRecords
  let head := s.boxHead recs.length seq
  let tag := padTo 16 (Config.sealBlackBox seq (head ++ recs.flatten))
  { s with
    nvs := { (s.nvs.write (boxSlot k + 0x40) recs.flatten).write (boxSlot k) (head ++ tag) with
      cycBox := holdAdd 0xFFFF s.nvs.cycBox 1 }
    mgt := { s.mgt with boxSeq := seq, dumping := false } }

/-- BLACK_BOX_DUMP_COMPLETE (R424, R441, R447): `mv` is the input when the dump completes. After an over-voltage disconnect
the module is off; after a fatal event or a trip it holds its state; after an input droop it works on, or its rails go down
until the input rises again. DEDUCED (log 78). -/
def doBlackBoxDumpComplete (mv : Nat) (s : State) : State :=
  if s.mgt.dumping = false then s
  else
    let s := s.writeBox
    let off := { s.cold with mgt := { s.cold.mgt with
      disconnected := s.mgt.disconnected, ovFallen := s.mgt.ovFallen, faultPin := s.mgt.faultPin, inputMv := mv / 10 } }
    if s.mgt.disconnected ∨ s.mgt.mateClosed = false then off
    else if s.mgt.causes % 4 ≠ 0 then s
    else if mv < 38000 then off
    else
      let s := { s with mgt := { s.mgt with ringFrozen := false, inputMv := mv / 10, inputLow := decide (mv < 40000) } }
      (s.event mgtUnit 0x22 s.mgt.lowest false).alert 2

/-- READ_BLACKBOX (R360, R424): a slot's header and records go to the host and are flushed; one whose tag fails, with COUNT zero. -/
def doReadBlackbox (port : Nat) (v : BitVec 32) (s : State) : State :=
  s.recCmd 4 v fun s _ =>
    let newer := if s.boxSequence 0 < s.boxSequence 1 then 1 else 0
    let k := if bit v.toNat 4 then 1 - newer else newer
    let h := Memory.read s.nvs.mem (boxSlot k) 64
    let recs := Memory.read s.nvs.mem (boxSlot k + 0x40) (16 * min 8188 (leAt h 6 2))
    let good := leAt h 0 4 = 0x58424B42 ∧ padTo 16 (Config.sealBlackBox (leAt h 8 8) (h.take 48 ++ recs)) = h.drop 48
    let out := if good then h ++ recs else slice h 0 6 ++ [0, 0] ++ h.drop 8
    ((s.recStart 4 0).hostWrite port none s.mgt.recAddr.toNat out false).hostAsk port none s.mgt.recAddr.toNat 0 .box

/-- TRUST_MANAGEMENT_UNCORRECTABLE (R422). -/
def doTrustManagementUncorrectable (s : State) : State :=
  if s.mgt.powered = false ∨ s.mgt.stopped then s else s.blackBox 1 3

/-- REBUILD (R411). -/
def execRebuild (granary : Bool) (block : Nat) (ok : Bool) (data : List Byte) (s : State) : Out :=
  .next (doRebuild granary block ok data s)
/-- HANG (R412). -/
def execHang (pos : Nat) (s : State) : Out := .next (doHang pos s)
/-- HANG_CONFIRM (R413). -/
def execHangConfirm (pos : Nat) (s : State) : Out := .next (doHangConfirm pos s)
/-- WRITE_DISCARD_TIMEOUT (R413). -/
def execWriteDiscardTimeout (pos : Nat) (s : State) : Out := .next (doWriteDiscardTimeout pos s)
/-- FENCE (R413). -/
def execFence (pos : Nat) (s : State) : Out := .next (doFence pos s)
/-- RENAME (R413). -/
def execRename (pos : Nat) (s : State) : Out := .next (doRename pos s)
/-- COLUMN_RETIREMENT (R416). -/
def execColumnRetirement (pos : Nat) (s : State) : Out := .next (doColumnRetirement pos s)
/-- FENCE_CORE (R421). -/
def execFenceCore (port : Nat) (v : BitVec 32) (s : State) : Out := .next (doFenceCore port v s)
/-- RETIRE_COLUMN (R416). -/
def execRetireColumn (port : Nat) (v : BitVec 32) (s : State) : Out := .next (doRetireColumn port v s)
/-- RETRAIN_COLUMN (R421). -/
def execRetrainColumn (port : Nat) (v : BitVec 32) (s : State) : Out := .next (doRetrainColumn port v s)
/-- READ_BLACKBOX (R424). -/
def execReadBlackbox (port : Nat) (v : BitVec 32) (s : State) : Out := .next (doReadBlackbox port v s)
/-- SWITCH_MGT_FW (R421). -/
def execSwitchMgtFw (port : Nat) (v : BitVec 32) (s : State) : Out := .next (doSwitchMgtFw port v s)
/-- RELOAD_MICROCODE (R421). -/
def execReloadMicrocode (port : Nat) (v : BitVec 32) (s : State) : Out := .next (doReloadMicrocode port v s)
/-- LIVE_OPERATION_COMPLETE (R421). -/
def execLiveOperationComplete (ok : Bool) (svn : Nat) (digest : BitVec 512) (key sig : List Byte) (s : State) : Out :=
  .next (doLiveOperationComplete ok svn digest key sig s)
/-- BLACK_BOX_DUMP_COMPLETE (R424). -/
def execBlackBoxDumpComplete (mv : Nat) (s : State) : Out := .next (doBlackBoxDumpComplete mv s)
/-- TRUST_MANAGEMENT_UNCORRECTABLE (R422). -/
def execTrustManagementUncorrectable (s : State) : Out := .next (doTrustManagementUncorrectable s)
/-- GRANARY_INTERFACE_RETRAIN (R427). -/
def execGranaryInterfaceRetrain (ctl : Nat) (begins : Bool) (s : State) : Out :=
  .next (doGranaryInterfaceRetrain ctl begins s)

end Sys2Proof.Machine
end

