-- ==== Sys2Proof/Machine/Observe.lean ====
section
/-! DEFINITION. Counters as they are shown, event rings, the freeze and debug stops (R396, R397, R428 to R439). -/

namespace Sys2Proof.Machine

/-! ### Shown counters (R396, R428 to R430) -/

/-- FLDnn_POS_MAP (R40). -/
def State.posMap (s : State) (f : Nat) : Nat :=
  let nib (x : Option Nat) : Nat := match x with
    | some p => p % 11
    | none => 15
  (List.range 10).foldl (fun v k => v + nib (s.logicalPos f k) * 2 ^ (4 * k)) 0 + nib (s.spareOf f) * 2 ^ 40

/-- FLDnn_POS_STATE (R40). -/
def State.posState (s : State) (f : Nat) : Nat :=
  (List.range 11).foldl
    (fun v k => v + (if s.posCode (11 * f + k) = 0 then 2 ^ k else 0) + (if s.fenced (11 * f + k) then 2 ^ (16 + k) else 0)) 0

/-- The ring of a unit; the management region's sub-unit 0x1FE is the black-box ring (R428, R432). -/
def State.ringOf (s : State) (unit : Nat) : Ring :=
  if unit = regionUnit 85 0x1FE then s.obs.mgt else Tab.get {} s.obs.rings unit

/-- How many records a unit's ring holds. -/
def ringDepth (unit : Nat) : Nat := if unit = regionUnit 85 0x1FE then 8192 else 64

/-- Whether a unit belongs to a confidential instance. DEDUCED (log 74). -/
def State.unitConfid (s : State) (unit : Nat) : Bool := decide (unitRegion unit < 80) && s.fieldConfid (unitRegion unit)

/-- Every counter value of this instant, by key, with the coarsened busy beats of confidential fields (R430, R434). -/
def State.bank (s : State) : Tab Word :=
  let put (t : Tab Word) (u n v : Nat) : Tab Word := Tab.put 0 (cntKey u n) (BitVec.ofNat 64 v) t
  let t := (List.range 80).foldl
    (fun t f =>
      let u := regionUnit f 0x1FF
      let t := put (put t u 0x20 (s.posMap f)) u 0x21 (s.posState f)
      if s.fieldConfid f then put t u 0x00 (s.region f).coarse else t)
    s.obs.cnt
  let t := s.obs.rings.foldl (fun t e => put t e.1 0x13 e.2.events) t
  put t (regionUnit 85 0x1FE) 0x13 s.obs.mgt.events

/-- What a counter of a bank reads as: activity counters, and the busy beats of single matrix engines, of a confidential
instance read zero (R396, R430). DEDUCED (log 74). -/
def State.shown (s : State) (bank : Tab Word) (unit n : Nat) : Word :=
  let activity := decide (1 ≤ n) && decide (n ≤ 0x0B)
  if s.unitConfid unit && (activity || (n = 0 && unit % 512 ≠ 0x1FF)) then 0 else Tab.get 0 bank (cntKey unit n)

/-! ### The freeze (R434) -/

/-- Whether manager software's writes to the OBS block are taken (R421, R439). -/
def State.obsOk (s : State) : Bool := s.regOk && !s.mgt.mgtFwDown

/-- The earliest time a freeze or stop may name. DEDUCED (log 72). -/
def State.obsBound (s : State) : Nat := s.tb.count + 2000

/-- BAR0 offset of OBS_FREEZE_TB. -/
def freezeReg : Nat := 0x50008

/-- The value that a write of a 64-bit register completes, and the state with the held half: a whole write, or an upper
half with the lower half held, or without it with the current one; none for a lower half (R5). A whole write leaves a held
lower half held, which R5 does not settle. DESIGN CHOICE (log 91). -/
def State.writeHalf (s : State) (off size : Nat) (hi : Bool) (v cur : Word) : Option Word × State :=
  if size = 8 then (some v, s)
  else if hi then
    let lo := ((Tab.get none s.halves.writeLo off).map (·.toNat)).getD (cur.toNat % 2 ^ 32)
    (some (BitVec.ofNat 64 (v.toNat % 2 ^ 32 * 2 ^ 32 + lo)),
      { s with halves := { s.halves with writeLo := Tab.put none off none s.halves.writeLo } })
  else
    (none, { s with halves := { s.halves with writeLo := Tab.put none off (some (v.setWidth 32)) s.halves.writeLo } })

/-- A refused freeze or stop. -/
def State.obsRefuse (s : State) : State := { s with obs := { s.obs with refused := true } }

/-- FREEZE_ARM (R5, R434). DEDUCED (log 72). -/
def doFreezeArm (size : Nat) (hi : Bool) (v : Word) (s : State) : State :=
  if s.obsOk = false ∨ (size ≠ 4 ∧ size ≠ 8) then s
  else if s.obs.armed then s.obsRefuse
  else
    let w := s.writeHalf freezeReg size hi v s.obs.freezeTb
    match w.1 with
    | none => w.2
    | some t =>
      if t.toNat < s.obsBound then w.2.obsRefuse
      else { w.2 with obs := { w.2.obs with freezeTb := t, armed := true } }

/-- FREEZE (R434): at tick T every frozen bank is replaced. DEDUCED (log 72). -/
def doFreeze (s : State) : State :=
  let t := s.obs.freezeTb.toNat
  if s.obs.armed = false ∨ s.tb.count < t then s
  else
    let n := (s.obs.seq + 1) % 2 ^ 24
    { s with obs := { s.obs with armed := false, frozen := s.bank, seq := n, valid := false, validAt := some (t + 1000) } }.eventAt
      t mgtUnit 0x80 (t / 2 ^ 48 + n * 2 ^ 16) false

/-- FROZEN_VALID (R434). -/
def doFrozenValid (s : State) : State :=
  match s.obs.validAt with
  | none => s
  | some t => if s.tb.count < t then s else { s with obs := { s.obs with valid := true, validAt := none } }

/-! ### Debug stops (R436 to R438) -/

/-- Regions that a stop with GLOBAL leaves running. DEDUCED (log 73). -/
def globalExcept : List Nat := [84, 85, 88, 89, 98, 99]

/-- The scope that the registers select (R33, R436). DEDUCED (log 73). -/
def State.stopScope (s : State) : List Nat :=
  if s.obs.global then (List.range 100).filter fun r => !globalExcept.contains r
  else (List.range 80).filter fun f => if f < 64 then s.obs.stopFields.getLsbD f else s.obs.fieldsHi.getLsbD (f - 64)

/-- The read-write fields of OBS_STOP_CTRL. DEDUCED (log 73). -/
def State.stopCtrl (s : State) (v : BitVec 32) : State :=
  { s with obs := { s.obs with fieldsHi := v.setWidth 16, global := bit v.toNat 16 } }

/-- The regions of the scope resume; a stop's length is added to the promises of the instances whose fields it stopped and
to the waits of requests issued from its regions (R354, R437, R438). -/
def State.release (s : State) : State :=
  if s.obs.stop ≠ .stopping ∧ s.obs.stop ≠ .stopped then s
  else
    let at' := s.obs.stopAt
    let len := s.tb.count - at'
    let hit (i : Nat) : Bool := s.obs.scope.any fun r => s.fieldInst r = some i
    let inScope (n : Nat) (o : Origin) : Bool :=
      match o with
      | .ce p _ _ => s.obs.scope.contains (p / 11)
      | .seq p => s.obs.scope.contains (p / 11)
      | _ => s.obs.scope.contains (90 + n)
    let listed := s.obs.residue.length
    let s := s.obs.scope.foldl (fun s r => s.resumeRegion r 2) s
    let s := { s with
      jobs := mapIf (fun j => hit j.inst && j.live)
        (fun j =>
          { j with
            promise := j.promise + len, planned := j.planned + len, noticed := j.noticed.map (· + len), planAt := j.planAt + len
            start := if at' ≤ j.start then j.start + len else j.start, dispatchTb := j.dispatchTb + len }) s.jobs
      links := Tab.mapAll {}
        (fun n l => { l with reqs := mapIf (fun q => inScope n q.origin) (fun q => { q with sentAt := q.sentAt.map (· + len) }) l.reqs })
        s.links
      obs := { s.obs with stop := .idle, scope := [], residue := [], confResidue := 0, overflow := false } }
    (s.event mgtUnit 0x82 listed false).runAll

/-- ARM (R436, R438): a write of OBS_STOP_CTRL with ARM. -/
def doArm (v : BitVec 32) (s : State) : State :=
  if s.obsOk = false ∨ bit v.toNat 17 = false then s
  else
    let s := s.stopCtrl v
    let t := s.obs.stopTb.toNat
    let s' :=
      if s.obs.stop ≠ .idle ∨ t < s.obsBound then s.obsRefuse
      else { s with obs := { s.obs with stop := .armed, stopAt := t, scope := s.stopScope } }
    if bit v.toNat 18 then s'.release else s'

/-- DEBUG_STOP_HOLD (R435, R436): at T the boundaries of the scope hold, after a freeze of the same tick. -/
def doDebugStopHold (s : State) : State :=
  if s.obs.stop ≠ .armed ∨ s.tb.count < s.obs.stopAt ∨ (s.obs.armed ∧ s.obs.freezeTb.toNat ≤ s.obs.stopAt) then s
  else
    let s := s.obs.scope.foldl (fun s r => s.stopRegion r 2) s
    { s with obs := { s.obs with stop := .stopping } }

/-- Whether nothing moves inside a region any more (R436). -/
def State.quiescent (s : State) (r : Nat) : Bool :=
  s.net.all (fun t => unitRegion t.srcUnit ≠ r || !t.path.isEmpty) &&
  (decide (80 ≤ r) || (List.range 11).all fun k => (s.core (11 * r + k)).inflight.isEmpty)

/-- The kind of a residue entry (R438). -/
def tokCode : TokKind → Nat
  | .readReq => 0
  | .readData => 1
  | .write => 2
  | .accumulate => 3
  | .semAdd => 4
  | .semSub => 4
  | .waitge => 4
  | .waitsub => 4
  | .wake => 5
  | .ack => 6
  | .fe => 7

/-- A residue entry (R438). -/
def residueEntry (t : Token) : List Byte :=
  leBytes 2 t.srcUnit ++ leBytes 2 t.dstUnit ++ leBytes 1 (tokCode t.kind) ++ leBytes 1 t.inst ++ leBytes 2 t.data.length ++
  leBytes 8 t.addr.toNat

/-- Every token moves up to the boundary that holds it (R34, R436). -/
def State.settle (s : State) : State := s.net.foldl (fun s t => if t.path.any s.held then s.moveUp t else s) s

/-- DEBUG_STOP (R436, R438): every region of the scope is quiescent; the residue is the tokens held on channels into it. -/
def doDebugStop (s : State) : State :=
  if s.obs.stop ≠ .stopping ∨ (s.obs.scope.all s.quiescent) = false then s
  else
    let s := s.settle
    let heldToks := s.net.filter fun t => t.path.head?.any s.obs.scope.contains
    let open' := heldToks.filter fun t => !s.confid t.inst
    let conf := min 0x1FFF (heldToks.length - open'.length)
    let listed := (open'.take 4096).map residueEntry
    { s with obs := { s.obs with
        stop := .stopped, residue := listed, confResidue := conf, overflow := decide (4096 < open'.length) } }.event
      mgtUnit 0x81 (listed.length + conf * 2 ^ 13) false

/-- RESUME (R438): a write of OBS_STOP_CTRL with RESUME and without ARM. -/
def doResume (v : BitVec 32) (s : State) : State :=
  if s.obsOk = false ∨ bit v.toNat 17 ∨ bit v.toNat 18 = false then s else (s.stopCtrl v).release

/-! ### Reads that latch (R439) -/

/-- OBS_RING_LO_READ (R432, R439). -/
def doObsRingLoRead (s : State) : State :=
  if s.bar0All = false ∨ s.mgt.mgtFwDown then { s with readData := 0 }
  else
    let unit := fld s.obs.ringSel 15 0
    let entry := fld s.obs.ringSel 28 16
    let r := if entry < ringDepth unit then padTo 16 (Tab.get [] (s.ringOf unit).recs entry) else List.replicate 16 0
    { s with readData := BitVec.ofNat 64 (leAt r 0 8), obs := { s.obs with ringHi := BitVec.ofNat 64 (leAt r 8 8) } }

/-- OBS_RESIDUE_LO_READ (R438, R439). -/
def doObsResidueLoRead (s : State) : State :=
  if s.bar0All = false ∨ s.mgt.mgtFwDown then { s with readData := 0 }
  else
    let r := padTo 16 (s.obs.residue.getD s.obs.resSel.toNat [])
    { s with readData := BitVec.ofNat 64 (leAt r 0 8), obs := { s.obs with resHi := BitVec.ofNat 64 (leAt r 8 8) } }

/-! ### Coarsened windows (R396, R397, R430) -/

/-- A reading of the input power (R453). -/
def State.setWatts (s : State) (w : Nat) : State := { s with mgt := { s.mgt with inputW := w } }

/-- The average of a region's junction readings of a window; the last reading when there is none (R397). -/
def Region.average (g : Region) : Region :=
  { g with tempAvg := if g.tempN = 0 then g.temp else g.tempSum / g.tempN, tempSum := 0, tempN := 0 }

/-- One region's busy beats at the end of a 100 ms window: of a confidential field, in sixteenths of its capacity.
DEDUCED (log 74). -/
def Region.window (g : Region) (conf : Bool) (count : Nat) : Region :=
  let c := g.rate * 1000000
  let add := if c = 0 then 0 else 16 * g.busyBeats / c * c / 16
  { g with busyBeats := 0, coarse := if conf then g.coarse + add else count }

/-- The greatest of a list of readings, with the lowest number that has it. -/
def hottest (l : List (Nat × Nat)) : Nat × Nat :=
  l.foldl (fun m x => if m.2 < x.2 then x else m) (0, 0)

/-- The hottest field junction and pan column known. DEDUCED (log 75). -/
def State.hotFieldNow (s : State) : Nat × Nat := hottest ((List.range 80).map fun f => (f, (s.region f).temp))
def State.hotColumnNow (s : State) : Nat × Nat := hottest ((List.range 880).map fun p => (p, (Tab.get {} s.panCtl p).temp))

/-- COARSENED_WINDOW_END (R396, R397): of 100 ms, or of 1 s with the averages of the window. DEDUCED (log 75). -/
def doCoarsenedWindowEnd (oneSecond : Bool) (watts inlet outlet : Nat) (s : State) : State :=
  if s.mgt.powered = false ∨ s.tb.count % (if oneSecond then 1000000000 else 100000000) ≠ 0 then s
  else if oneSecond then
    let s := (List.range 88).foldl (fun s r => s.updRegion r Region.average) s
    let j := hottest ((List.range 80).map fun f => (f, (s.region f).tempAvg))
    { s with mgt := { s.mgt with
        inputW := watts
        windowW := watts
        inlet := inlet % 256
        outlet := outlet % 256
        hotField := j.1
        hotJunction := j.2 } }
  else
    (List.range 80).foldl
      (fun s f =>
        s.updRegion f fun g => g.window (s.fieldConfid f) (Tab.get 0 s.obs.cnt (cntKey (regionUnit f 0x1FF) 0)).toNat) s

/-- FREEZE_ARM (R434). -/
def execFreezeArm (size : Nat) (hi : Bool) (value : Word) (s : State) : Out := .next (doFreezeArm size hi value s)
/-- FREEZE (R434). -/
def execFreeze (s : State) : Out := .next (doFreeze s)
/-- FROZEN_VALID (R434). -/
def execFrozenValid (s : State) : Out := .next (doFrozenValid s)
/-- ARM (R436). -/
def execArm (v : BitVec 32) (s : State) : Out := .next (doArm v s)
/-- DEBUG_STOP_HOLD (R436). -/
def execDebugStopHold (s : State) : Out := .next (doDebugStopHold s)
/-- DEBUG_STOP (R436). -/
def execDebugStop (s : State) : Out := .next (doDebugStop s)
/-- RESUME (R438). -/
def execResume (v : BitVec 32) (s : State) : Out := .next (doResume v s)
/-- OBS_RING_LO_READ (R439). -/
def execObsRingLoRead (s : State) : Out := .next (doObsRingLoRead s)
/-- OBS_RESIDUE_LO_READ (R439). -/
def execObsResidueLoRead (s : State) : Out := .next (doObsResidueLoRead s)
/-- COARSENED_WINDOW_END (R396). -/
def execCoarsenedWindowEnd (oneSecond : Bool) (watts inlet outlet : Nat) (s : State) : Out :=
  .next (doCoarsenedWindowEnd oneSecond watts inlet outlet s)

end Sys2Proof.Machine
end

