-- ==== Sys2Proof/Machine/Module.lean ====
section
/-! DEFINITION. The module's surroundings: input, hot-swap stage and rails (R440, R441, R447, R454), throttling and the
thermal trip (R444, R445), and the cages (R451). Voltages are in mV unless a field of State says otherwise. -/

namespace Sys2Proof.Machine

/-! ### Input (R440, R441) -/

/-- Whether start-up has reached READY, or its manager-only end. DEDUCED (log 77). -/
def State.ready (s : State) : Bool := s.mgt.powered && decide (9 ≤ s.mgt.stage)

/-- INPUT_DROOP (R422, R440, R441): below 38.0 V for 20 µs. Before READY the rails go down; after it the black box is
written. `mv` is the lowest input seen. -/
def doInputDroop (mv : Nat) (s : State) : State :=
  if s.mgt.powered = false ∨ 38000 ≤ mv then s
  else if s.ready = false then { s.cold with mgt := { s.cold.mgt with inputMv := mv / 10 } }
  else
    let low := if s.mgt.dumping then min s.mgt.lowest (mv / 10) else mv / 10
    { s with mgt := { s.mgt with inputMv := mv / 10, lowest := low } }.blackBox 4 0

/-- INPUT_LOW (R441): 38.0 V to 40.0 V after READY. -/
def doInputLow (mv : Nat) (s : State) : State :=
  if s.ready = false ∨ mv < 38000 ∨ 40000 ≤ mv then s
  else { s with mgt := { s.mgt with inputMv := mv / 10, inputLow := true, inputHigh := false } }.alert 2

/-- INPUT_HIGH (R441): 60.0 V to 63.0 V. -/
def doInputHigh (mv : Nat) (s : State) : State :=
  if s.ready = false ∨ mv ≤ 60000 ∨ 63000 < mv then s
  else { s with mgt := { s.mgt with inputMv := mv / 10, inputHigh := true, inputLow := false } }.alert 2

/-- INPUT_IN_OPERATING_RANGE (R441): back within 40.0 V to 60.0 V; after an over-voltage disconnect, the input that has
fallen below 60.0 V. -/
def doInputInOperatingRange (mv : Nat) (s : State) : State :=
  let s := if s.mgt.disconnected ∧ mv < 60000 then { s with mgt := { s.mgt with ovFallen := true } } else s
  if s.ready = false ∨ mv < 40000 ∨ 60000 < mv then s
  else { s with mgt := { s.mgt with inputMv := mv / 10, inputLow := false, inputHigh := false } }

/-- OVER_VOLTAGE_DISCONNECT (R440, R441): above 63.0 V for 1 ms. DEDUCED (log 78). -/
def doOverVoltageDisconnect (mv : Nat) (s : State) : State :=
  if s.mgt.powered = false ∨ mv ≤ 63000 then s
  else
    { s with mgt := { s.mgt with hotSwap := false, disconnected := true, ovFallen := false, inputMv := mv / 10 } }.blackBox 1 4

/-- MATE_LOOP_BREAK (R447): the hot-swap stage opens and the black box is written with CAUSES bit 2. -/
def doMateLoopBreak (s : State) : State :=
  let s := { s with mgt := { s.mgt with hotSwap := false, mateClosed := false } }
  if s.mgt.powered then s.blackBox 4 0 else s

/-- MATE_LOOP_CONTINUOUS (R447): continuous for 10 ms, the hot-swap stage closes. -/
def doMateLoopContinuous (s : State) : State :=
  { s with mgt := { s.mgt with mateClosed := true, hotSwap := !s.mgt.disconnected } }

/-- A rail's nominal voltage in mV and its limit in percent (R454); none for an index without one. -/
def railNominal (r : Nat) : Option (Nat × Nat) :=
  match r with
  | 1 => some (12000, 5)
  | 2 => some (1800, 5)
  | 3 => some (1050, 3)
  | 4 => some (1800, 5)
  | 5 => some (1800, 5)
  | 6 => some (1050, 3)
  | 7 => some (500, 3)
  | 8 => some (850, 3)
  | 9 => some (1200, 5)
  | 10 => some (3300, 5)
  | _ => none

/-- RAIL_LIMIT (R422, R454, R457): outside its limit for 100 µs. -/
def doRailLimit (rail mv : Nat) (s : State) : State :=
  match railNominal rail with
  | none => s
  | some (v, lim) =>
    if s.mgt.powered = false ∨ (v * (100 - lim) ≤ 100 * mv ∧ 100 * mv ≤ v * (100 + lim)) then s
    else
      let s := { s with mgt := { s.mgt with
        railMv := Tab.put 0 rail mv s.mgt.railMv, railSeen := Tab.put false rail true s.mgt.railSeen } }
      if s.mgt.stopped then s else s.blackBox 1 4

/-! ### Caps (R444, R445) -/

/-- Caps applied or lowered are counted and reported to admission as cause THROTTLE (R334, R445, R457). -/
def State.capReport (s : State) (fields : List Nat) : State :=
  if fields.isEmpty then s
  else
    doResolve 2 fields { s with mgt := { s.mgt with capsCount := holdAdd 0xFFFF s.mgt.capsCount fields.length } }

/-- Change the caps of a field. -/
def State.updCaps (s : State) (f : Nat) (g : Caps → Caps) : State := s.updField f fun x => { x with caps := g x.caps }

/-- Where a cap that starts to fall begins: the field's rate target, or the curve's rate at its V_TARGET without one.
DEDUCED (log 53). -/
def State.capStart (s : State) (f : Nat) : Nat :=
  let t := s.zen.rateTarget f
  if t = 0 then rateAt f (s.zen.vTarget f) 70 else t

/-- THROTTLE_ASSERT (R444, R445): every field is capped at THROTTLE_RATE. -/
def doThrottleAssert (s : State) : State :=
  if s.mgt.pin then s
  else
    let s := { s with mgt := { s.mgt with pin := true } }
    if s.mgt.powered && s.working then (s.alert 1).capReport (List.range 80) else s

/-- THROTTLE_DEASSERT (R444). -/
def doThrottleDeassert (s : State) : State := { s with mgt := { s.mgt with pin := false } }

/-- The two sensors of a pan column read (R11). -/
def State.sensePan (s : State) (p t0 t7 : Nat) : State := s.updPan p fun m => { m with temp0 := t0, temp7 := t7 }

/-- COLUMN_HOT (R11, R444): when the higher of the two sensors is above 85 °C the column's refresh doubles, and its field is capped
at 97 % of its floor. -/
def doColumnHot (p t0 t7 : Nat) (s : State) : State :=
  if 880 ≤ p ∨ max t0 t7 ≤ 85 ∨ s.mgt.powered = false ∨ s.working = false then s
  else
    let f := p / 11
    let s := (s.sensePan p t0 t7).updPan p fun m => { m with hot := true }
    if (s.field f).caps.refresh.isSome then s
    else
      let c := s.floorRate f second * 97 / 100
      ((s.updCaps f fun x => { x with refresh := some c }).alert 1).capReport [f]

/-- FIELD_HOT (R444): a junction at 100 °C or a column at 90 °C; the field's cap starts to fall. -/
def doFieldHot (f : Nat) (column : Bool) (temp : Nat) (s : State) : State :=
  if 80 ≤ f ∨ temp < (if column then 90 else 100) ∨ s.mgt.powered = false ∨ s.working = false then s
  else
    let s := if column then s else s.updRegion f fun g => g.sense temp
    let x := (s.field f).caps
    if x.thermal.isSome then s.updCaps f fun x => { x with rising := false }
    else ((s.updCaps f fun x => { x with thermal := some (s.capStart f), rising := false }).alert 1).capReport [f]

/-- The limit of MGT_POWER_LIMIT in force, W (R457). -/
def State.powerLimitW (s : State) : Nat := max 300 (min 1200 s.mgt.powerLimit.toNat)

/-- POWER_OVER_LIMIT (R444): every field's cap starts to fall. -/
def doPowerOverLimit (watts : Nat) (s : State) : State :=
  if s.mgt.powered = false ∨ s.working = false ∨ watts ≤ s.powerLimitW then s
  else
    let s := s.setWatts watts
    let fresh := (List.range 80).filter fun f => (s.field f).caps.power.isNone
    let s := fresh.foldl (fun s f => s.updCaps f fun x => { x with power := some (s.capStart f) }) s
    let s := { s with mgt := { s.mgt with powerOver := true } }
    if fresh.isEmpty then s else (s.alert 1).capReport fresh

/-- THERMAL_RELEASE (R444): kind 0, a column is below 83 °C by both sensors, `reading` of layer 0 and `other` of layer 7; kind 1, a field is below 97 °C and its columns below 87 °C;
kind 2, the input power, in W, is 5 % below the limit. -/
def doThermalRelease (kind unit reading other : Nat) (s : State) : State :=
  if s.mgt.powered = false ∨ s.working = false then s
  else if kind = 0 then
    if 880 ≤ unit ∨ 83 ≤ max reading other then s
    else
      let s := (s.sensePan unit reading other).updPan unit fun m => { m with hot := false }
      if (List.range 11).any fun k => (Tab.get {} s.panCtl (unit / 11 * 11 + k)).hot then s
      else s.updCaps (unit / 11) fun x => { x with refresh := none }
  else if kind = 1 then
    if 80 ≤ unit ∨ 97 ≤ reading ∨ (s.field unit).caps.thermal.isNone ∨
        (List.range 11).any fun k => decide (87 ≤ (Tab.get {} s.panCtl (unit * 11 + k)).temp) then s
    else (s.updRegion unit fun g => g.sense reading).updCaps unit fun x => { x with rising := true }
  else if kind = 2 then
    if s.powerLimitW * 95 < 100 * reading then s
    else
      let s := s.setWatts reading
      { s with mgt := { s.mgt with powerOver := false } }
  else s

/-- One 10 ms step of a cap: 25 M beats/s down, or up until the start is reached, where the cap is removed.
DEDUCED (log 53). -/
def capMove (start : Nat) (rising : Bool) (c : Option Nat) : Option Nat :=
  c.bind fun x => if rising then (if start ≤ x + 25 then none else some (x + 25)) else some (x - 25)

/-- CAP_STEP (R444): every 10 ms. DEDUCED (log 53). -/
def doCapStep (s : State) : State :=
  if s.mgt.powered = false ∨ s.working = false then s
  else
    let capped := (List.range 80).filter fun f => (s.field f).caps.thermal.isSome || (s.field f).caps.power.isSome
    let lowered := capped.filter fun f =>
      ((s.field f).caps.thermal.isSome && !(s.field f).caps.rising) || ((s.field f).caps.power.isSome && s.mgt.powerOver)
    let s' := capped.foldl
      (fun t f => t.updCaps f fun x =>
        let th := capMove (s.capStart f) x.rising x.thermal
        { x with thermal := th, rising := x.rising && th.isSome, power := capMove (s.capStart f) (!s.mgt.powerOver) x.power }) s
    s'.capReport lowered

/-- THERMAL_TRIP (R424, R444): kind 0 a junction at 105 °C and kind 1 a column at 95 °C by the higher of its two sensors for 1 ms,
kind 2 the cold-plate outlet at 60 °C. -/
def doThermalTrip (kind unit reading other : Nat) (s : State) : State :=
  let lim := if kind = 0 then 105 else if kind = 1 then 95 else 60
  if s.mgt.powered = false ∨ 2 < kind ∨ (if kind = 1 then max reading other else reading) < lim ∨ s.mgt.tripped then s
  else
    let s :=
      if kind = 0 then (if unit < 80 then s.updRegion unit fun g => g.sense reading else s)
      else if kind = 1 then (if unit < 880 then s.sensePan unit reading other else s)
      else { s with mgt := { s.mgt with outlet := reading % 256 } }
    { s with mgt := { s.mgt with tripped := true } }.blackBox 2 0

/-! ### Cages (R451, R453) -/

/-- What the management region reads by CMIS becomes known; a module that is neither TC-series copper nor an active optical
cable keeps its link down with CAUSE 1. DEDUCED (log 79). -/
def State.cmis (s : State) (n media len : Nat) : State :=
  let s := { s with mgt := { s.mgt with cages := Tab.put none n (some (media, len % 65536)) s.mgt.cages } }
  if media = 3 ∧ (s.link n).state = .training ∧ s.working then s.stayDown n 1 else s

/-- CAGE_INSERTION (R451). -/
def doCageInsertion (n media len : Nat) (s : State) : State :=
  if 6 ≤ n ∨ media = 0 ∨ 3 < media ∨ (Tab.get none s.mgt.cages n).isSome then s
  else if s.mgt.powered = false then { s with mgt := { s.mgt with cages := Tab.put none n (some (media, len % 65536)) s.mgt.cages } }
  else (s.cmis n media len).alert 3

/-- CAGE_REMOVAL (R451). -/
def doCageRemoval (n : Nat) (s : State) : State :=
  if 6 ≤ n ∨ (Tab.get none s.mgt.cages n).isNone then s
  else
    let s := { s with mgt := { s.mgt with cages := Tab.put none n none s.mgt.cages } }
    if s.mgt.powered then s.alert 3 else s

/-- CMIS_POLL (R451): every second, of a cage that holds a module. -/
def doCmisPoll (n media len : Nat) (s : State) : State :=
  if 6 ≤ n ∨ media = 0 ∨ 3 < media ∨ s.mgt.powered = false ∨ (Tab.get none s.mgt.cages n).isNone then s else s.cmis n media len

/-- INPUT_DROOP (R422). -/
def execInputDroop (mv : Nat) (s : State) : Out := .next (doInputDroop mv s)
/-- INPUT_LOW (R441). -/
def execInputLow (mv : Nat) (s : State) : Out := .next (doInputLow mv s)
/-- INPUT_HIGH (R441). -/
def execInputHigh (mv : Nat) (s : State) : Out := .next (doInputHigh mv s)
/-- INPUT_IN_OPERATING_RANGE (R441). -/
def execInputInOperatingRange (mv : Nat) (s : State) : Out := .next (doInputInOperatingRange mv s)
/-- OVER_VOLTAGE_DISCONNECT (R441). -/
def execOverVoltageDisconnect (mv : Nat) (s : State) : Out := .next (doOverVoltageDisconnect mv s)
/-- MATE_LOOP_BREAK (R447). -/
def execMateLoopBreak (s : State) : Out := .next (doMateLoopBreak s)
/-- MATE_LOOP_CONTINUOUS (R447). -/
def execMateLoopContinuous (s : State) : Out := .next (doMateLoopContinuous s)
/-- THROTTLE_ASSERT (R444). -/
def execThrottleAssert (s : State) : Out := .next (doThrottleAssert s)
/-- THROTTLE_DEASSERT (R444). -/
def execThrottleDeassert (s : State) : Out := .next (doThrottleDeassert s)
/-- COLUMN_HOT (R444). -/
def execColumnHot (pos t0 t7 : Nat) (s : State) : Out := .next (doColumnHot pos t0 t7 s)
/-- FIELD_HOT (R444). -/
def execFieldHot (field : Nat) (column : Bool) (temp : Nat) (s : State) : Out := .next (doFieldHot field column temp s)
/-- POWER_OVER_LIMIT (R444). -/
def execPowerOverLimit (watts : Nat) (s : State) : Out := .next (doPowerOverLimit watts s)
/-- THERMAL_RELEASE (R444). -/
def execThermalRelease (kind unit reading other : Nat) (s : State) : Out :=
  .next (doThermalRelease kind unit reading other s)
/-- CAP_STEP (R444). -/
def execCapStep (s : State) : Out := .next (doCapStep s)
/-- THERMAL_TRIP (R444). -/
def execThermalTrip (kind unit reading other : Nat) (s : State) : Out :=
  .next (doThermalTrip kind unit reading other s)
/-- RAIL_LIMIT (R454). -/
def execRailLimit (rail mv : Nat) (s : State) : Out := .next (doRailLimit rail mv s)
/-- CAGE_INSERTION (R451). -/
def execCageInsertion (link media lengthCm : Nat) (s : State) : Out := .next (doCageInsertion link media lengthCm s)
/-- CAGE_REMOVAL (R451). -/
def execCageRemoval (link : Nat) (s : State) : Out := .next (doCageRemoval link s)
/-- CMIS_POLL (R451). -/
def execCmisPoll (link media lengthCm : Nat) (s : State) : Out := .next (doCmisPoll link media lengthCm s)

end Sys2Proof.Machine
end

