-- ==== Sys2Proof/Machine/Registers.lean ====
section
/-! DEFINITION. The registers of BAR0 (R5 to R9, R38): what each reads as, reads that clear or latch, and writes of the
registers without a row of their own. -/

namespace Sys2Proof.Machine

/-! ### What registers read as -/

/-- A register's value from its fields: lowest bit, width, value. -/
def pack (fs : List (Nat × Nat × Nat)) : Nat := fs.foldl (fun v f => v + f.2.2 % 2 ^ f.2.1 * 2 ^ f.1) 0

/-- A 32-bit and a 64-bit register of a map. -/
abbrev Reg := Bool × Nat
def r32 (v : Nat) : Option Reg := some (false, v)
def r64 (v : Nat) : Option Reg := some (true, v)

/-- Voltage of a rail, in mV (10 mV for rail 0), and its current in 10 mA, in steps of 25 W while an instance is
confidential (R397, R453, R457). -/
def State.railMv (s : State) (r : Nat) : Nat :=
  if s.mgt.stage = 0 then 0
  else if r = 0 then s.mgt.inputMv
  else
    let v := Tab.get 0 s.mgt.railMv r
    if v = 0 then Config.railVoltage r s.tb.count else v
/-- The mean of a rail's current over the last whole 1 s window, measured every millisecond (R397, R453). DESIGN CHOICE (log 14). -/
def railMean (r count : Nat) : Nat :=
  let w := count / 1000000000
  if w = 0 then 0 else ((List.range 1000).map fun k => Config.railCurrent r ((w - 1) * 1000000000 + k * 1000000)).sum / 1000

/-- A current in 10 mA cut to a whole multiple of what 25 W give at a voltage in mV (R397). DEDUCED (log 75). -/
def coarseCurrent (i mv : Nat) : Nat := i * mv / 2500000 * 2500000 / mv

def State.railMa (s : State) (r : Nat) : Nat :=
  if s.mgt.stage = 0 then 0
  else if s.anyConfid then coarseCurrent (railMean r s.tb.count) (if r = 0 then 10 * s.mgt.inputMv else s.railMv r)
  else Config.railCurrent r s.tb.count

/-- The input power shown, in W (R397, R457). -/
def State.shownWatts (s : State) : Nat := if s.anyConfid then s.mgt.windowW / 25 * 25 else s.mgt.inputW

/-- MGT_THERMAL (R397, R457). -/
def State.thermal (s : State) : Nat :=
  let j := if s.anyConfid then (s.mgt.hotField, s.mgt.hotJunction) else s.hotFieldNow
  let d := s.hotColumnNow
  pack [(0, 8, s.mgt.inlet), (8, 8, s.mgt.outlet), (16, 7, j.2), (23, 7, if s.fieldConfid j.1 then 0x7F else j.1), (30, 7, d.2),
        (37, 10, if s.fieldConfid (d.1 / 11) then 0x3FF else d.1)]

/-- Fields with a cap in force. -/
def State.cappedFields (s : State) : Nat := ((List.range 80).filter fun f => (s.capOf f).isSome).length

/-- The MGT block (R39, R70, R426, R457). DEDUCED (log 75). -/
def State.mgtReg (s : State) (o : Nat) : Option Reg :=
  let m := s.mgt
  match o with
  | 0x00 => r32 0xF880B000
  | 0x08 => r64 s.nvs.serial.toNat
  | 0x10 => r32 (pack [(0, 8, 0x50), (8, 4, 0xB), (16, 8, 0xE0)])
  | 0x14 => r32 (pack [(0, 6, 0x20), (8, 8, 0x18), (16, 16, 0x2155)])
  | 0x20 => r32 (pack [(0, 4, m.stage), (8, 8, m.failedStage)])
  | 0x100 => r32 0
  | 0x104 => r32 (pack [(0, 1, b2n !m.recBusy.isEmpty), (1, 1, b2n m.recDone), (2, 1, b2n m.recRefused), (8, 8, m.recResult),
                        (16, 5, s.fence.retired.length)])
  | 0x108 => r64 m.recAddr.toNat
  | 0x110 => r32 m.repair.toNat
  | 0x200 => r64 (pack [(0, 16, m.inputMv), (16, 16, s.shownWatts * 10000 / m.inputMv), (32, 16, s.shownWatts), (48, 1, b2n m.inputLow),
                        (49, 1, b2n m.inputHigh), (50, 1, b2n s.anyConfid)])
  | 0x208 => r32 m.railSel.toNat
  | 0x210 =>
    let r := m.railSel.toNat
    r64 (if 10 < r then 0 else pack [(0, 16, s.railMv r), (16, 16, s.railMa r), (32, 1, b2n (Tab.get false m.railSeen r))])
  | 0x218 => r64 s.thermal
  | 0x220 => r32 (pack [(0, 11, m.powerLimit.toNat), (16, 11, m.throttleRate.toNat)])
  | 0x224 =>
    let any (p : Caps → Bool) : Bool := (List.range 80).any fun f => p (s.field f).caps
    r32 (pack [(0, 1, b2n (s.panCtl.any fun e => e.2.hot)), (1, 1, b2n (any fun c => c.thermal.isSome)),
               (2, 1, b2n (any fun c => c.power.isSome)), (3, 1, b2n m.pin), (4, 1, b2n m.tripped), (8, 7, s.cappedFields),
               (16, 16, m.capsCount)])
  | 0x228 => r32 m.alert.toNat
  | _ => none

/-- ADM_FLOOR_RATE: the least floor over the fields with a position in service, and the lowest such field. -/
def State.leastFloor (s : State) : Nat × Nat :=
  let l := ((List.range 80).filter fun f => (List.range 11).any fun k => s.posCode (11 * f + k) = 0).map fun f => (f, (s.region f).floor)
  l.foldl (fun m x => if x.2 < m.2 then x else m) (l.headD (0, 0))

/-- KEEPER of ADM_FIELD_RATE. -/
def State.keeper (s : State) (f : Nat) : Nat :=
  let t := s.zen.rateTarget f
  if t = 0 then 0
  else if (s.capOf f).isSome then 3
  else if (s.region f).rate < t ∧ s.zen.vCeiling f ≤ (s.region f).mv then 2
  else 1

/-- ADM_FIELD_RATE (R355). -/
def State.fieldRate (s : State) (f : Nat) : Nat :=
  let g := s.region f
  let c := s.fieldConfid f
  let z (v : Nat) : Nat := if c then 0 else v
  if 80 ≤ f then 0
  else
    pack [(0, 16, z g.rate), (16, 16, if c then g.floor / 50 * 50 else g.floor), (32, 10, z g.mv), (42, 7, z (if s.anyConfid then g.tempAvg else g.temp)),
          (49, 2, s.keeper f), (51, 1, b2n c)]

/-- ADM_INST_COMMIT (R355). -/
def State.instCommit (s : State) (i : Nat) : Nat :=
  let js := s.jobs.filter fun j => j.inst = i && j.phase ≠ .undecided
  let n (c : Nat) : Nat := (js.filter fun j => j.cls = c).length
  if s.confid i then 0 else pack [(0, 16, n 1), (16, 16, n 2), (32, 16, n 3), (48, 15, (js.map Job.contexts).sum)]

/-- ADM_VAR_ENTRY (R239). -/
def State.varEntry (s : State) (x : Nat) : Nat :=
  let e := s.entry x
  let c := e.state ≠ .free && s.confid e.inst
  pack [(0, 4, if c then 0xF else e.state.code), (4, 1, b2n e.fork), (5, 2, e.slot), (7, 6, e.inst), (13, 8, e.gen), (21, 1, b2n c),
        (24, 15, if c then 0 else e.pins), (40, 14, if c then 0 else e.frames.length)]

/-- ADM_VAR_COUNTS (R239). -/
def State.varCounts (s : State) : Nat :=
  pack [(0, 17, (s.cat.filter fun e => e.2.state ≠ .free).length), (20, 17, (s.cat.filter fun e => e.2.state = .stale).length),
        (48, 15, (s.cat.filter fun e => !e.2.frames.isEmpty).length)]

/-- ADM_TRAIN_ENTRY (R273). -/
def State.trainEntry (s : State) (x : Nat) : Nat :=
  let t := s.train1 x
  let r := s.recBytes x
  let c := s.confid t.inst
  let z (v : Nat) : Nat := if c then 0 else v
  if t.isOpen = false then 0
  else
    pack [(0, 3, if c then 7 else leAt r 4 1), (3, 1, b2n (recSlow r)), (4, 3, recLag r), (7, 1, b2n (recLong r)), (8, 6, t.inst),
          (14, 1, b2n c), (16, 32, z (leAt r 8 4)), (48, 8, z (leAt r 0x20 1)),
          (56, 8, z ((s.upd.queue ++ s.upd.run.toList).filter fun u => u.index = x).length)]

/-- Open records of a tier. -/
def State.openTier (s : State) (slow : Bool) : Nat := (s.train.filter fun e => e.2.isOpen && (recSlow (s.recBytes e.1) == slow)).length

/-- The ADM block (R239, R273, R355). -/
def State.admReg (s : State) (o : Nat) : Option Reg :=
  let a := s.adm
  match o with
  | 0x00 => r32 a.quantum.toNat
  | 0x04 => r32 (pack [(0, 16, a.late), (16, 12, a.lastLatency)])
  | 0x08 => r32 (pack [(0, 12, 0x7D0), (12, 12, 0x5DC), (24, 7, a.tjCap)])
  | 0x0C => r32 (pack [(0, 16, s.leastFloor.2), (16, 7, s.leastFloor.1)])
  | 0x10 => r32 a.fieldSel.toNat
  | 0x18 => r64 (s.fieldRate a.fieldSel.toNat)
  | 0x20 => r32 a.instSel.toNat
  | 0x28 => r64 (s.instCommit a.instSel.toNat)
  | 0x30 => r64 (pack [(0, 32, (s.inst a.instSel.toNat).breaches), (32, 32, (s.inst a.instSel.toNat).overruns)])
  | 0x38 => r64 (pack [(0, 32, a.accepts), (32, 32, a.refusals)])
  | 0x40 => r32 (pack [(9, 1, b2n !a.recalQueue.isEmpty), (10, 1, b2n a.recalDone)])
  | 0x4000 => r32 a.varSel.toNat
  | 0x4008 => r64 (s.varEntry a.varSel.toNat)
  | 0x4010 => r64 s.varCounts
  | 0x4018 => r32 (pack [(0, 16, a.pageIns), (16, 16, a.evictions)])
  | 0x4020 => r32 a.varInstSel.toNat
  | 0x4028 =>
    let i := a.varInstSel.toNat
    r64 (pack [(0, 24, s.totalFrames i), (32, 24, if s.confid i then 0 else s.totalFrames i - (s.usedFrames i).length)])
  | 0x4100 => r64 (pack [(0, 9, s.openTier false), (16, 13, s.openTier true), (32, 16, a.skips), (48, 16, a.persistent)])
  | 0x4108 => r32 a.trainSel.toNat
  | 0x4110 => r64 (s.trainEntry a.trainSel.toNat)
  | _ => none

/-- Instance state codes (R377). -/
def InstState.code : InstState → Nat
  | .none => 0 | .active => 1 | .draining => 2 | .squashing => 3 | .retired => 4 | .adopting => 5

/-- HPn_INST_STATUS (R377). -/
def State.instStatus (s : State) (n i : Nat) : Nat :=
  let x := s.inst i
  let c := s.confid i
  let z (v : Nat) : Nat := if c then 0 else v
  let undecided := (s.jobs.filter fun j => j.inst = i && j.phase = .undecided).length
  pack [(0, 3, x.state.code), (3, 1, b2n (s.pageOn n i)), (4, 2, x.tdi), (6, 1, b2n c), (8, 8, z undecided),
        (16, 7, z ((x.slots.filter fun e => e.2.use ≠ .empty).length)), (32, 32, z x.nextSeq)]

/-- The HPn block (R377). -/
def State.hpReg (s : State) (n o : Nat) : Option Reg :=
  let p := s.port n
  match o with
  | 0x00 =>
    let ide := (s.zen.insts.filter fun r => s.pageOn n r.inst && (s.inst r.inst).ideKey.isSome).length
    r32 (pack [(0, 3, p.speed), (3, 1, b2n p.flit), (4, 4, p.width), (8, 1, b2n p.linkIde.isSome), (9, 7, ide), (16, 1, b2n p.ats)])
  | 0x04 => r32 (pack [(8, 1, b2n p.refused)])
  | 0x08 => r32 p.select.toNat
  | 0x10 => r64 (s.instStatus n p.select.toNat)
  | 0x18 => r64 (pack [(0, 16, p.intakeDiscarded), (16, 16, p.badRelease), (32, 16, p.mboxDropped), (48, 16, p.wrongPort)])
  | _ => none

/-- The SEC block (R403). -/
def State.secReg (s : State) (o : Nat) : Option Reg :=
  let x := s.sec
  match o with
  | 0x00 =>
    r32 (pack [(0, 1, b2n x.busy), (1, 1, b2n x.opKey.isSome), (2, 1, b2n s.keyPending), (3, 1, b2n x.debugOpen),
               (4, 1, b2n s.anyConfid), (5, 1, b2n x.rngFail), (8, 5, x.unlocks), (16, 16, x.inspectRefused)])
  | 0x04 => r32 0
  | 0x08 => r32 (pack [(0, 1, b2n x.done), (1, 1, b2n x.refused), (8, 8, x.result), (16, 16, x.length)])
  | 0x10 => r64 x.inAddr.toNat
  | 0x18 => r64 x.outAddr.toNat
  | 0x20 => r64 x.insts.toNat
  | 0x28 => r32 x.inLen.toNat
  | 0x40 => r64 (leAt (leBytes 32 x.challenge.toNat) 0 8)
  | 0x48 => r64 (leAt (leBytes 32 x.challenge.toNat) 8 8)
  | 0x50 => r64 (leAt (leBytes 32 x.challenge.toNat) 16 8)
  | 0x58 => r64 (leAt (leBytes 32 x.challenge.toNat) 24 8)
  | _ => none

/-- Debug-stop state codes (R439). -/
def StopState.code : StopState → Nat
  | .idle => 0 | .armed => 1 | .stopping => 2 | .stopped => 3

/-- The OBS block (R439). -/
def State.obsReg (s : State) (o : Nat) : Option Reg :=
  let b := s.obs
  let unit := fld b.ringSel 15 0
  let entry := fld b.ringSel 28 16
  match o with
  | 0x00 => r32 (pack [(0, 1, b2n b.armed), (1, 1, b2n b.valid), (2, 1, b2n b.refused), (8, 24, b.seq)])
  | 0x08 => r64 b.freezeTb.toNat
  | 0x10 => r64 b.stopTb.toNat
  | 0x18 => r64 b.stopFields.toNat
  | 0x20 => r32 (pack [(0, 16, b.fieldsHi.toNat), (16, 1, b2n b.global)])
  | 0x24 => r32 (pack [(0, 2, b.stop.code), (2, 1, b2n b.overflow)])
  | 0x28 => r32 b.cntSel.toNat
  | 0x30 => r64 (s.shown s.bank (fld b.cntSel 15 0) (fld b.cntSel 23 16)).toNat
  | 0x38 => r64 (s.shown b.frozen (fld b.cntSel 15 0) (fld b.cntSel 23 16)).toNat
  | 0x40 => r32 b.ringSel.toNat
  | 0x44 => r32 ((s.ringOf unit).events % 2 ^ 32)
  | 0x48 => r64 (if entry < ringDepth unit then leAt (Tab.get [] (s.ringOf unit).recs entry) 0 8 else 0)
  | 0x50 => r64 b.ringHi.toNat
  | 0x58 => r32 b.resSel.toNat
  | 0x5C => r32 (pack [(0, 13, b.residue.length), (16, 13, b.confResidue)])
  | 0x60 => r64 (leAt (b.residue.getD b.resSel.toNat []) 0 8)
  | 0x68 => r64 b.resHi.toNat
  | _ => none

/-- The TB block (R356). -/
def State.tbReg (s : State) (o : Nat) : Option Reg :=
  match o with
  | 0x00 => r64 (s.tb.count % 2 ^ 64)
  | 0x08 => r32 (s.tb.slew % 2 ^ 19).toNat
  | 0x0C => r32 (pack [(0, 1, b2n s.tb.locked), (1, 1, b2n s.tb.holdover), (2, 1, b2n s.tb.refLost), (8, 4, s.tb.skew)])
  | 0x10 => r64 s.tb.epoch.toNat
  | _ => none

/-- The NVS block (R68). PARTIALS shows the count modulo 64: R68 puts no limit on it. DESIGN CHOICE (log 92). -/
def State.nvsReg (s : State) (o : Nat) : Option Reg :=
  let n := s.nvs
  match o with
  | 0x00 => r32 0
  | 0x04 => r32 (pack [(0, 1, b2n n.op.isSome), (1, 1, b2n n.refused), (2, 1, b2n n.staged.isSome), (8, 8, n.result)])
  | 0x08 => r64 n.srcAddr.toNat
  | 0x10 => r32 n.srcLen.toNat
  | 0x14 => r32 (pack [(0, 2, n.boot), (2, 6, n.partials.length), (16, 16, if n.full.isEmpty then 0 else zSequence n.full)])
  | 0x18 => r32 (pack [(0, 16, n.cycSlotA), (16, 16, n.cycSlotB)])
  | 0x1C => r32 (pack [(0, 16, n.cycCal), (16, 16, n.cycFence)])
  | 0x20 => r32 (pack [(0, 16, n.cycBox), (16, 16, n.cycIdent)])
  | _ => none

/-- STATE of THR_STREAM_STATUS (R312). -/
def State.streamState (s : State) : Nat :=
  match s.thr.stream with
  | none => 0
  | some x => if x.source.isNone then (if x.cut then 3 else 2) else if x.consuming then 1 else 3

/-- One byte of THR_SLOT_STATE (R238). -/
def State.slotByte (s : State) (k : Nat) : Nat :=
  let x := s.slot k
  pack [(0, 3, x.state.code), (3, 1, b2n (s.isFork k)), (4, 2, x.redirect.getD 0), (6, 1, b2n x.redirect.isSome)]

/-- The THR block (R238, R312). -/
def State.thrReg (s : State) (o : Nat) : Option Reg :=
  let t := s.thr
  match o with
  | 0x00 => r32 0
  | 0x04 => r32 (pack [(0, 3, s.streamState), (8, 2, t.sSlot), (16, 8, t.sResult), (24, 1, b2n t.sDone)])
  | 0x08 => r64 t.srcAddr.toNat
  | 0x10 => r64 t.srcLen.toNat
  | 0x18 => r64 t.placeAddr.toNat
  | 0x20 => r32 t.placeLen.toNat
  | 0x28 => r64 t.sBytes
  | 0x2000 => r32 0
  | 0x2004 => r32 (pack [(0, 1, b2n t.cmd.isSome), (1, 1, b2n t.refused), (2, 1, b2n t.done), (8, 8, t.result)])
  | 0x2008 => r32 (pack ((List.range 4).map fun k => (8 * k, 8, s.slotByte k)))
  | 0x2010 =>
    r64 (pack ((List.range 4).map fun k => (16 * k, 16, (s.jobs.filter fun j => j.phase ≠ .undecided && j.slot = k).length)))
  | _ =>
    if 0x2100 ≤ o ∧ o < 0x2200 ∧ o % 8 = 0 then
      r64 (leAt (digestBytes (s.slot ((o - 0x2100) / 64)).shown) ((o - 0x2100) % 64) 8)
    else none

/-- Link state codes (R311). -/
def LinkState.code : LinkState → Nat
  | .disabled => 0 | .training => 1 | .up => 2 | .downRetrying => 3

/-- The TLn block (R311). -/
def State.tlReg (s : State) (n o : Nat) : Option Reg :=
  let l := s.link n
  match o with
  | 0x00 => r32 (pack [(1, 1, b2n l.disable)])
  | 0x04 =>
    r32 (pack [(0, 3, l.state.code), (3, 1, b2n l.spread), (4, 4, l.cause),
               (8, 8, (l.sessions.filter fun x => x.inst ≠ 255 && x.live).length)])
  | 0x08 => r64 (if l.state = .up then l.partnerSerial.toNat else 0)
  | 0x10 => r32 l.partnerCap.toNat
  | 0x14 => r32 (pack [(0, 2, s.media n), (2, 10, l.delay), (16, 16, l.length)])
  | 0x18 => r64 (pack [(0, 16, l.fecUncorrected), (16, 16, l.replays), (32, 16, l.authFail), (48, 16, l.noSession)])
  | _ => none

/-- UE_24H: uncorrectable blocks found in the last 24 hours (R427). -/
def State.ue24h (s : State) (m : MemCtl) : Nat := (m.ueAt.filter fun t => s.tb.count < t + 86400000000000).length

/-- PAN_ERR, and GRN_ERR (R427). -/
def memErr (m : MemCtl) : Nat := pack [(0, 16, m.corrected), (16, 8, m.uncorrected), (24, 8, m.rebuilt)]

/-- The GRN block (R274, R427). -/
def State.grnReg (s : State) (o : Nat) : Option Reg :=
  let m := Tab.get {} s.granCtl (o / 0x8000)
  let refresh := s.train.any fun e => e.2.refreshTo.isSome
  let busy := b2n (s.upd.run.isSome || refresh)
  if o % 0x8000 = 0 then r32 (memErr m)
  else if o % 0x8000 = 4 then
    r32 (pack [(1, 1, b2n m.retraining), (8, 8, s.ue24h m), (16, 16, m.scrubPasses)])
  else
    match o with
    | 0x1000 => r32 (pack [(0, 15, s.upd.queue.length), (16, 1, busy), (17, 1, busy), (18, 1, b2n refresh)])
    | 0x1004 => r32 (s.updateBacklog / 1000 % 2 ^ 32)
    | 0x1008 => r64 (pack [(0, 32, s.upd.applied), (32, 32, s.upd.skipped)])
    | _ => none

/-- The PAN block of a position (R427). -/
def State.panReg (s : State) (p o : Nat) : Option Reg :=
  let m := Tab.get {} s.panCtl p
  match o with
  | 0x00 => r32 (memErr m)
  | 0x04 =>
    r32 (pack [(0, 1, b2n (s.fence.retired.contains p)), (1, 1, b2n m.retraining), (8, 8, s.ue24h m), (16, 16, m.scrubPasses)])
  | _ => none

/-- FLDnn_SEM_COUNT of a physical semaphore (R328). -/
def State.semReg (s : State) (k : Nat) : Nat :=
  let owner := s.zen.sems.find? fun r => decide (r.field * 4096 + r.pbase ≤ k) && decide (k < r.field * 4096 + r.pbase + r.count)
  let i := (owner.map (·.inst)).getD 0
  let c := owner.isSome && s.confid i
  pack [(0, 24, if c then 0 else (Tab.get 0 s.sem k).toNat), (24, 6, i), (30, 1, b2n owner.isSome), (31, 1, b2n c)]

/-- The FLDnn block (R40, R328). -/
def State.fldReg (s : State) (f o : Nat) : Option Reg :=
  let x := s.field f
  let z (v : Nat) : Nat := if s.fieldConfid f then 0 else v
  match o with
  | 0x00 => r64 (s.posMap f)
  | 0x08 => r32 (s.posState f)
  | 0x100 => r32 x.semSelect.toNat
  | 0x104 => r32 (s.semReg (f * 4096 + x.semSelect.toNat))
  | 0x108 =>
    let waiters := (s.semWaiters.filter fun w => w.phys / 4096 = f).length
    r32 (pack [(0, 10, z waiters), (16, 10, z x.semPeak)])
  | 0x110 => r64 (pack [(0, 16, x.saturated), (16, 16, x.clamped), (32, 32, z x.semOps)])
  | _ => none

/-- STATE of COR_STATE; of a confidential instance 0 to 4 read as 1 (R112, R396). -/
def State.corState (s : State) (p : Nat) : Nat :=
  let c := s.core p
  if s.fenced p then 6
  else if s.posCode p = 1 then 7
  else if c.act = .faulted then 5
  else if s.fieldConfid (p / 11) then 1
  else if (s.region (p / 11)).held.any fun k => k = 1 || k = 2 then 4
  else
    match c.act with
    | .idle => 0
    | .running => 1
    | .waiting => 2
    | _ => 3

/-- Writes of an engine not acknowledged. -/
def CopyEng.unacked (e : CopyEng) : Nat := (e.act.map (·.outstanding)).sum

/-- The COR block of a position (R112). -/
def State.corReg (s : State) (p o : Nat) : Option Reg :=
  let c := s.core p
  let conf := s.fieldConfid (p / 11)
  let z (v : Nat) : Nat := if conf then 0 else v
  match o with
  | 0x00 =>
    r32 (pack [(0, 3, s.corState p), (4, 4, if s.posCode p = 0 then (s.logicalOf p).getD 0xF else 0xF),
               (8, 8, (s.fieldInst (p / 11)).getD 0xFF), (16, 1, b2n conf)])
  | 0x04 => r32 (b2n c.retain)
  | 0x08 => r64 (z (pack [(0, 32, c.planCount), (32, 16, c.taskId)]))
  | 0x10 => r64 (pack [(0, 8, c.fault.cause), (8, 4, c.fault.unit), (12, 20, z c.fault.idx), (32, 32, z c.fault.detail)])
  | 0x18 => r32 (z c.sticky.toNat)
  | 0x1C => r32 (pack [(0, 16, c.corrected), (16, 8, c.uncorrected), (24, 4, c.lastBank)])
  | 0x20 => r32 (pack [(16, 16, c.march.banks.toNat)])
  | 0x24 =>
    r32 (pack [(0, 1, b2n (c.march.busy ≠ 0)), (1, 1, b2n c.march.done), (2, 1, b2n c.march.fail), (3, 1, b2n c.march.refused),
               (4, 4, c.march.firstBank), (8, 16, c.march.failLines)])
  | 0x28 =>
    r32 (z (pack [(0, 4, c.ce0.queue.length), (4, 9, c.ce0.unacked), (16, 4, c.ce1.queue.length), (20, 9, c.ce1.unacked)]))
  | _ => none

/-- The register that starts at an offset of BAR0 (R38): whether it has 64 bits, and its value. -/
def State.regAt (s : State) (off : Nat) : Option Reg :=
  let blk := off / 0x10000
  let o := off % 0x10000
  if blk = 0 then (if s.mgt.mgtFwDown then none else s.mgtReg o)
  else if blk = 1 then s.admReg o
  else if blk = 2 ∨ blk = 3 then s.hpReg (blk - 2) o
  else if blk = 4 then s.secReg o
  else if blk = 5 then (if s.mgt.mgtFwDown then none else s.obsReg o)
  else if blk = 6 then s.tbReg o
  else if blk = 7 then s.nvsReg o
  else if blk = 8 then s.thrReg o
  else if 9 ≤ blk ∧ blk ≤ 14 then s.tlReg (blk - 9) o
  else if blk = 15 then s.grnReg o
  else if 0x1000000 ≤ off ∧ off < 0x1370000 then s.panReg ((off - 0x1000000) / 0x1000) (off % 0x1000)
  else if 0x2000000 ≤ off ∧ off < 0x2500000 then s.fldReg ((off - 0x2000000) / 0x10000) o
  else if 0x3000000 ≤ off ∧ off < 0x3370000 then s.corReg ((off - 0x3000000) / 0x1000) (off % 0x1000)
  else none

/-- Whether the block at an offset answers: all of BAR0, or MGT, SEC, TB and NVS alone after a halted start-up (R72).
DEDUCED (log 34). -/
def State.answers (s : State) (off : Nat) : Bool :=
  s.bar0 && (!s.mgt.halted || [0, 4, 6, 7].contains (off / 0x10000))

/-- What a whole read of a register returns; reserved and unassigned offsets read zero (R6). -/
def State.regRead (s : State) (off : Nat) : Word :=
  if s.answers off then BitVec.ofNat 64 (((s.regAt off).map (·.2)).getD 0) else 0

/-! ### Reads that clear (R7) -/

/-- The RC fields of a register are cleared. DEDUCED (log 76). -/
def State.clearRc (s : State) (off : Nat) : State :=
  let blk := off / 0x10000
  let o := off % 0x10000
  if blk = 0 ∧ o = 0x224 then { s with mgt := { s.mgt with capsCount := 0 } }
  else if blk = 1 ∧ o = 0x04 then { s with adm := { s.adm with late := 0 } }
  else if blk = 1 ∧ o = 0x38 then { s with adm := { s.adm with accepts := 0, refusals := 0 } }
  else if blk = 1 ∧ o = 0x4018 then { s with adm := { s.adm with pageIns := 0, evictions := 0 } }
  else if blk = 1 ∧ o = 0x4100 then { s with adm := { s.adm with skips := 0, persistent := 0 } }
  else if (blk = 2 ∨ blk = 3) ∧ o = 0x18 then
    s.updPort (blk - 2) fun p => { p with intakeDiscarded := 0, badRelease := 0, mboxDropped := 0, wrongPort := 0 }
  else if blk = 4 ∧ o = 0 then { s with sec := { s.sec with inspectRefused := 0 } }
  else if 9 ≤ blk ∧ blk ≤ 14 ∧ o = 0x18 then
    s.updLink (blk - 9) fun l => { l with fecUncorrected := 0, replays := 0, authFail := 0, noSession := 0 }
  else if blk = 15 ∧ o = 0x1008 then { s with upd := { s.upd with applied := 0, skipped := 0 } }
  else if blk = 15 ∧ o % 0x8000 = 0 then s.updGran (o / 0x8000) fun m => { m with corrected := 0, uncorrected := 0, rebuilt := 0 }
  else if 0x1000000 ≤ off ∧ off < 0x1370000 ∧ off % 0x1000 = 0 then
    s.updPan ((off - 0x1000000) / 0x1000) fun m => { m with corrected := 0, uncorrected := 0, rebuilt := 0 }
  else if 0x2000000 ≤ off ∧ off < 0x2500000 ∧ o = 0x108 then
    s.updField ((off - 0x2000000) / 0x10000) fun x => { x with semPeak := 0 }
  else if 0x2000000 ≤ off ∧ off < 0x2500000 ∧ o = 0x110 then
    s.updField ((off - 0x2000000) / 0x10000) fun x => { x with saturated := 0, clamped := 0, semOps := 0 }
  else if 0x3000000 ≤ off ∧ off < 0x3370000 ∧ off % 0x1000 = 0x1C then
    s.updCore ((off - 0x3000000) / 0x1000) fun c => { c with corrected := 0, uncorrected := 0 }
  else s

/-- A whole read of a register with RC fields: its value is returned and they are cleared in the same access (R7). -/
def State.readRc (s : State) (off : Nat) : State :=
  let v := s.regRead off
  let s' := if s.answers off && (s.regAt off).isSome then s.clearRc off else s
  { s' with readData := v }

/-- The RC fields of a 64-bit register's upper half are cleared. DEDUCED (log 76). -/
def State.clearRcHi (s : State) (off : Nat) : State :=
  let blk := off / 0x10000
  let o := off % 0x10000
  if blk = 1 ∧ o = 0x38 then { s with adm := { s.adm with refusals := 0 } }
  else if blk = 1 ∧ o = 0x4100 then { s with adm := { s.adm with skips := 0, persistent := 0 } }
  else if (blk = 2 ∨ blk = 3) ∧ o = 0x18 then s.updPort (blk - 2) fun p => { p with mboxDropped := 0, wrongPort := 0 }
  else if 9 ≤ blk ∧ blk ≤ 14 ∧ o = 0x18 then s.updLink (blk - 9) fun l => { l with authFail := 0, noSession := 0 }
  else if blk = 15 ∧ o = 0x1008 then { s with upd := { s.upd with skipped := 0 } }
  else if 0x2000000 ≤ off ∧ off < 0x2500000 ∧ o = 0x110 then
    s.updField ((off - 0x2000000) / 0x10000) fun x => { x with semOps := 0 }
  else s

/-- What a 32-bit read of a 64-bit register does beside returning its half: a read of OBS_RING_LO or OBS_RESIDUE_LO latches the
companion, any other clears RC fields (R7, R439); the lower half's read clears those of both halves, since it latches the upper
one. DEDUCED (log 76). -/
def State.halfTaken (s : State) (off : Nat) (hi : Bool) : State :=
  if off = 0x50048 then doObsRingLoRead s
  else if off = 0x50060 then doObsResidueLoRead s
  else if hi then s.clearRcHi off
  else s.clearRc off

/-- A read of the lower half of a 64-bit register: the upper half is latched for its next read (R5). -/
def State.readLower (s : State) (off v : Nat) : State :=
  let s := s.halfTaken off false
  { s with
    readData := BitVec.ofNat 64 (v % 2 ^ 32)
    halves := { s.halves with readHi := Tab.put none off (some (BitVec.ofNat 32 (v / 2 ^ 32))) s.halves.readHi } }

/-- A read of the upper half: the latched value, once, else the current upper half (R5). Only this read consumes a latched half.
DESIGN CHOICE (log 91). -/
def State.readUpper (s : State) (off v : Nat) : State :=
  match Tab.get none s.halves.readHi off with
  | some x =>
    { s with readData := x.setWidth 64, halves := { s.halves with readHi := Tab.put none off none s.halves.readHi } }
  | none => { s.halfTaken off true with readData := BitVec.ofNat 64 (v / 2 ^ 32) }

/-- LOWER_HALF_READ (R5): a 32-bit read at an offset of BAR0: of the lower or of the upper half of a 64-bit register, or of a
32-bit register whole. DEDUCED (log 76). -/
def doLowerHalfRead (off : Nat) (s : State) : State :=
  if s.answers off = false then { s with readData := 0 }
  else
    match s.regAt off, s.regAt (off - 4) with
    | some (true, v), _ => s.readLower off v
    | some (false, _), _ => s.readRc off
    | none, some (true, v) => if off % 8 = 4 then s.readUpper (off - 4) v else { s with readData := 0 }
    | none, _ => { s with readData := 0 }

/-! ### Writes (R5 to R7) -/

/-- Whether a write to the block at an offset is taken (R72, R421, R424). DEDUCED (log 34). -/
def State.takesWrite (s : State) (off : Nat) : Bool :=
  s.answers off && s.working && (!s.mgt.mgtFwDown || !(off / 0x10000 = 0 || off / 0x10000 = 5))

/-- The value a field takes from bit `lo` of a written value. -/
def wfld (v : Word) (w lo : Nat) : BitVec w := BitVec.ofNat w (v.toNat >>> lo)

/-- Write-one-to-clear. -/
def w1c (v : Word) (b : Nat) (old : Bool) : Bool := old && !bit v.toNat b

/-- TB_SLEW clamps to ±200,000 (R356). -/
def slewOf (v : Word) : Int := max (-200000) (min 200000 (sext 19 v.toNat))

/-- A write of a 32-bit register of the blocks MGT to NVS; one whose write has a row of its own is left to that row.
DESIGN CHOICE (log 5). -/
def State.write32 (s : State) (off : Nat) (v : Word) : State :=
  match off with
  | 0x00104 => { s with mgt := { s.mgt with recDone := w1c v 1 s.mgt.recDone, recRefused := w1c v 2 s.mgt.recRefused } }
  | 0x00110 => { s with mgt := { s.mgt with repair := wfld v 10 0 } }
  | 0x00208 => { s with mgt := { s.mgt with railSel := wfld v 4 0 } }
  | 0x00220 => { s with mgt := { s.mgt with powerLimit := wfld v 11 0, throttleRate := wfld v 11 16 } }
  | 0x00228 => { s with mgt := { s.mgt with alert := s.mgt.alert &&& ~~~(wfld v 5 0) } }
  | 0x10000 => { s with adm := { s.adm with quantum := wfld v 8 0 } }
  | 0x10008 => { s with adm := { s.adm with tjCap := max 70 (min 104 (wfld v 7 24).toNat) } }
  | 0x10010 => { s with adm := { s.adm with fieldSel := wfld v 7 0 } }
  | 0x10020 => { s with adm := { s.adm with instSel := wfld v 6 0 } }
  | 0x10040 => if bit v.toNat 7 then s else { s with adm := { s.adm with recalDone := w1c v 10 s.adm.recalDone } }
  | 0x14000 => { s with adm := { s.adm with varSel := wfld v 16 0 } }
  | 0x14020 => { s with adm := { s.adm with varInstSel := wfld v 6 0 } }
  | 0x14108 => { s with adm := { s.adm with trainSel := wfld v 13 0 } }
  | 0x20004 => if bits v.toNat 7 6 = 1 ∨ bits v.toNat 7 6 = 2 then s else s.updPort 0 fun p => { p with refused := w1c v 8 p.refused }
  | 0x30004 => if bits v.toNat 7 6 = 1 ∨ bits v.toNat 7 6 = 2 then s else s.updPort 1 fun p => { p with refused := w1c v 8 p.refused }
  | 0x20008 => s.updPort 0 fun p => { p with select := wfld v 6 0 }
  | 0x30008 => s.updPort 1 fun p => { p with select := wfld v 6 0 }
  | 0x40008 => { s with sec := { s.sec with done := w1c v 0 s.sec.done, refused := w1c v 1 s.sec.refused } }
  | 0x40028 => { s with sec := { s.sec with inLen := wfld v 12 0 } }
  | 0x50000 => { s with obs := { s.obs with refused := w1c v 2 s.obs.refused } }
  | 0x50020 => if bit v.toNat 17 ∨ bit v.toNat 18 then s else s.stopCtrl (v.setWidth 32)
  | 0x50028 => { s with obs := { s.obs with cntSel := wfld v 24 0 } }
  | 0x50040 => { s with obs := { s.obs with ringSel := wfld v 29 0 } }
  | 0x50058 => { s with obs := { s.obs with resSel := wfld v 12 0 } }
  | 0x60008 => { s with tb := { s.tb with slew := slewOf v } }
  | 0x6000C => { s with tb := { s.tb with refLost := w1c v 2 s.tb.refLost } }
  | 0x70000 =>
    if s.nvs.op.isSome ∧ (bits v.toNat 3 0 = 0 ∨ 4 < bits v.toNat 3 0) then { s with nvs := { s.nvs with refused := true } } else s
  | 0x70004 => { s with nvs := { s.nvs with refused := w1c v 1 s.nvs.refused } }
  | 0x70010 => { s with nvs := { s.nvs with srcLen := wfld v 22 0 } }
  | 0x80004 => { s with thr := { s.thr with sDone := w1c v 24 s.thr.sDone } }
  | 0x80020 => { s with thr := { s.thr with placeLen := wfld v 20 0 } }
  | 0x82004 => { s with thr := { s.thr with refused := w1c v 1 s.thr.refused, done := w1c v 2 s.thr.done } }
  | _ =>
    if 0x2000000 ≤ off ∧ off < 0x2500000 ∧ off % 0x10000 = 0x100 then
      s.updField ((off - 0x2000000) / 0x10000) fun x => { x with semSelect := wfld v 12 0 }
    else if 0x3000000 ≤ off ∧ off < 0x3370000 ∧ off % 0x1000 = 0x20 ∧ (v.toNat % 4 = 0 ∨ v.toNat % 4 = 3) then
      s.updCore ((off - 0x3000000) / 0x1000) fun c => { c with march := { c.march with banks := wfld v 16 16 } }
    else if 0x3000000 ≤ off ∧ off < 0x3370000 ∧ off % 0x1000 = 0x24 then
      s.updCore ((off - 0x3000000) / 0x1000) fun c =>
        { c with march := { c.march with done := w1c v 1 c.march.done, refused := w1c v 3 c.march.refused } }
    else s

/-- The 64-bit registers that software writes without a row of their own, with their current value. -/
def State.reg64 (s : State) (off : Nat) : Option Word :=
  match off with
  | 0x00108 => some s.mgt.recAddr
  | 0x00210 => some 0
  | 0x40010 => some s.sec.inAddr
  | 0x40018 => some s.sec.outAddr
  | 0x40020 => some s.sec.insts
  | 0x50010 => some s.obs.stopTb
  | 0x50018 => some s.obs.stopFields
  | 0x60010 => some s.tb.epoch
  | 0x70008 => some s.nvs.srcAddr
  | 0x80008 => some s.thr.srcAddr
  | 0x80010 => some (s.thr.srcLen.setWidth 64)
  | 0x80018 => some s.thr.placeAddr
  | _ => none

/-- A completed write of a 64-bit register; one whose address names the memory of a host keeps the port (R360). -/
def State.write64 (s : State) (port off : Nat) (v : Word) : State :=
  match off with
  | 0x00108 => { s with mgt := { s.mgt with recAddr := v } }
  | 0x00210 =>
    let r := s.mgt.railSel.toNat
    { s with mgt := { s.mgt with railSeen := Tab.put false r (w1c v 32 (Tab.get false s.mgt.railSeen r)) s.mgt.railSeen } }
  | 0x40010 => { s with sec := { s.sec with inAddr := v } }
  | 0x40018 => { s with sec := { s.sec with outAddr := v } }
  | 0x40020 => { s with sec := { s.sec with insts := v } }
  | 0x50010 => { s with obs := { s.obs with stopTb := v } }
  | 0x50018 => { s with obs := { s.obs with stopFields := v } }
  | 0x60010 => { s with tb := { s.tb with epoch := v } }
  | 0x70008 => { s with nvs := { s.nvs with srcAddr := v } }
  | 0x80008 => { s with thr := { s.thr with srcAddr := v } }
  | 0x80010 => { s with thr := { s.thr with srcLen := wfld v 40 0 } }
  | 0x80018 => { s with thr := { s.thr with placeAddr := v, placePort := port } }
  | _ => s

/-- REGISTER_WRITE (R5 to R7): `size` 4 or 8 bytes at an offset of BAR0, through a port. DEDUCED (log 76). -/
def doRegisterWrite (port off size : Nat) (v : Word) (s : State) : State :=
  if s.takesWrite off = false ∨ 2 ≤ port ∨ (size ≠ 4 ∧ size ≠ 8) ∨ off % size ≠ 0 then s
  else
    let base := off / 8 * 8
    match s.reg64 base with
    | some cur =>
      let w := s.writeHalf base size (decide (base < off)) v cur
      match w.1 with
      | some x => w.2.write64 port base x
      | none => w.2
    | none => if size = 4 then s.write32 off v else s

/-! ### The rows -/

def doCorScratchErrRead (p : Nat) (s : State) : State := if p < 880 then s.readRc (0x3000000 + p * 0x1000 + 0x1C) else s
def doTlnErrRead (n : Nat) (s : State) : State := if n < 6 then s.readRc (0x90018 + n * 0x10000) else s
def doFldSemStatusRead (f : Nat) (s : State) : State := if f < 80 then s.readRc (0x2000108 + f * 0x10000) else s
def doFldSemEventsRead (f : Nat) (s : State) : State := if f < 80 then s.readRc (0x2000110 + f * 0x10000) else s
def doHpErrRead (n : Nat) (s : State) : State := if n < 2 then s.readRc (0x20018 + n * 0x10000) else s
def doPanErrRead (p : Nat) (s : State) : State := if p < 880 then s.readRc (0x1000000 + p * 0x1000) else s
def doGrnErrRead (c : Nat) (s : State) : State := if c < 2 then s.readRc (0xF0000 + c * 0x8000) else s

/-- COR_SCRATCH_ERR_READ (R112). -/
def execCorScratchErrRead (p : Nat) (s : State) : Out := .next (doCorScratchErrRead p s)
/-- ADM_VAR_EVENTS_READ (R239). -/
def execAdmVarEventsRead (s : State) : Out := .next (s.readRc 0x14018)
/-- ADM_TRAIN_COUNTS_READ (R273). -/
def execAdmTrainCountsRead (s : State) : Out := .next (s.readRc 0x14100)
/-- GRN_UPD_DONE_READ (R274). -/
def execGrnUpdDoneRead (s : State) : Out := .next (s.readRc 0xF1008)
/-- TLN_ERR_READ (R311). -/
def execTlnErrRead (link : Nat) (s : State) : Out := .next (doTlnErrRead link s)
/-- FLD_SEM_STATUS_READ (R328). -/
def execFldSemStatusRead (field : Nat) (s : State) : Out := .next (doFldSemStatusRead field s)
/-- FLD_SEM_EVENTS_READ (R328). -/
def execFldSemEventsRead (field : Nat) (s : State) : Out := .next (doFldSemEventsRead field s)
/-- ADM_STATUS_READ (R355). -/
def execAdmStatusRead (s : State) : Out := .next (s.readRc 0x10004)
/-- ADM_DECISIONS_READ (R355). -/
def execAdmDecisionsRead (s : State) : Out := .next (s.readRc 0x10038)
/-- HP_ERR_READ (R377). -/
def execHpErrRead (port : Nat) (s : State) : Out := .next (doHpErrRead port s)
/-- SEC_STATUS_READ (R403). -/
def execSecStatusRead (s : State) : Out := .next (s.readRc 0x40000)
/-- PAN_ERR_READ (R427). -/
def execPanErrRead (pos : Nat) (s : State) : Out := .next (doPanErrRead pos s)
/-- GRN_ERR_READ (R427). -/
def execGrnErrRead (ctl : Nat) (s : State) : Out := .next (doGrnErrRead ctl s)
/-- MGT_THROTTLE_READ (R457). -/
def execMgtThrottleRead (s : State) : Out := .next (s.readRc 0x224)
/-- LOWER_HALF_READ (R5). -/
def execLowerHalfRead (off : Nat) (s : State) : Out := .next (doLowerHalfRead off s)
/-- REGISTER_WRITE (R7). -/
def execRegisterWrite (port off size : Nat) (value : Word) (s : State) : Out := .next (doRegisterWrite port off size value s)

end Sys2Proof.Machine
end

