-- ==== Sys2Proof/Machine/Dispatch.lean ====
section
/-! DEFINITION. The dispatch: one arm per command, each a direct call of its meaning. -/

namespace Sys2Proof.Machine

def exec (i : Instr) (s : State) : Host.Outcome State Fault Refusal :=
  match i with
  | .mmaN p ops => Sys2Proof.Machine.execMmaN p ops s
  | .mmaW p ops => Sys2Proof.Machine.execMmaW p ops s
  | .mmaSegN p ops => Sys2Proof.Machine.execMmaSegN p ops s
  | .mmaSegW p ops => Sys2Proof.Machine.execMmaSegW p ops s
  | .eltRun p ops => Sys2Proof.Machine.execEltRun p ops s
  | .eltBcast p ops => Sys2Proof.Machine.execEltBcast p ops s
  | .eltLoadp p ops => Sys2Proof.Machine.execEltLoadp p ops s
  | .eltMask p ops => Sys2Proof.Machine.execEltMask p ops s
  | .cvt p ops => Sys2Proof.Machine.execCvt p ops s
  | .statMaxabs p ops => Sys2Proof.Machine.execStatMaxabs p ops s
  | .xtlPack p ops => Sys2Proof.Machine.execXtlPack p ops s
  | .xtlRot p ops => Sys2Proof.Machine.execXtlRot p ops s
  | .cpy1d p ops => Sys2Proof.Machine.execCpy1d p ops s
  | .cpy2d p ops => Sys2Proof.Machine.execCpy2d p ops s
  | .cpy3d p ops => Sys2Proof.Machine.execCpy3d p ops s
  | .cpyT p ops => Sys2Proof.Machine.execCpyT p ops s
  | .semAdd p ops => Sys2Proof.Machine.execSemAdd p ops s
  | .semSub p ops => Sys2Proof.Machine.execSemSub p ops s
  | .semWaitge p ops => Sys2Proof.Machine.execSemWaitge p ops s
  | .semWaitsub p ops => Sys2Proof.Machine.execSemWaitsub p ops s
  | .feLoad p ops => Sys2Proof.Machine.execFeLoad p ops s
  | .feStore p ops => Sys2Proof.Machine.execFeStore p ops s
  | .br p ops => Sys2Proof.Machine.execBr p ops s
  | .loop p ops => Sys2Proof.Machine.execLoop p ops s
  | .call p ops => Sys2Proof.Machine.execCall p ops s
  | .ret p ops => Sys2Proof.Machine.execRet p ops s
  | .halt p ops => Sys2Proof.Machine.execHalt p ops s
  | .seta p ops => Sys2Proof.Machine.execSeta p ops s
  | .adda p ops => Sys2Proof.Machine.execAdda p ops s
  | .addar p ops => Sys2Proof.Machine.execAddar p ops s
  | .setc p ops => Sys2Proof.Machine.execSetc p ops s
  | .ldt p ops => Sys2Proof.Machine.execLdt p ops s
  | .stt p ops => Sys2Proof.Machine.execStt p ops s
  | .tadd p ops => Sys2Proof.Machine.execTadd p ops s
  | .ldv p ops => Sys2Proof.Machine.execLdv p ops s
  | .ldk p ops => Sys2Proof.Machine.execLdk p ops s
  | .setk p ops => Sys2Proof.Machine.execSetk p ops s
  | .plan p ops => Sys2Proof.Machine.execPlan p ops s
  | .descriptorStart p e fixed bad => Sys2Proof.Machine.execDescriptorStart p e fixed bad s
  | .writeAcknowledge tok => Sys2Proof.Machine.execWriteAcknowledge tok s
  | .readDataArrival p e d fixed bad => Sys2Proof.Machine.execReadDataArrival p e d fixed bad s
  | .scratchWriteArrival tok err => Sys2Proof.Machine.execScratchWriteArrival tok err s
  | .taskEnd p => Sys2Proof.Machine.execTaskEnd p s
  | .planRecordWrite p => Sys2Proof.Machine.execPlanRecordWrite p s
  | .barrierArrival p => Sys2Proof.Machine.execBarrierArrival p s
  | .barrierComplete inst seq => Sys2Proof.Machine.execBarrierComplete inst seq s
  | .taskRestart inst seq => Sys2Proof.Machine.execTaskRestart inst seq s
  | .feArrival tok => Sys2Proof.Machine.execFeArrival tok s
  | .feRetry p => Sys2Proof.Machine.execFeRetry p s
  | .wakeToken tok => Sys2Proof.Machine.execWakeToken tok s
  | .semaphoreAdd tok => Sys2Proof.Machine.execSemaphoreAdd tok s
  | .semaphoreSub tok => Sys2Proof.Machine.execSemaphoreSub tok s
  | .waitge tok => Sys2Proof.Machine.execWaitge tok s
  | .waitsub tok => Sys2Proof.Machine.execWaitsub tok s
  | .retentionEntry p => Sys2Proof.Machine.execRetentionEntry p s
  | .retentionWake p => Sys2Proof.Machine.execRetentionWake p s
  | .corCtrlWrite p v => Sys2Proof.Machine.execCorCtrlWrite p v s
  | .marchDestructive p v => Sys2Proof.Machine.execMarchDestructive p v s
  | .marchContentPreserving p v => Sys2Proof.Machine.execMarchContentPreserving p v s
  | .marchTestComplete p failBank failLines => Sys2Proof.Machine.execMarchTestComplete p failBank failLines s
  | .panRead tok err => Sys2Proof.Machine.execPanRead tok err s
  | .panWrite tok => Sys2Proof.Machine.execPanWrite tok s
  | .panPartialWrite tok err => Sys2Proof.Machine.execPanPartialWrite tok err s
  | .sumpAccumulate tok err => Sys2Proof.Machine.execSumpAccumulate tok err s
  | .granaryRead tok err => Sys2Proof.Machine.execGranaryRead tok err s
  | .granaryWrite tok err => Sys2Proof.Machine.execGranaryWrite tok err s
  | .granaryAccumulate tok err => Sys2Proof.Machine.execGranaryAccumulate tok err s
  | .scrubRead granary block err lastOfPass => Sys2Proof.Machine.execScrubRead granary block err lastOfPass s
  | .rebuild granary block ok data => Sys2Proof.Machine.execRebuild granary block ok data s
  | .columnRetirement pos => Sys2Proof.Machine.execColumnRetirement pos s
  | .loadFull port v => Sys2Proof.Machine.execLoadFull port v s
  | .applyPartial port v => Sys2Proof.Machine.execApplyPartial port v s
  | .storeEffective port v => Sys2Proof.Machine.execStoreEffective port v s
  | .storeStaged port v => Sys2Proof.Machine.execStoreStaged port v s
  | .imageReadComplete => Sys2Proof.Machine.execImageReadComplete s
  | .fullImageApplyComplete => Sys2Proof.Machine.execFullImageApplyComplete s
  | .relayout => Sys2Proof.Machine.execRelayout s
  | .adoption inst => Sys2Proof.Machine.execAdoption inst s
  | .nvsWriteComplete => Sys2Proof.Machine.execNvsWriteComplete s
  | .startThreshold mv => Sys2Proof.Machine.execStartThreshold mv s
  | .startupStageComplete ok bad values => Sys2Proof.Machine.execStartupStageComplete ok bad values s
  | .reset lowNs => Sys2Proof.Machine.execReset lowNs s
  | .perstDeassert port => Sys2Proof.Machine.execPerstDeassert port s
  | .configurationRequest port ats => Sys2Proof.Machine.execConfigurationRequest port ats s
  | .stage v => Sys2Proof.Machine.execStage v s
  | .activate v => Sys2Proof.Machine.execActivate v s
  | .switch v => Sys2Proof.Machine.execSwitch v s
  | .clear v => Sys2Proof.Machine.execClear v s
  | .retire v => Sys2Proof.Machine.execRetire v s
  | .slotRelease slot => Sys2Proof.Machine.execSlotRelease slot s
  | .baseReleased slot => Sys2Proof.Machine.execBaseReleased slot s
  | .start port v => Sys2Proof.Machine.execStart port v s
  | .streamEnd => Sys2Proof.Machine.execStreamEnd s
  | .variantLoad port inst ide msg => Sys2Proof.Machine.execVariantLoad port inst ide msg s
  | .variantLoadComplete index => Sys2Proof.Machine.execVariantLoadComplete index s
  | .variantDelete port inst ide msg => Sys2Proof.Machine.execVariantDelete port inst ide msg s
  | .variantPageIn port inst ide msg => Sys2Proof.Machine.execVariantPageIn port inst ide msg s
  | .variantQuery port inst ide msg => Sys2Proof.Machine.execVariantQuery port inst ide msg s
  | .forkFromBase port inst ide msg => Sys2Proof.Machine.execForkFromBase port inst ide msg s
  | .pageInStart index => Sys2Proof.Machine.execPageInStart index s
  | .pageInComplete index => Sys2Proof.Machine.execPageInComplete index s
  | .trainOpen port inst ide msg => Sys2Proof.Machine.execTrainOpen port inst ide msg s
  | .trainSet port inst ide msg => Sys2Proof.Machine.execTrainSet port inst ide msg s
  | .trainQuery port inst ide msg => Sys2Proof.Machine.execTrainQuery port inst ide msg s
  | .snapshot port inst ide msg => Sys2Proof.Machine.execSnapshot port inst ide msg s
  | .snapshotDelivered index ok => Sys2Proof.Machine.execSnapshotDelivered index ok s
  | .trainClose port inst ide msg => Sys2Proof.Machine.execTrainClose port inst ide msg s
  | .updateEntryStart => Sys2Proof.Machine.execUpdateEntryStart s
  | .updateEntryComplete => Sys2Proof.Machine.execUpdateEntryComplete s
  | .refreshComplete index => Sys2Proof.Machine.execRefreshComplete index s
  | .dataFlit link fec flit => Sys2Proof.Machine.execDataFlit link fec flit s
  | .idleFlit link fec flit => Sys2Proof.Machine.execIdleFlit link fec flit s
  | .replayFlit link fec flit => Sys2Proof.Machine.execReplayFlit link fec flit s
  | .write link key plain => Sys2Proof.Machine.execWrite link key plain s
  | .read link key plain => Sys2Proof.Machine.execRead link key plain s
  | .accumulate link key plain => Sys2Proof.Machine.execAccumulate link key plain s
  | .semaphore link key plain => Sys2Proof.Machine.execSemaphore link key plain s
  | .forward link key plain => Sys2Proof.Machine.execForward link key plain s
  | .capability link => Sys2Proof.Machine.execCapability link s
  | .session link => Sys2Proof.Machine.execSession link s
  | .arrive link key plain => Sys2Proof.Machine.execArrive link key plain s
  | .complete link key plain => Sys2Proof.Machine.execComplete link key plain s
  | .streamAbort link key plain => Sys2Proof.Machine.execStreamAbort link key plain s
  | .response link key plain => Sys2Proof.Machine.execResponse link key plain s
  | .requestTimeout link tag => Sys2Proof.Machine.execRequestTimeout link tag s
  | .sessionRenew link inst => Sys2Proof.Machine.execSessionRenew link inst s
  | .linkTrainingComplete link lengthCm delayNs => Sys2Proof.Machine.execLinkTrainingComplete link lengthCm delayNs s
  | .lossOfSignal link fecLost => Sys2Proof.Machine.execLossOfSignal link fecLost s
  | .linkRetry link => Sys2Proof.Machine.execLinkRetry link s
  | .retrain link v => Sys2Proof.Machine.execRetrain link v s
  | .disable link v => Sys2Proof.Machine.execDisable link v s
  | .partnerLost link => Sys2Proof.Machine.execPartnerLost link s
  | .fieldRateReport field rate mv temp => Sys2Proof.Machine.execFieldRateReport field rate mv temp s
  | .floorRecompute => Sys2Proof.Machine.execFloorRecompute s
  | .rateKeeperStep region => Sys2Proof.Machine.execRateKeeperStep region s
  | .resolve cause fields => Sys2Proof.Machine.execResolve cause fields s
  | .overrun inst seq => Sys2Proof.Machine.execOverrun inst seq s
  | .quantumExpiry inst seq => Sys2Proof.Machine.execQuantumExpiry inst seq s
  | .intakeChunkWrite port inst ide off data => Sys2Proof.Machine.execIntakeChunkWrite port inst ide off data s
  | .commit port inst ide data => Sys2Proof.Machine.execCommit port inst ide data s
  | .admissionDecision => Sys2Proof.Machine.execAdmissionDecision s
  | .dispatch inst seq => Sys2Proof.Machine.execDispatch inst seq s
  | .jobComplete inst seq => Sys2Proof.Machine.execJobComplete inst seq s
  | .release port inst ide off data => Sys2Proof.Machine.execRelease port inst ide off data s
  | .recalRequest v => Sys2Proof.Machine.execRecalRequest v s
  | .recalForce v => Sys2Proof.Machine.execRecalForce v s
  | .recalPauseStart => Sys2Proof.Machine.execRecalPauseStart s
  | .recalPauseEnd => Sys2Proof.Machine.execRecalPauseEnd s
  | .referenceLost => Sys2Proof.Machine.execReferenceLost s
  | .holdoverExpiry => Sys2Proof.Machine.execHoldoverExpiry s
  | .functionLevelReset port => Sys2Proof.Machine.execFunctionLevelReset port s
  | .tdispMessage port inst tdi => Sys2Proof.Machine.execTdispMessage port inst tdi s
  | .atsInvalidation port => Sys2Proof.Machine.execAtsInvalidation port s
  | .hostCompletion port id ok data => Sys2Proof.Machine.execHostCompletion port id ok data s
  | .stageIn port inst ide msg => Sys2Proof.Machine.execStageIn port inst ide msg s
  | .mirrorSet port inst ide msg => Sys2Proof.Machine.execMirrorSet port inst ide msg s
  | .mirrorRestore port inst ide msg => Sys2Proof.Machine.execMirrorRestore port inst ide msg s
  | .mailboxAttest port inst ide msg => Sys2Proof.Machine.execMailboxAttest port inst ide msg s
  | .unknownOperation port inst ide msg => Sys2Proof.Machine.execUnknownOperation port inst ide msg s
  | .consumedWrite port inst ide v => Sys2Proof.Machine.execConsumedWrite port inst ide v s
  | .drain port v => Sys2Proof.Machine.execDrain port v s
  | .squash port v => Sys2Proof.Machine.execSquash port v s
  | .drainLimitExpiry inst => Sys2Proof.Machine.execDrainLimitExpiry inst s
  | .instanceRetired inst => Sys2Proof.Machine.execInstanceRetired inst s
  | .instanceZeroingComplete inst => Sys2Proof.Machine.execInstanceZeroingComplete inst s
  | .attest port v => Sys2Proof.Machine.execAttest port v s
  | .getMeasurements endpoint nonce => Sys2Proof.Machine.execGetMeasurements endpoint nonce s
  | .keyProg port inst key => Sys2Proof.Machine.execKeyProg port inst key s
  | .operatorKey port v => Sys2Proof.Machine.execOperatorKey port v s
  | .unlock port v => Sys2Proof.Machine.execUnlock port v s
  | .raiseFloor port v => Sys2Proof.Machine.execRaiseFloor port v s
  | .rngFail => Sys2Proof.Machine.execRngFail s
  | .drbgReseed => Sys2Proof.Machine.execDrbgReseed s
  | .hang pos => Sys2Proof.Machine.execHang pos s
  | .hangConfirm pos => Sys2Proof.Machine.execHangConfirm pos s
  | .writeDiscardTimeout pos => Sys2Proof.Machine.execWriteDiscardTimeout pos s
  | .fence pos => Sys2Proof.Machine.execFence pos s
  | .rename pos => Sys2Proof.Machine.execRename pos s
  | .fenceCore port v => Sys2Proof.Machine.execFenceCore port v s
  | .retireColumn port v => Sys2Proof.Machine.execRetireColumn port v s
  | .retrainColumn port v => Sys2Proof.Machine.execRetrainColumn port v s
  | .readBlackbox port v => Sys2Proof.Machine.execReadBlackbox port v s
  | .switchMgtFw port v => Sys2Proof.Machine.execSwitchMgtFw port v s
  | .reloadMicrocode port v => Sys2Proof.Machine.execReloadMicrocode port v s
  | .liveOperationComplete ok svn digest key sig => Sys2Proof.Machine.execLiveOperationComplete ok svn digest key sig s
  | .mirrorTake index => Sys2Proof.Machine.execMirrorTake index s
  | .mirrorHeaderWrite index => Sys2Proof.Machine.execMirrorHeaderWrite index s
  | .blackBoxDumpComplete mv => Sys2Proof.Machine.execBlackBoxDumpComplete mv s
  | .freezeArm size hi value => Sys2Proof.Machine.execFreezeArm size hi value s
  | .freeze => Sys2Proof.Machine.execFreeze s
  | .frozenValid => Sys2Proof.Machine.execFrozenValid s
  | .arm v => Sys2Proof.Machine.execArm v s
  | .debugStopHold => Sys2Proof.Machine.execDebugStopHold s
  | .debugStop => Sys2Proof.Machine.execDebugStop s
  | .resume v => Sys2Proof.Machine.execResume v s
  | .obsRingLoRead => Sys2Proof.Machine.execObsRingLoRead s
  | .obsResidueLoRead => Sys2Proof.Machine.execObsResidueLoRead s
  | .corScratchErrRead p => Sys2Proof.Machine.execCorScratchErrRead p s
  | .admVarEventsRead => Sys2Proof.Machine.execAdmVarEventsRead s
  | .admTrainCountsRead => Sys2Proof.Machine.execAdmTrainCountsRead s
  | .grnUpdDoneRead => Sys2Proof.Machine.execGrnUpdDoneRead s
  | .tlnErrRead link => Sys2Proof.Machine.execTlnErrRead link s
  | .fldSemStatusRead field => Sys2Proof.Machine.execFldSemStatusRead field s
  | .fldSemEventsRead field => Sys2Proof.Machine.execFldSemEventsRead field s
  | .admStatusRead => Sys2Proof.Machine.execAdmStatusRead s
  | .admDecisionsRead => Sys2Proof.Machine.execAdmDecisionsRead s
  | .hpErrRead port => Sys2Proof.Machine.execHpErrRead port s
  | .secStatusRead => Sys2Proof.Machine.execSecStatusRead s
  | .panErrRead pos => Sys2Proof.Machine.execPanErrRead pos s
  | .grnErrRead ctl => Sys2Proof.Machine.execGrnErrRead ctl s
  | .mgtThrottleRead => Sys2Proof.Machine.execMgtThrottleRead s
  | .registerWrite port off size value => Sys2Proof.Machine.execRegisterWrite port off size value s
  | .inputDroop mv => Sys2Proof.Machine.execInputDroop mv s
  | .inputLow mv => Sys2Proof.Machine.execInputLow mv s
  | .inputHigh mv => Sys2Proof.Machine.execInputHigh mv s
  | .overVoltageDisconnect mv => Sys2Proof.Machine.execOverVoltageDisconnect mv s
  | .mateLoopBreak => Sys2Proof.Machine.execMateLoopBreak s
  | .mateLoopContinuous => Sys2Proof.Machine.execMateLoopContinuous s
  | .throttleAssert => Sys2Proof.Machine.execThrottleAssert s
  | .throttleDeassert => Sys2Proof.Machine.execThrottleDeassert s
  | .columnHot pos t0 t7 => Sys2Proof.Machine.execColumnHot pos t0 t7 s
  | .fieldHot field column temp => Sys2Proof.Machine.execFieldHot field column temp s
  | .powerOverLimit watts => Sys2Proof.Machine.execPowerOverLimit watts s
  | .thermalRelease kind unit reading other => Sys2Proof.Machine.execThermalRelease kind unit reading other s
  | .capStep => Sys2Proof.Machine.execCapStep s
  | .supplyStep field => Sys2Proof.Machine.execSupplyStep field s
  | .thermalTrip kind unit reading other => Sys2Proof.Machine.execThermalTrip kind unit reading other s
  | .railLimit rail mv => Sys2Proof.Machine.execRailLimit rail mv s
  | .cageInsertion link media lengthCm => Sys2Proof.Machine.execCageInsertion link media lengthCm s
  | .cageRemoval link => Sys2Proof.Machine.execCageRemoval link s
  | .cmisPoll link media lengthCm => Sys2Proof.Machine.execCmisPoll link media lengthCm s
  | .engineInstructionComplete p eng fixed bad => Sys2Proof.Machine.execEngineInstructionComplete p eng fixed bad s
  | .lowerHalfRead off => Sys2Proof.Machine.execLowerHalfRead off s
  | .instancePageRead port inst off len ide => Sys2Proof.Machine.execInstancePageRead port inst off len ide s
  | .referenceReturn => Sys2Proof.Machine.execReferenceReturn s
  | .inputInOperatingRange mv => Sys2Proof.Machine.execInputInOperatingRange mv s
  | .trustManagementUncorrectable => Sys2Proof.Machine.execTrustManagementUncorrectable s
  | .slotZeroingComplete slot => Sys2Proof.Machine.execSlotZeroingComplete slot s
  | .forkCopyComplete slot => Sys2Proof.Machine.execForkCopyComplete slot s
  | .unlockZeroingComplete => Sys2Proof.Machine.execUnlockZeroingComplete s
  | .trainOpenZeroingComplete index => Sys2Proof.Machine.execTrainOpenZeroingComplete index s
  | .stageInComplete inst => Sys2Proof.Machine.execStageInComplete inst s
  | .hostLinkTrainingComplete port speed width flitMode => Sys2Proof.Machine.execHostLinkTrainingComplete port speed width flitMode s
  | .granaryInterfaceRetrain ctl begins => Sys2Proof.Machine.execGranaryInterfaceRetrain ctl begins s
  | .spdmSecuredSession endpoint established => Sys2Proof.Machine.execSpdmSecuredSession endpoint established s
  | .coarsenedWindowEnd oneSecond watts inlet outlet => Sys2Proof.Machine.execCoarsenedWindowEnd oneSecond watts inlet outlet s

end Sys2Proof.Machine
end

