-- ==== Sys2Proof/Safety.lean ====
section
/-! DEFINITION. The conditions that statements about runs of the block are said in. -/

namespace Sys2Proof.Machine

/-- The instruction of a class, operation and operands stands at core p's program index, and core p may issue (R79, R123). -/
def State.atInstr (s : State) (p cls op : Nat) (ops : BitVec 56) : Prop :=
  s.canIssue p = true ∧ (s.core p).word = cls * 2 ^ 60 + op * 2 ^ 56 + ops.toNat

/-- The three memories that survive a task are in canonical form: pan DRAM, the granary and the NVS. -/
def State.canonical (s : State) : Prop :=
  Memory.wf s.pan = true ∧ Memory.wf s.gran = true ∧ Memory.wf s.nvs.mem = true

/-- A scratchpad is in canonical form: addresses strictly rising, and no byte listed at what it reads as unlisted. -/
def Core.scratchWf (c : Core) : Prop := Tab.wf c.scratchDefault c.scratch = true

/-- The first message on a VC of a link whose region runs is complete, its frame is in order, its instance has a session in service, its
tag verifies under a key that the session accepts there, it decrypts to `plain`, and that keeps the tables of R279 and R280; `b` is the
message as received, sealed. -/
def State.incoming (s : State) (n vc i key : Nat) (b plain : List Byte) : Prop :=
  n < 6 ∧ s.working = true ∧ s.held (90 + n) = false ∧ (vc = 0 → clearForm b = false) ∧ s.nextMsg n vc = some b ∧
  leAt b 0 2 = plain.length ∧ 28 ≤ plain.length ∧ plain.length ≤ 4124 ∧ leAt b 2 1 = i ∧ leAt b 3 1 = 0 ∧ (i < 64 ∨ i = 0xFF) ∧
  s.linkReady n i = true ∧ ((s.link n).sessions.any fun x => x.inst = i && x.accepts vc key) = true ∧ msgOk vc i plain = true ∧
  (msgKind plain = 6 → 2 < msgArg plain)

/-- The state once that message has left its receive buffers and has been counted. -/
def State.accepted (s : State) (n vc i key : Nat) (b : List Byte) : State :=
  (s.dropMsg n vc b.length).received n vc i (leAt b 0 2) (decide (key = 2))

/-- A message of kind `code` written to the mailbox page of instance i on its port is taken: the page answers, its interface is not in ERROR
and in RUN the write is protected, the instance is in service, and it has a credit (R361, R363, R372, R376). -/
def State.fromMailbox (s : State) (port i : Nat) (ide : Bool) (code : Nat) (msg : List Byte) : Prop :=
  leAt msg 0 1 = code ∧ s.bar0All = true ∧ s.working = true ∧ port < 2 ∧ s.pageOn port i = true ∧
  (s.inst i).tdi ≠ 3 ∧ ((s.inst i).tdi = 2 → ide = true) ∧
  ((s.inst i).state = .active ∨ (s.inst i).state = .adopting) ∧ (s.inst i).credits ≠ 0

/-- The state once that message's credit is taken (R372). -/
def State.debited (s : State) (i : Nat) : State := s.updInst i fun x => { x with credits := x.credits - 1 }

/-- A safe run answers a next state at every step. -/
def State.stepsTo (s t : State) : Prop := step s = .next t

end Sys2Proof.Machine
end

