-- ==== Sys2Proof/Certificates/Slice0/Obligations.lean ====
section
/-! DEFINITION. The statements about the model, for the provers. -/

open Sys2Proof Sys2Proof.Machine

/-- A step of a state whose queue is not empty is exec of the front command on the state with the queue's rest: nothing else happens
around it. The queue is the model's own (log 4). -/
def Obligations.StepRunsFrontCommand : Prop :=
  ∀ (s : State) (c : Instr) (rest : List Instr), s.pending = c :: rest → step s = exec c { s with pending := rest }

/-- With no command waiting, one tick passes: the count advances by one while the time base runs and stays while it does not, the WAIT_NS
counters of waiting cores may advance, and nothing else of the state changes. That an empty queue means a tick is log 4. -/
def Obligations.IdleStepIsOneTick : Prop :=
  ∀ s : State, s.pending = [] → ∃ t, step s = .next t ∧
    t.tb = { s.tb with count := if s.tb.running = true then s.tb.count + 1 else s.tb.count } ∧
    { t.obs with cnt := s.obs.cnt } = s.obs ∧ { t with tb := s.tb, obs := s.obs } = s

/-- Right after reset: the queue and every memory list nothing, start-up is at stage 0, no alert and no fault is shown, the power limit
is 1,200 W and the throttled rate 1,000 M beats/s, the time quantum is 2 and the temperature cap 100 °C, every core is idle with RETAIN
set and sixteen banks selected, every instance has sixteen credits and next expects SEQ 1, and position 10 of every field is its spare
while positions 0 to 9 serve logical cores 0 to 9. Where the rules leave a choice it follows log 3. -/
def Obligations.ResetState : Prop :=
  State.reset.pending = [] ∧ State.reset.pan = [] ∧ State.reset.gran = [] ∧ State.reset.nvs.mem = [] ∧
  State.reset.mgt.stage = 0 ∧ State.reset.mgt.alert = 0 ∧ State.reset.mgt.faultPin = false ∧
  State.reset.mgt.powerLimit = 1200 ∧ State.reset.mgt.throttleRate = 1000 ∧
  State.reset.adm.quantum = 2 ∧ State.reset.adm.tjCap = 100 ∧ State.reset.tb.running = false ∧
  (∀ p, (State.reset.core p).act = .idle ∧ (State.reset.core p).retain = true ∧
    (State.reset.core p).march.banks = 0xFFFF ∧ (State.reset.core p).scratch = []) ∧
  (∀ i, (State.reset.inst i).credits = 16 ∧ (State.reset.inst i).nextSeq = 1 ∧ (State.reset.inst i).state = .none) ∧
  (∀ f < 80, State.reset.posCode (11 * f + 10) = 1 ∧ State.reset.spareOf f = some (11 * f + 10)) ∧
  (∀ f < 80, ∀ k < 10, State.reset.posCode (11 * f + k) = 0 ∧ State.reset.logicalPos f k = some (11 * f + k))

/-- At reset pan DRAM, the granary and the NVS are in canonical form: addresses strictly rise and no byte is listed at the value an
unlisted byte reads as (log 1). -/
def Obligations.ResetMemoriesCanonical : Prop := State.reset.canonical

/-- For every state, reached by a run or not, whose pan DRAM, granary and NVS are in canonical form (addresses strictly rising, no byte
listed at zero), whatever command stands at the front of the queue: if the step answers a next state, the three memories are in
canonical form there too, so equal memories stay equal data. Where the rules leave a choice it follows log 1. -/
def Obligations.StepKeepsMemoriesCanonical : Prop :=
  ∀ s t : State, s.canonical → step s = .next t → t.canonical

/-- For every command and state exec answers a next state, and the queue of waiting commands there is the one it had: no command ever
stops the block, and each takes effect on everything but the queue. Where the rules leave a choice it follows log 5. -/
def Obligations.ExecLeavesQueue : Prop :=
  ∀ (c : Instr) (s : State), ∃ t, exec c s = .next t ∧ t.pending = s.pending

/-- For every memory in canonical form, every address and every byte string: after the write, reading the same range gives the bytes
written, every byte outside the range reads as before, and the memory is in canonical form. Zeroing a range makes it read zero and
leaves every other byte. Where the rules leave a choice it follows log 1. -/
def Obligations.MemoryReadsBack : Prop :=
  ∀ (m : List (Nat × Byte)) (a : Nat), Memory.wf m = true →
    (∀ bs : List Byte, Memory.wf (Memory.write m a bs) = true ∧ Memory.read (Memory.write m a bs) a bs.length = bs ∧
      ∀ x, (x < a ∨ a + bs.length ≤ x) → Memory.byte (Memory.write m a bs) x = Memory.byte m x) ∧
    (∀ n, Memory.wf (Memory.zero m a n) = true ∧
      ∀ x, Memory.byte (Memory.zero m a n) x = if a ≤ x ∧ x < a + n then 0 else Memory.byte m x)

/-- For every core whose scratchpad is in canonical form and lists no uncorrectable word: after a write the written range reads the bytes
written and every other byte reads as before, the form holds, and every other field of the core is unchanged. -/
def Obligations.ScratchReadsBack : Prop :=
  ∀ (c : Core) (a : Nat) (bs : List Byte), c.scratchWf → c.ueWords = [] →
    (c.write a bs).scratchWf ∧ { c.write a bs with scratch := c.scratch } = c ∧
    ∀ x, (c.write a bs).byte x = if a ≤ x ∧ x < a + bs.length then bs.getD (x - a) 0 else c.byte x

/-- For every length and number, the little-endian bytes of the number are that many, and read back as the number modulo 256 to that
length; and for every byte string the bytes of its number are the string. -/
def Obligations.LittleEndianRoundTrip : Prop :=
  (∀ n v : Nat, (leBytes n v).length = n ∧ leNat (leBytes n v) = v % 256 ^ n) ∧
  (∀ bs : List Byte, leNat bs < 256 ^ bs.length ∧ leBytes bs.length (leNat bs) = bs)

/-- When the instruction stands at core p's program index, the core may issue, and the bits its form does not use are zero: SETA
writes its 32-bit immediate zero-extended (H = 0) or into bits 63:32 with bits 31:0 kept (H = 1); ADDA writes the sum of a register
and its sign-extended immediate; ADDAR the sum of two registers; SETC its immediate. The program index moves on by one, and nothing
else of the state changes (R124, R141). a0 always reads as zero, and a write of it leaves the core as it was; a write of any other address
register is read back; these sums wrap modulo 2^64, whatever their size; and an address is checked where an operand uses it, which
takes ADDRESS when the operand leaves the 1 MiB of scratch or is not aligned. -/
def Obligations.AddressAndCounterWrites : Prop :=
  ∀ (s : State) (p : Nat) (ops : BitVec 56),
    (s.atInstr p 7 5 ops → onlyFields ops.toNat [(55, 51), (50, 50), (31, 0)] = true →
      exec (.seta p ops) s = .next (s.setCore p (((s.core p).advance).setA (fld ops 55 51)
        (BitVec.ofNat 64 (if fld ops 50 50 = 1
          then ((s.core p).areg (fld ops 55 51)).toNat % 2 ^ 32 + fld ops 31 0 * 2 ^ 32 else fld ops 31 0))))) ∧
    (s.atInstr p 7 6 ops → onlyFields ops.toNat [(55, 51), (50, 46), (31, 0)] = true →
      exec (.adda p ops) s = .next (s.setCore p (((s.core p).advance).setA (fld ops 55 51)
        ((s.core p).areg (fld ops 50 46) + BitVec.ofInt 64 (sext 32 (fld ops 31 0)))))) ∧
    (s.atInstr p 7 7 ops → onlyFields ops.toNat [(55, 51), (50, 46), (45, 41)] = true →
      exec (.addar p ops) s = .next (s.setCore p (((s.core p).advance).setA (fld ops 55 51)
        ((s.core p).areg (fld ops 50 46) + (s.core p).areg (fld ops 45 41))))) ∧
    (s.atInstr p 7 8 ops → onlyFields ops.toNat [(55, 52), (31, 0)] = true →
      exec (.setc p ops) s = .next (s.setCore p
        { s.core p with pi := ((s.core p).pi + 1) % 8192
                        c := Tab.put 0 (fld ops 55 52) (BitVec.ofNat 32 (fld ops 31 0)) (s.core p).c })) ∧
    (∀ (c : Core) (v : Word), c.setA 0 v = c ∧ c.areg 0 = 0 ∧ (∀ r, r ≠ 0 → Tab.sorted c.a = true → (c.setA r v).areg r = v)) ∧
    (∀ x y : Word, (x + y).toNat = (x.toNat + y.toNat) % 2 ^ 64) ∧
    (∀ (c : Core) (unit r off align n : Nat), c.scratchOp unit r off align n =
      (let a := (c.areg r + BitVec.ofNat 64 off).toNat
       if a + n ≤ 0x100000 ∧ a % align = 0 then .ok a else .error ⟨1, unit, a⟩))

/-- When the instruction may issue with its unused bits zero and its target below 8,192: BR goes to its target when COND is 0, when COND
is 1 and its predicate is set, when COND is 2 and it is clear, and when COND is 3 and its counter equals 1, and goes on by one
otherwise; LOOP decrements its counter, holding 0, and branches while it is not 0; CALL pushes the address after it; RET pops; HALT
stops issue until TASK_END; PLAN stops issue until the plan is answered. Nothing else changes. CALL with eight entries on the stack and
RET on an empty one take ILLEGAL_INSTRUCTION, and PLAN takes the fault of an uncorrectable block its task consumed. Where the rules
leave a choice it follows log 28. -/
def Obligations.BranchesCallsAndStops : Prop :=
  ∀ (s : State) (p : Nat) (ops : BitVec 56),
    (s.atInstr p 7 0 ops → onlyFields ops.toNat [(55, 54), (53, 50), (19, 0)] = true → fld ops 19 0 < 8192 →
      (fld ops 55 54 = 0 ∨ fld ops 55 54 = 3 ∨ fld ops 53 50 ≤ 7) →
      exec (.br p ops) s = .next (s.setCore p { s.core p with
        pi := if fld ops 55 54 = 0 ∨ (fld ops 55 54 = 1 ∧ (s.core p).k.getLsbD (fld ops 53 50) = true) ∨
                 (fld ops 55 54 = 2 ∧ (s.core p).k.getLsbD (fld ops 53 50) = false) ∨
                 (fld ops 55 54 = 3 ∧ (s.core p).creg (fld ops 53 50) = 1)
              then fld ops 19 0 else ((s.core p).pi + 1) % 8192 })) ∧
    (s.atInstr p 7 1 ops → onlyFields ops.toNat [(55, 52), (19, 0)] = true → fld ops 19 0 < 8192 →
      exec (.loop p ops) s = .next (s.setCore p { s.core p with
        c := Tab.put 0 (fld ops 55 52) (BitVec.ofNat 32 ((s.core p).creg (fld ops 55 52) - 1)) (s.core p).c
        pi := if 2 ≤ (s.core p).creg (fld ops 55 52) then fld ops 19 0 else ((s.core p).pi + 1) % 8192 })) ∧
    (s.atInstr p 7 2 ops → onlyFields ops.toNat [(19, 0)] = true → fld ops 19 0 < 8192 →
      exec (.call p ops) s = .next (if (s.core p).stack.length < 8
        then s.setCore p { s.core p with
          stack := (s.core p).stack ++ [((s.core p).pi + 1) % 8192], pi := fld ops 19 0 }
        else s.coreFault p 2 0 (s.core p).pi 0)) ∧
    (s.atInstr p 7 3 0 →
      (∀ k rest, (s.core p).stack = rest ++ [k] →
        exec (.ret p 0) s = .next (s.setCore p { s.core p with stack := rest, pi := k })) ∧
      ((s.core p).stack = [] → exec (.ret p 0) s = .next (s.coreFault p 2 0 (s.core p).pi 0))) ∧
    (s.atInstr p 7 4 0 → exec (.halt p 0) s = .next (s.setCore p { s.core p with wait := .halt })) ∧
    (s.atInstr p 8 0 ops → onlyFields ops.toNat [(55, 40)] = true →
      exec (.plan p ops) s = .next (if (s.core p).ueCause = 0
        then s.setCore p { s.core p with wait := .plan (fld ops 55 40) }
        else s.coreFault p (s.core p).ueCause 0 (s.core p).pi (s.core p).ueAddr))

/-- When the instruction may issue with its unused bits zero, and its scratch operand lies below 0x10_0000, is 16-byte aligned for LDT
and LDV, and meets no uncorrectable word: LDT loads 16 bytes into a descriptor register, LDV into v0, LDK sets a predicate from whether
a byte is not zero, STT stores a descriptor once no instruction in flight names it and stalls until then, TADD adds an address register
and an immediate to BASE, SETK sets a predicate to its immediate or, with FROM_STICKY, once every engine has drained, from the chosen
sticky flags. The program index moves on by one, and nothing else changes. A BASE past 0xF_FFFF takes ILLEGAL_INSTRUCTION. Where the
rules leave a choice it follows log 28. -/
def Obligations.DescriptorAndPredicateMoves : Prop :=
  ∀ (s : State) (p : Nat) (ops : BitVec 56) (a : Nat),
    a = ((s.core p).areg (fld ops 50 46) + BitVec.ofNat 64 (fld ops 19 0)).toNat →
    (s.atInstr p 7 9 ops → onlyFields ops.toNat [(55, 52), (50, 46), (19, 0)] = true →
      a + 16 ≤ 0x100000 → a % 16 = 0 → (s.core p).readUe a 16 = false →
      exec (.ldt p ops) s = .next (s.setCore p { s.core p with
        pi := ((s.core p).pi + 1) % 8192
        t := Tab.put 0 (fld ops 55 52) (BitVec.ofNat 128 (leNat ((s.core p).bytes a 16))) (s.core p).t })) ∧
    (s.atInstr p 7 12 ops → onlyFields ops.toNat [(50, 46), (19, 0)] = true →
      a + 16 ≤ 0x100000 → a % 16 = 0 → (s.core p).readUe a 16 = false →
      exec (.ldv p ops) s = .next (s.setCore p { s.core p with
        pi := ((s.core p).pi + 1) % 8192, v0 := BitVec.ofNat 128 (leNat ((s.core p).bytes a 16)) })) ∧
    (s.atInstr p 7 13 ops → onlyFields ops.toNat [(55, 53), (50, 46), (19, 0)] = true →
      a + 1 ≤ 0x100000 → (s.core p).readUe a 1 = false →
      exec (.ldk p ops) s = .next (s.setCore p
        ((s.core p).advance.setK (fld ops 55 53) (decide ((s.core p).byte a ≠ 0))))) ∧
    (s.atInstr p 7 10 ops → onlyFields ops.toNat [(55, 52), (50, 46), (19, 0)] = true →
      a + 16 ≤ 0x100000 →
      exec (.stt p ops) s = .next (s.setCore p
        (if ((s.core p).inflight.any fun f => f.descs.contains (fld ops 55 52)) = true then s.core p
         else (s.core p).advance.write a (leBytes 16 (Tab.get 0 (s.core p).t (fld ops 55 52)).toNat)))) ∧
    (s.atInstr p 7 11 ops → onlyFields ops.toNat [(55, 52), (51, 48), (47, 43), (19, 0)] = true →
      ∀ d base, d = (Tab.get 0 (s.core p).t (fld ops 51 48)).toNat →
        base = (BitVec.ofNat 64 (bits d 19 0) + (s.core p).areg (fld ops 47 43) +
          BitVec.ofInt 64 (sext 20 (fld ops 19 0))).toNat →
        exec (.tadd p ops) s = .next (if base ≤ 0xFFFFF then s.setCore p { s.core p with
            pi := ((s.core p).pi + 1) % 8192
            t := Tab.put 0 (fld ops 55 52) (BitVec.ofNat 128 (d - bits d 19 0 + base)) (s.core p).t }
          else s.coreFault p 2 0 (s.core p).pi 0)) ∧
    (s.atInstr p 7 14 ops → onlyFields ops.toNat [(55, 53), (52, 52), (51, 51), (3, 0)] = true →
      exec (.setk p ops) s = .next (s.setCore p
        (if fld ops 51 51 = 0 then (s.core p).advance.setK (fld ops 55 53) (decide (fld ops 52 52 = 1))
         else if (s.core p).drained = true then
           (s.core p).advance.setK (fld ops 55 53) (decide ((s.core p).sticky.toNat &&& fld ops 3 0 ≠ 0))
         else s.core p)))

/-- When core p may issue and the word at its program index has no defined class and operation, every issue command of the control and
planning classes takes the core fault with cause 2 of the sequencer, at the program index, with detail zero. Where the rules leave a
choice it follows log 22. -/
def Obligations.UndefinedWordFaults : Prop :=
  ∀ (s : State) (p : Nat) (ops : BitVec 56), s.canIssue p = true →
    opDefined (bits (s.core p).word 63 60) (bits (s.core p).word 59 56) = false →
    ∀ c ∈ [Instr.br p ops, .loop p ops, .call p ops, .ret p ops, .halt p ops, .seta p ops, .adda p ops, .addar p ops,
      .setc p ops, .ldt p ops, .stt p ops, .tadd p ops, .ldv p ops, .ldk p ops, .setk p ops, .plan p ops],
      exec c s = .next (s.coreFault p 2 0 (s.core p).pi 0)

/-- For every state whose core table is in order, every cause, unit, index and detail: after the fault the core is FAULTED with
COR_FAULT holding the cause, unit, index and detail modulo 2^32, it waits for nothing, no instruction and no copy that had not started
remains, its registers, scratchpad and accumulators are as they were, and pan DRAM, the granary, the NVS and the semaphores are
unchanged. Of the tokens on channels only waits and wakes of cores may leave: every other token stays, and none is added. Where the
rules leave a choice it follows logs 18 and 22. -/
def Obligations.CoreFaultIsTaken : Prop :=
  ∀ (s : State) (p cause unit idx detail : Nat), Tab.sorted s.cores = true →
    ∃ c t, t = s.coreFault p cause unit idx detail ∧ t.core p = c ∧ c.act = .faulted ∧ c.wait = .none ∧ c.inflight = [] ∧
      c.fault = { cause := cause, unit := unit, idx := idx, detail := detail % 2 ^ 32 } ∧
      c.ce0.queue = [] ∧ c.ce1.queue = [] ∧ c.a = (s.core p).a ∧ c.c = (s.core p).c ∧ c.t = (s.core p).t ∧ c.k = (s.core p).k ∧
      c.v0 = (s.core p).v0 ∧ c.pi = (s.core p).pi ∧ c.scratch = (s.core p).scratch ∧ c.acc = (s.core p).acc ∧
      t.pan = s.pan ∧ t.gran = s.gran ∧ t.nvs = s.nvs ∧ t.sem = s.sem ∧ (∀ k ∈ t.net, k ∈ s.net) ∧
      (∀ k ∈ s.net, (∀ q, k.origin ≠ .seq q) → k ∈ t.net)

/-- When an ELT.RUN, ELT.BCAST, ELT.LOADP, CVT, STAT.MAXABS, XTL.PACK or XTL.ROT may issue and its word and descriptors pass the checks
made at issue: with room in the queue that the element engine and the crystalliser share, it enters that queue with copies of the
descriptor and address registers, v0 and the lane mask, and with the accumulator blocks that it reads and writes, and the program index
moves on by one; with the queue full the sequencer stalls. Its effect comes when it completes. Nothing else changes. Where the rules
leave a choice it follows logs 6 and 28. -/
def Obligations.EngineInstructionsIssue : Prop :=
  ∀ (s : State) (p cls op : Nat) (ops : BitVec 56) (i : Instr) (r : Except IFault Foot) (f : Foot) (c : Core), c = s.core p →
    (cls, op, i, r) ∈ [(2, 0, Instr.eltRun p ops, eltFoot false ops c), (2, 1, .eltBcast p ops, eltFoot true ops c),
      (2, 2, .eltLoadp p ops, loadpFoot ops c), (3, 0, .cvt p ops, cvtFoot ops c), (4, 0, .statMaxabs p ops, maxabsFoot ops c),
      (4, 1, .xtlPack p ops, packFoot ops c), (4, 2, .xtlRot p ops, rotFoot ops c)] →
    s.atInstr p cls op ops → r = .ok f →
    exec i s = .next (s.setCore p (if c.queueRoom 1 = true then { c with
        pi := (c.pi + 1) % 8192, nextId := c.nextId + 1
        inflight := c.inflight ++ [{ id := c.nextId, eng := 1, idx := c.pi, word := c.word, t := c.t, a := c.a, v0 := c.v0, mask := c.mask,
                                     descs := f.descs, blocksRead := f.rd, blocksWritten := f.wr }] }
      else c))

/-- When a matrix instruction, narrow or wide, segmented or not, may issue and its word, tiles and shapes pass the checks made at issue:
with room in the matrix engine's queue it enters the queue with copies of the descriptor registers and v0 and with the accumulator
blocks that it reads and writes, and the program index moves on by one; with the queue full the sequencer stalls. Its effect comes when
it completes. Nothing else changes. Where the rules leave a choice it follows logs 6 and 28. -/
def Obligations.MatrixInstructionsIssue : Prop :=
  ∀ (s : State) (p op : Nat) (ops : BitVec 56) (i : Instr) (r : Except IFault Foot) (f : Foot) (c : Core), c = s.core p →
    (op, i, r) ∈ [(0, Instr.mmaN p ops, matrixFoot true false ops c), (1, .mmaW p ops, matrixFoot false false ops c),
      (2, .mmaSegN p ops, matrixFoot true true ops c), (3, .mmaSegW p ops, matrixFoot false true ops c)] →
    s.atInstr p 1 op ops → r = .ok f →
    exec i s = .next (s.setCore p (if c.queueRoom 0 = true then { c with
        pi := (c.pi + 1) % 8192, nextId := c.nextId + 1
        inflight := c.inflight ++ [{ id := c.nextId, eng := 0, idx := c.pi, word := c.word, t := c.t, a := c.a, v0 := c.v0, mask := c.mask,
                                     descs := f.descs, blocksRead := f.rd, blocksWritten := f.wr }] }
      else c))

/-- For every core whose accumulator table is in order and every block of eight rows by four columns: after the block's work accumulator
(r, c) of the block holds the accumulation over the dot groups of row r of A and row c of B, onto its old value when ADD is set and onto
zero otherwise, and every accumulator outside the block keeps its value; the scratchpad, the registers and the queues are unchanged.
Where the rules leave a choice it follows log 49. -/
def Obligations.MatrixBlockIsDotProducts : Prop :=
  ∀ (c : Core) (g b0 n rg cb : Nat) (add : Bool) (a b : List (List Machine.Num × Flags)) (d : Core), Tab.sorted c.acc = true →
    d = matrixBlock c g b0 n rg cb add a b →
    (∀ r < 8, ∀ k < 4, d.accAt ((b0 + rg * (n / 4) + cb) * 32 + r * 4 + k) =
      (dotOutput g (a.getD r ([], 0)).1 (b.getD (4 * cb + k) ([], 0)).1
        (if add then c.accAt ((b0 + rg * (n / 4) + cb) * 32 + r * 4 + k) else 0)).1) ∧
    (∀ x, (x < (b0 + rg * (n / 4) + cb) * 32 ∨ (b0 + rg * (n / 4) + cb) * 32 + 32 ≤ x) → d.accAt x = c.accAt x) ∧
    { d with acc := c.acc, accFlags := c.accFlags } = c

/-- When the engine has started an ELT.LOADP with its unused bits zero, and its operand, by the address register as it stood at issue,
is 4-byte aligned, inside the scratchpad and free of uncorrectable words: at its completion the slot holds the COUNT words read and it
leaves those in flight, and nothing else changes. ELT.MASK with its reserved bits zero and, with BMP, a valid BIT descriptor, and room
in the element queue: it enters the queue, the mask holds the descriptor and the ranges its bits ask for, and the program index moves
on; with the queue full the sequencer stalls. Nothing else changes. Where the rules leave a choice it follows logs 6 and 87. -/
def Obligations.ElementProgramAndMask : Prop :=
  ∀ (s : State) (p : Nat) (ops : BitVec 56) (c : Core), c = s.core p →
    (∀ (x : InFlight) (n a : Nat), s.working = true → c.headStarted 1 = true →
      (c.inflight.find? fun y => decide (y.eng = 1)) = some x → x.word = 2 * 2 ^ 60 + 2 * 2 ^ 56 + ops.toNat →
      n = fld ops 52 47 + 1 → a = ((c.seenBy x).areg (fld ops 46 42) + BitVec.ofNat 64 (fld ops 19 0)).toNat →
      a + 4 * n ≤ 0x100000 → a % 4 = 0 → c.readUe a (4 * n) = false →
      exec (.engineInstructionComplete p 1 [] []) s = .next (s.setCore p { c with
        slots := Tab.put [] (fld ops 55 53) ((List.range n).map fun k => BitVec.ofNat 32 (leAt (c.bytes a (4 * n)) (4 * k) 4)) c.slots
        inflight := c.inflight.filter fun y => y.id ≠ x.id })) ∧
    (s.atInstr p 2 3 ops → fld ops 49 48 = 0 → (fld ops 51 51 = 0 ∨ ((c.tile (fld ops 55 52)).valid = true ∧ (c.tile (fld ops 55 52)).fmt = fBIT)) →
      exec (.eltMask p ops) s = .next (s.setCore p (if c.queueRoom 1 = true then { c with
          pi := (c.pi + 1) % 8192, nextId := c.nextId + 1
          inflight := c.inflight ++ [{ id := c.nextId, eng := 1, idx := c.pi, word := c.word, t := c.t, a := c.a, v0 := c.v0, mask := c.mask,
                                       descs := if fld ops 51 51 = 1 then [fld ops 55 52] else [], blocksRead := [], blocksWritten := [] }]
          mask := some
            { bmp := if fld ops 51 51 = 1 then some (Tab.get 0 c.t (fld ops 55 52)) else none
              ranges := if fld ops 50 50 = 1 then some (fld ops 47 36, fld ops 35 24, fld ops 23 12, fld ops 11 0) else none } }
        else c)))

/-- When the module works and the engine has started its oldest instruction x: the effect of x's word, on the registers and the mask
taken at issue and on the scratchpad and accumulators as they are now (c, with the words that its reads found past correction), is the
core after it, x leaves those in flight, its flags are ORed into the core's STICKY and into bits 127:124 of each destination descriptor
register it names, and its beats and the words its reads found corrected are counted. An effect that faults is a core fault at x's
index. The effect of a word of the matrix, element, convert, statistic or crystalliser class is the body of its instruction. Where the
rules leave a choice it follows logs 6, 16 and 87. -/
def Obligations.EngineInstructionCompletes : Prop :=
  (∀ (s : State) (p eng : Nat) (fixed bad : List Nat) (x : InFlight) (c : Core), s.working = true → c = (s.core p).upset bad →
    c.headStarted eng = true → (c.inflight.find? fun y => decide (y.eng = eng)) = some x →
    (∀ (d : Core) (f : Flags) (dst : List Nat), engineBody p x.word (c.seenBy x) = .ok (d, f, dst) →
      exec (.engineInstructionComplete p eng fixed bad) s = .next (((s.setCore p { d with
          t := dst.foldl (fun t r => Tab.upd 0 r (fun v => v ||| BitVec.ofNat 128 (f.toNat * 2 ^ 124)) t) c.t
          a := c.a, v0 := c.v0, mask := c.mask, sticky := d.sticky ||| f
          inflight := c.inflight.filter fun y => y.id ≠ x.id }).countBeats p x.word (c.seenBy x)).corrects p fixed)) ∧
    (∀ f, engineBody p x.word (c.seenBy x) = .error f →
      exec (.engineInstructionComplete p eng fixed bad) s = .next ((s.setCore p c).coreFault p f.cause f.unit x.idx f.detail))) ∧
  (∀ (p : Nat) (ops : BitVec 56) (c : Core) (w : Nat → Nat → Nat), w = (fun cls op => cls * 2 ^ 60 + op * 2 ^ 56 + ops.toNat) →
    (∀ op < 4, engineBody p (w 1 op) c = matrixBody (decide (op % 2 = 0)) (decide (2 ≤ op)) ops c) ∧
    engineBody p (w 2 0) c = eltBody false p ops c ∧ engineBody p (w 2 1) c = eltBody true p ops c ∧
    engineBody p (w 2 2) c = loadpBody ops c ∧ engineBody p (w 2 3) c = .ok (c, 0, []) ∧ engineBody p (w 3 0) c = cvtBody p ops c ∧
    engineBody p (w 4 0) c = maxabsBody ops c ∧ engineBody p (w 4 1) c = packBody p ops c ∧ engineBody p (w 4 2) c = rotBody ops c)

/-- When the instruction may issue, its reserved bits are zero and its 64-byte aligned scratch operand lies in the scratchpad: with
fewer than eight descriptors waiting, the engine it names gets one more, with the scratch offset, the two additions and the earlier
instructions that its AFTER bits name, and the program index moves on by one; with eight waiting the sequencer stalls. Nothing else
changes. Where the rules leave a choice it follows log 28. -/
def Obligations.CopyInstructionsQueue : Prop :=
  ∀ (s : State) (p op : Nat) (ops : BitVec 56) (c : Core) (a : Nat) (x : CopyEng) (i : Instr), c = s.core p → s.atInstr p 5 op ops →
    (op, i) ∈ [(0, Instr.cpy1d p ops), (1, .cpy2d p ops), (2, .cpy3d p ops), (3, .cpyT p ops)] → fld ops 37 20 = 0 → a = (c.areg (fld ops 54 50) + BitVec.ofNat 64 (fld ops 19 0)).toNat → a + 64 ≤ 0x100000 → a % 64 = 0 →
    x = c.ce (fld ops 55 55) →
    exec i s = .next (s.setCore p (if 8 ≤ x.queue.length then c else
        { (c.advance.setCe (fld ops 55 55) { x with queue := x.queue ++
            [{ id := c.nextId, idx := c.pi, op := op, scratch := a, srcAdd := c.areg (fld ops 49 45), dstAdd := c.areg (fld ops 44 40),
               waits := (if fld ops 39 39 = 1 then (c.inflight.filter fun f => f.eng = 1).map (·.id) else []) ++
                 (if fld ops 38 38 = 1 then (c.inflight.filter fun f => f.eng = 0).map (·.id) else []), desc := none }] }) with
          nextId := c.nextId + 1 }))

/-- When core p runs or waits in a task, its region and the module work, and the oldest waiting descriptor of engine e names no
instruction still in flight, the 64 bytes at its scratch offset are read (c' is the core with the words that the read found past
correction): an uncorrectable word is SCRATCH_UE (4), a descriptor that does not agree with its CPY is an ILLEGAL_INSTRUCTION (2), one
that breaks a check is a BAD_DESCRIPTOR (3), a semaphore the task may not use is an ADDRESS fault (1), all at the engine's unit and the
instruction's index; one that waits for prior descriptors is held with what was read; any other leaves the queue, becomes active at its
first byte, and the engine runs it. One that was held starts without a second read. Where the rules leave a choice it follows logs 22,
47, 48 and 90. -/
def Obligations.DescriptorStarts : Prop :=
  ∀ (s : State) (p e : Nat) (fixed bad : List Nat) (c c' : Core) (q : CpyEntry) (rest : List CpyEntry) (d : Desc) (start : State → State),
    c = s.core p → c' = c.upset bad → p < 880 → e < 2 → c.busy = true → s.held (p / 11) = false → s.working = true →
    (c.ce e).queue = q :: rest → (c.inflight.any fun f => q.waits.contains f.id) = false →
    start = (fun u =>
      if d.afterPrior = true ∧ ((u.core p).ce e).act ≠ [] then
        u.updCore p fun k => k.setCe e { (u.core p).ce e with queue := { q with desc := some d } :: ((u.core p).ce e).queue.drop 1 }
      else if d.semAdd ≠ 0 ∧ u.semOfCore (u.core p) (p / 11) d.sem = none then u.coreFault p 1 (4 + e) q.idx d.sem
      else (u.updCore p fun k => k.setCe e
        { queue := ((u.core p).ce e).queue.drop 1
          act := ((u.core p).ce e).act ++
            [{ id := q.id, idx := q.idx, scratch := q.scratch, desc := d
               sem := if d.semAdd = 0 then none else u.semOfCore (u.core p) (p / 11) d.sem
               cur := some (d.firstRow.1, d.firstRow.2, 0), nextSeq := 0, reads := [], buf := [], bufDst := 0, outq := [], outstanding := 0
               flush := 0, stopped := false }] }).run p e q.id) →
    (q.desc = none → d = Desc.ofBytes (c'.bytes q.scratch 64) q.srcAdd q.dstAdd → exec (.descriptorStart p e fixed bad) s = .next (
      match c'.scratchRead (4 + e) q.scratch 64 with
      | .error f => (s.setCore p c').coreFault p 4 (4 + e) q.idx f.detail
      | .ok _ =>
        let u := (s.setCore p c').corrects p fixed
        if d.agrees q.op = false then u.coreFault p 2 (4 + e) q.idx q.scratch
        else if u.descOk p d = false then u.coreFault p 3 (4 + e) q.idx q.scratch
        else start u)) ∧
    (q.desc = some d → exec (.descriptorStart p e fixed bad) s = .next (start s))

/-- In a module that works. Data for the oldest piece an active descriptor asked for is delivered to it: from a scratchpad that no
stopped region lies before, once it is out of retention, the bytes there, counted at each boundary on the way and back; a field of
another instance refuses the read, with an event of its switch and an ADDRESS fault, and an uncorrectable word is a SCRATCH_UE; from
elsewhere, the bytes of the read-data token, which leaves its channel. An acknowledgement leaves its channel and reduces the count of
its copy's writes outstanding by one, or of its plan's. A write of whole 8-byte words, or of parts in which the code finds no error,
that reaches a scratchpad of its own instance out of retention writes its bytes and is acknowledged; one that reaches a core in
retention wakes it. Where the rules leave a choice it follows logs 46, 47 and 83. -/
def Obligations.CopyTokensArrive : Prop :=
  ∀ (s : State) (p e d : Nat) (a : ActDesc) (pc : Piece) (rest : List Piece) (tok err : Nat) (fixed bad : List Nat) (t : Token),
    s.working = true →
    (((s.core p).ce e).find d = some a → a.reads = pc :: rest →
      (∀ (q off : Nat) (cq : Core) (u : State), s.place pc.src.toNat = .scratch q off → s.wayHeld (p / 11) (q / 11) = false →
        s.wayHeld (q / 11) (p / 11) = false → (s.core q).act ≠ .retention → cq = (s.core q).upset bad →
        u = ((s.setCore q cq).crossed (p / 11) (q / 11) (s.core p).inst).crossed (q / 11) (p / 11) (s.core p).inst →
        exec (.readDataArrival p e d fixed bad) s = .next (
          if s.fieldInst (q / 11) ≠ some (s.core p).inst
          then (u.discard (q / 11) pc.src.toNat).takeFault p 1 (4 + e) a.idx pc.src.toNat
          else match cq.scratchRead (4 + e) off pc.len with
            | .error f => (u.scratchUe q f.detail).takeFault p 4 (4 + e) a.idx f.detail
            | .ok _ => (u.corrects q fixed).deliverPiece p e a pc (cq.bytes off pc.len) 0)) ∧
      ((∀ q off, s.place pc.src.toNat ≠ .scratch q off) →
        s.net.find? (fun t => t.kind = .readData && t.origin = .ce p e d && t.seq = pc.seq) = some t →
        s.arriving t.id [.readData] = some t →
        exec (.readDataArrival p e d fixed bad) s = .next ((s.take t).deliverPiece p e a pc t.data t.ue))) ∧
    (s.arriving tok [.ack] = some t → t.origin = .ce p e d → (((s.take t).core p).ce e).find d = some a →
      exec (.writeAcknowledge tok) s = .next (((s.take t).putDesc p e { a with outstanding := a.outstanding - 1 }).run p e d)) ∧
    (s.arriving tok [.ack] = some t → t.origin = .seq p → ∀ n id, ((s.take t).core p).wait = .planAck n id →
      exec (.writeAcknowledge tok) s = .next ((s.take t).setCore p { (s.take t).core p with wait := .planAck (n - 1) id })) ∧
    (∀ q off, s.arriving tok [.write] = some t → s.place t.addr.toNat = .scratch q off →
      ((s.core q).act = .retention → exec (.scratchWriteArrival tok err) s = .next (s.wake q)) ∧
      ((s.core q).act ≠ .retention → s.fieldInst (q / 11) = some t.inst →
        ((off % 8 = 0 ∧ (off + t.data.length) % 8 = 0) ∨ (err = 0 ∧ (s.core q).ueWords = [])) →
        ∃ w : State, w = (s.take t).setCore q ((s.core q).write off t.data) ∧
          exec (.scratchWriteArrival tok err) s = .next (w.acknowledge t)))

/-- When the instruction may issue, its reserved bits are zero, the units its AFTER field names have completed, and its identifier
translates to a physical semaphore k: an amount of zero completes at once; otherwise one token with the amount leaves for the semaphore
memory of k's field, SEM.ADD and SEM.SUB hold the sequencer until performed, and a wait makes the core WAITING. While a unit that AFTER
names has not completed nothing happens. An identifier outside the task's range is an ADDRESS fault with the identifier as detail. Where
the rules leave a choice it follows logs 27 and 28. -/
def Obligations.SemaphoreInstructionsLeave : Prop :=
  ∀ (s : State) (p op : Nat) (ops : BitVec 56) (c : Core) (v : Nat) (i : Instr) (kind : TokKind), c = s.core p → s.atInstr p 6 op ops →
    (op, i, kind) ∈ [(0, Instr.semAdd p ops, TokKind.semAdd), (1, .semSub p ops, .semSub), (2, .semWaitge p ops, .waitge),
      (3, .semWaitsub p ops, .waitsub)] →
    fld ops 50 48 = 0 → fld ops 27 24 = 0 → (2 ≤ op → fld ops 31 28 = 0) →
    v = (fld ops 47 32 + (c.areg (fld ops 55 51)).toNat) % 65536 →
    (c.afterDone (fld ops 31 28) = false → exec i s = .next s) ∧
    (c.afterDone (fld ops 31 28) = true → s.semOfCore c (p / 11) v = none → exec i s = .next (s.coreFault p 1 0 c.pi v)) ∧
    (∀ k, c.afterDone (fld ops 31 28) = true → s.semOfCore c (p / 11) v = some k →
      exec i s = .next (if fld ops 23 0 = 0 then s.setCore p { c with pi := (c.pi + 1) % 8192 } else
        (s.setCore p (if op < 2 then { c with wait := .semPerformed } else { c with act := .waiting, wait := .semWait })).send
          { id := 0, kind := kind, origin := .seq p, inst := c.inst, srcUnit := posUnit p 0, dstUnit := semUnit (k / 4096),
            addr := BitVec.ofNat 64 k, n := fld ops 23 0, seq := c.taskId }))

/-- For every count and waiter table: examining semaphore k's waiters completes waiters of k only, each waiter is either completed or stays, the
count left is the count less the amounts of the completed WAITSUBs, which did not exceed it, the waiters of other semaphores stay in their order,
and no waiter of k that stays has an amount at or below the count left. -/
def Obligations.ExamineCompletesWaiters : Prop :=
  ∀ (k c : Nat) (ws : List SemWaiter) (r : Nat × List SemWaiter × List SemWaiter), r = examine k c ws →
    (∀ w ∈ r.2.2, w.phys = k ∧ w ∈ ws) ∧ (r.2.1 ++ r.2.2).Perm ws ∧ r.1 + ((r.2.2.filter (·.sub)).map (·.n)).sum = c ∧
    (r.2.1.filter fun w => w.phys ≠ k) = (ws.filter fun w => w.phys ≠ k) ∧ (∀ w ∈ r.2.1, w.phys = k → r.1 < w.n)

/-- When an ADD or SUB token may arrive at the field of its own instance, no waiter of its semaphore waits, and the tables are in order: the
count becomes the sum, at most 16,777,215, or the difference, at least zero; SATURATED or CLAMPED of the field's SEM_EVENTS goes up by
one, holding at its largest value, exactly when the count was cut; every other count, the waiters, pan, granary and NVS are unchanged, and
no core changes but the one whose SEM instruction now completes and goes on after it. -/
def Obligations.SemaphoreAddAndSub : Prop :=
  ∀ (s : State) (tok k : Nat) (t : Token), k = t.addr.toNat → Tab.sorted s.sem = true → Tab.sorted s.fields = true →
    Tab.sorted s.cores = true → s.fieldInst (k / 4096) = some t.inst → (∀ w ∈ s.semWaiters, w.phys ≠ k) →
    (s.arriving tok [.semAdd] = some t → ∃ u, exec (.semaphoreAdd tok) s = .next u ∧
      u.semCount k = min 16777215 (s.semCount k + t.n) ∧ (∀ j, j ≠ k → u.semCount j = s.semCount j) ∧
      (u.field (k / 4096)).saturated = (if 16777215 < s.semCount k + t.n then holdAdd 0xFFFF (s.field (k / 4096)).saturated 1
        else (s.field (k / 4096)).saturated) ∧
      u.semWaiters = s.semWaiters ∧ u.pan = s.pan ∧ u.gran = s.gran ∧ u.nvs = s.nvs ∧
      (∀ p, t.origin ≠ .seq p → u.core p = s.core p) ∧
      (∀ p, t.origin = .seq p → (s.core p).wait = .semPerformed → (s.core p).taskId = t.seq →
        u.core p = { s.core p with pi := ((s.core p).pi + 1) % 8192, wait := .none })) ∧
    (s.arriving tok [.semSub] = some t → ∃ u, exec (.semaphoreSub tok) s = .next u ∧
      u.semCount k = s.semCount k - t.n ∧ (∀ j, j ≠ k → u.semCount j = s.semCount j) ∧
      (u.field (k / 4096)).clamped = (if s.semCount k < t.n then holdAdd 0xFFFF (s.field (k / 4096)).clamped 1
        else (s.field (k / 4096)).clamped) ∧
      u.semWaiters = s.semWaiters ∧ u.pan = s.pan ∧ u.gran = s.gran ∧ u.nvs = s.nvs ∧
      (∀ p, t.origin ≠ .seq p → u.core p = s.core p) ∧
      (∀ p, t.origin = .seq p → (s.core p).wait = .semPerformed → (s.core p).taskId = t.seq →
        u.core p = { s.core p with pi := ((s.core p).pi + 1) % 8192, wait := .none }))

/-- When a wait of amount n reaches the semaphore memory of its instance's field and its core still waits: with the count at or above n a
WAITGE sends a wake token, and a WAITSUB subtracts n in the same step, which examines the other waiters, and then sends it; below n the wait
joins the waiter table, after those there, and the field's peak of waiters follows unless its instance is confidential. A wake token that
reaches a core still in that wait makes it run again after its instruction. In every case the operation is counted and nothing else changes. -/
def Obligations.WaitsAndWakes : Prop :=
  (∀ (s : State) (tok k p : Nat) (sub : Bool) (t : Token) (u w : State), k = t.addr.toNat → t.origin = .seq p →
    s.arriving tok [if sub = true then .waitsub else .waitge] = some t → s.fieldInst (k / 4096) = some t.inst →
    (s.take t).stillWaits p t.seq = true → u = (s.take t).semCounted k →
    w = { u with semWaiters := u.semWaiters ++ [⟨k, t.n, sub, p, t.inst, t.seq⟩] } →
    exec (if sub = true then .waitsub tok else .waitge tok) s = .next (
      if t.n ≤ u.semCount k
      then (if sub = true then u.semChange k (u.semCount k - t.n) else u).wakeCore (semUnit (k / 4096)) p t.inst t.seq
      else if s.fieldConfid (k / 4096) = true then w
      else w.updField (k / 4096) fun x =>
        { x with semPeak := max x.semPeak (w.semWaiters.filter fun w => w.phys / 4096 = k / 4096).length })) ∧
  (∀ (s : State) (tok p : Nat) (t : Token), t.origin = .seq p → s.arriving tok [.wake] = some t →
    (s.take t).stillWaits p t.seq = true →
    exec (.wakeToken tok) s = .next ((s.take t).updCore p fun c => { c with pi := (c.pi + 1) % 8192, act := .running, wait := .none }))

/-- FE.LOAD and FE.STORE with their reserved bits zero and their 64-byte aligned line in the scratchpad: an address outside the task's
tagged regions is an ADDRESS fault; else one token leaves for the column controller, with the line's bytes for a store, and the core
waits. At the controller, when the block's tag fits, the operation is performed and then every waiter of the block that it allows: a
load puts the block's 64 bytes into the scratch line and empties the tag unless KEEP, a store writes its bytes and fills the tag, and a
wake leaves for the core; when it does not fit and fewer than 32 wait at the column it joins the waiters, and with 32 waiting it is
answered RETRY, and the core may reissue it 64 beats later. FE_RETRY reissues an operation once its time has come. Where the rules leave
a choice it follows log 24. -/
def Obligations.FullEmptyOperations : Prop :=
  (∀ (s : State) (p : Nat) (ops : BitVec 56) (load : Bool) (c : Core) (a : Nat) (op : FeOp), c = s.core p →
    s.atInstr p 6 (if load = true then 4 else 5) ops → fld ops 44 20 = 0 → (load = true ∨ fld ops 45 45 = 0) →
    a = (c.areg (fld ops 50 46) + BitVec.ofNat 64 (fld ops 19 0)).toNat → a + 64 ≤ 0x100000 → a % 64 = 0 →
    op = { load := load, addr := c.areg (fld ops 55 51), line := a, keep := decide (fld ops 45 45 = 1) } →
    (s.feTarget p c op.addr = none →
      exec (if load = true then .feLoad p ops else .feStore p ops) s = .next (s.coreFault p 1 0 c.pi op.addr.toNat)) ∧
    (∀ q off, s.feTarget p c op.addr = some (q, off) → (load = true ∨ c.readUe a 64 = false) →
      exec (if load = true then .feLoad p ops else .feStore p ops) s =
        .next ((s.setCore p { c with act := .waiting, wait := .fe op }).send
          { id := 0, kind := .fe, origin := .seq p, inst := c.inst, srcUnit := posUnit p 0, dstUnit := posUnit q 7,
            addr := op.addr, n := 64, seq := c.taskId, data := if load = true then [] else c.bytes a 64, fe := some op }))) ∧
  (∀ (s : State) (tok p q off k : Nat) (t : Token) (op : FeOp) (w : FeWaiter), s.arriving tok [.fe] = some t → t.origin = .seq p →
    t.fe = some op → s.place t.addr.toNat = .pan q off → (Tab.get {} s.panCtl q).retraining = false →
    s.fieldInst (p / 11) = some t.inst → (s.take t).stillWaits p t.seq = true → s.panKey q off = some k →
    w = { block := off / 64, pos := q, p := p, inst := t.inst, taskId := t.seq, op := op, data := t.data } →
    (Tab.get false s.tags (k / 64) = op.load → exec (.feArrival tok) s = .next (State.feExamine q off 33 ((s.take t).fePerform q off w))) ∧
    (Tab.get false s.tags (k / 64) = op.load → (∀ x ∈ s.feWaiters, ¬ (x.pos = q ∧ x.block = off / 64)) →
      ∃ u, exec (.feArrival tok) s = .next u ∧
        (Tab.sorted s.tags = true → Tab.get false u.tags (k / 64) = (if op.load = true then op.keep else true)) ∧
        u.feWaiters = s.feWaiters ∧ u.sem = s.sem ∧ u.gran = s.gran ∧ (op.load = true → u.pan = s.pan) ∧
        (op.load = false → u.pan = (s.panWrite q off t.data).pan) ∧
        (op.load = true → Tab.sorted s.cores = true → (s.core p).scratchWf → (s.core p).ueWords = [] →
          (u.core p).bytes op.line 64 = s.panRead q off 64) ∧
        (∃ x ∈ u.net, x.kind = .wake ∧ x.origin = .seq p ∧ x.dstUnit = posUnit p 0 ∧ x.seq = t.seq)) ∧
    (Tab.get false s.tags (k / 64) ≠ op.load → (s.feWaiters.filter fun x => x.pos = q).length < 32 →
      exec (.feArrival tok) s = .next { s.take t with feWaiters := s.feWaiters ++ [w] }) ∧
    (∀ due, Tab.get false s.tags (k / 64) ≠ op.load → 32 ≤ (s.feWaiters.filter fun x => x.pos = q).length →
      due = s.tb.count + (if (s.region (p / 11)).rate = 0 then 0 else ceilDiv (64 * 1000) (s.region (p / 11)).rate) →
      exec (.feArrival tok) s = .next ((s.take t).updCore p fun c => { c with act := .running, wait := .feRetry due op }))) ∧
  (∀ (s : State) (p due q off : Nat) (op : FeOp) (c : Core), c = s.core p → c.wait = .feRetry due op → due ≤ s.tb.count →
    s.held (p / 11) = false → s.working = true → s.feTarget p c op.addr = some (q, off) → (op.load = true ∨ c.readUe op.line 64 = false) →
    exec (.feRetry p) s = .next ((s.setCore p { c with act := .waiting, wait := .fe op }).send
      { id := 0, kind := .fe, origin := .seq p, inst := c.inst, srcUnit := posUnit p 0, dstUnit := posUnit q 7,
        addr := op.addr, n := 64, seq := c.taskId, data := if op.load = true then [] else c.bytes op.line 64, fe := some op }))

/-- An idle core in service with RETAIN set, no copy work and no march test under way, in a region that runs, enters retention with a
record in the management ring; one in retention whose wake time has come is idle again, with a record. COR_CTRL takes its RETAIN bit,
and a zero in it wakes a core in retention. A write of COR_MARCH_CTRL with a mode takes its banks, and starts the test where R111 allows
it, and sets REFUSED where it does not. The end of a test shows DONE, FAIL, the first bank and the failing lines; a destructive test
leaves its banks zero. Where the rules leave a choice it follows logs 30 and 93. -/
def Obligations.RetentionAndMarch : Prop :=
  ∀ (s : State) (p : Nat) (c : Core) (v : BitVec 32), c = s.core p → p < 880 →
    (c.act = .idle → c.retain = true → c.ce0.idle = true → c.ce1.idle = true → s.posCode p = 0 → c.march.busy = 0 →
      s.held (p / 11) = false → s.working = true → exec (.retentionEntry p) s =
        .next ((s.setCore p { c with act := .retention, waking := none }).mgtRecord
          (eventBytes s.tb.count (regionUnit (p / 11) 0x1FF) 0x20 (p / 11)))) ∧
    (∀ t, c.waking = some t → c.act = .retention → t ≤ s.tb.count → exec (.retentionWake p) s =
      .next ((s.setCore p { c with act := .idle, waking := none }).mgtRecord
        (eventBytes s.tb.count (regionUnit (p / 11) 0x1FF) 0x21 (p / 11)))) ∧
    (s.regOk = true → bit v.toNat 0 = true → exec (.corCtrlWrite p v) s = .next (s.setCore p { c with retain := true })) ∧
    (s.regOk = true → bit v.toNat 0 = false → Tab.sorted s.cores = true → ∃ t, exec (.corCtrlWrite p v) s = .next t ∧
      t.core p = (if c.act = .retention ∧ c.waking = none then { c with retain := false, waking := some (s.tb.count + 2000) }
        else { c with retain := false }) ∧ { t with cores := s.cores } = s) ∧
    (∀ mode i, (mode, i) ∈ [(1, Instr.marchDestructive p v), (2, .marchContentPreserving p v)] → s.regOk = true →
      bits v.toNat 1 0 = mode → exec i s = .next (s.setCore p { c with march :=
        (if s.marchAllowed p mode = true then { c.march with banks := BitVec.ofNat 16 (bits v.toNat 31 16), busy := mode }
        else { c.march with banks := BitVec.ofNat 16 (bits v.toNat 31 16), refused := true }) })) ∧
    (∀ failBank failLines t, c.march.busy ≠ 0 → t = s.setCore p { (if c.march.busy = 1 then c.zeroBanks c.march.banks else c) with
        march := { c.march with busy := 0, done := true, fail := decide (failLines ≠ 0), firstBank := failBank % 16,
                                failLines := failLines % 65536 } } →
      exec (.marchTestComplete p failBank failLines) s = .next (if failLines = 0 then t else
        t.event (posUnit p 6) 0x10 (failBank % 16 + failLines % 65536 * 16) (s.fieldConfid (p / 11))))

/-- When a read, a write or a partial write may arrive at a column that serves, and its range lies in regions its instance may use so (a
read: of slots its job may still read) and is mapped: the blocks that it reads, for a write those it covers in part, are decoded, each
under its 72 symbols of the error pattern; a read answers the bytes there, flagged when a block of it is uncorrectable; a write puts
exactly its bytes at its range, restores the whole blocks it covers, and is acknowledged; the column's byte counter advances, and
nothing else changes. An operation outside its instance's regions is an event of the field's switch, and it and one that its controller
does not allow are discarded and their issuer told. Where the rules leave a choice it follows logs 29 and 35. -/
def Obligations.PanReadsAndWrites : Prop :=
  ∀ (s : State) (tok q off : Nat) (t : Token) (u : State) (err : List Byte), s.place t.addr.toNat = .pan q off → s.panServes q = true →
    u = s.take t →
    (s.arriving tok [.readReq] = some t → ∀ v : State, v = u.panDecodes q off t.n (fun _ => true) err →
      exec (.panRead tok err) s = .next (
        if u.carvesAll (u.ctlAllows t.inst (u.basesOf t) .read) q 225 off t.n = true ∧ u.mapped q off t.n = true then
          (v.count (posUnit q 7) 0x04 t.n).deliverRead t (v.panRead q off t.n) (if v.panBad q off t.n = true then 7 else 0)
        else if u.carvesAll (u.carveAllows t.inst .read) q 225 off t.n = true then u.faultOrigin t
        else (u.discard (q / 11) t.addr.toNat).faultOrigin t)) ∧
    (∀ n i, n = t.data.length → s.arriving tok [.write] = some t →
      ((i = .panWrite tok ∧ err = [] ∧ off % 64 = 0 ∧ n % 64 = 0) ∨ (i = .panPartialWrite tok err ∧ ¬ (off % 64 = 0 ∧ n % 64 = 0))) →
      ∀ v : State, v = u.panDecodes q off n (fun b => !wholeBlock off n b) err →
      exec i s = .next (
        if u.carvesAll (u.ctlAllows t.inst [] .write) q 225 off n = true ∧ u.mapped q off n = true then
          (((v.panWrite q off t.data).panHeal q off n).count (posUnit q 7) 0x05 n).acknowledge t
        else if u.carvesAll (u.carveAllows t.inst .write) q 225 off n = true then u.faultOrigin t
        else (u.discard (q / 11) t.addr.toNat).faultOrigin t))

/-- For every state with pan DRAM in canonical form, column, offset and bytes, where each byte of the range is mapped and the map names different
places for different offsets: after the write the range reads the bytes, every other place of pan DRAM keeps its byte, and nothing but pan
DRAM changes. The place of a byte names it back: a pan block at column offset o lies in layer (o / 64) mod 8 of its column, and a granary
byte in the channel that its address bits 13:9 give. -/
def Obligations.PanWriteFrame : Prop :=
  (∀ (s : State) (q off : Nat) (bs : List Byte) (t : State), Memory.wf s.pan = true → t = s.panWrite q off bs →
    (∀ i < bs.length, ∃ a, s.panKey q (off + i) = some a) →
    (∀ i < bs.length, ∀ j < bs.length, s.panKey q (off + i) = s.panKey q (off + j) → i = j) →
    t.panRead q off bs.length = bs ∧ Memory.wf t.pan = true ∧ { t with pan := s.pan } = s ∧
    (∀ a, (∀ i < bs.length, s.panKey q (off + i) ≠ some a) → Memory.byte t.pan a = Memory.byte s.pan a)) ∧
  (∀ a < 880 * columnBytes, panByteOf (panCell a) = a ∧ panCell a / columnBytes = a / columnBytes ∧
    panCell a % columnBytes / layerBytes = a % columnBytes / 64 % 8) ∧
  (∀ a < 0xC000000000, granByteOf (granCell a) = a ∧ granCell a / 0x600000000 = bits a 13 9)

/-- For every mapped block of a column not yet marked, and every error pattern over its 72 symbols: one to four symbol errors add one to
CORRECTED and change no byte; five or more that lie within four symbols of no codeword mark the block, leave it holding its 64 bytes as
read, and add one to UNCORRECTED; five or more within four symbols of another codeword leave the block unmarked with that codeword's
data, counted as a correction when a symbol was changed. No error, or a block already marked, changes nothing. In every case only pan
DRAM, its marks, the column's registers and the counters may change. Where the rules leave a choice it follows logs 29 and 84. -/
def Obligations.PanErrorsAreDecoded : Prop :=
  ∀ (s : State) (q off k : Nat) (err e word : List Byte) (t : State), s.panKey q (off / 64 * 64) = some k → e = slice err 0 72 →
    word = (codeword (Memory.read s.pan k 64)).zipWith (· ^^^ ·) e → t = s.panDecode q off err → Tab.sorted s.panCtl = true →
    { t with pan := s.pan, panUe := s.panUe, panCtl := s.panCtl, obs := s.obs } = s ∧
    (symbolErrors e = 0 ∨ Tab.get false s.panUe (k / 64) = true → t = s) ∧
    (Tab.get false s.panUe (k / 64) = false → 1 ≤ symbolErrors e → symbolErrors e ≤ 4 → t.pan = s.pan ∧ t.panUe = s.panUe ∧
      (Tab.get {} t.panCtl q).corrected = holdAdd 0xFFFF (Tab.get {} s.panCtl q).corrected 1) ∧
    (Tab.get false s.panUe (k / 64) = false → 5 ≤ symbolErrors e → rsDecode word = none →
      t.pan = Memory.write s.pan k (word.take 64) ∧ t.panUe = Tab.put false (k / 64) true s.panUe ∧
      (Tab.get {} t.panCtl q).uncorrected = holdAdd 0xFF (Tab.get {} s.panCtl q).uncorrected 1) ∧
    (∀ w, Tab.get false s.panUe (k / 64) = false → 5 ≤ symbolErrors e → rsDecode word = some w →
      t.pan = Memory.write s.pan k (w.take 64) ∧ t.panUe = s.panUe ∧
      (w ≠ word → (Tab.get {} t.panCtl q).corrected = holdAdd 0xFFFF (Tab.get {} s.panCtl q).corrected 1))

/-- When an accumulate may arrive at a column that serves and is allowed, the adds of its first 64-byte block are done: the block is
decoded, each 32-bit target there becomes the F32 sum of its old value and its BF16 operand, each target that becomes non-finite is an
event, and the rest of the accumulate waits at its sump, or with nothing left it is acknowledged. A granary read decodes and answers the
bytes of its instance's range, a write puts exactly its bytes and restores the blocks it covers, an accumulate works as on a sump; an
offset past the range is refused. A scrub read decodes one block, records an event when it finds it uncorrectable, and counts a pass at
its end. Where the rules leave a choice it follows log 29. -/
def Obligations.SumpsGranaryAndScrub : Prop :=
  (∀ (s : State) (tok q off : Nat) (t : Token) (u v : State) (err ops : List Byte) (r : List (List Byte) × List Nat),
    s.place t.addr.toNat = .pan q off → s.panServes q = true → u = s.take t → s.arriving tok [.accumulate] = some t →
    u.carvesAll (u.ctlAllows t.inst [] .acc) q 225 off (2 * t.data.length) = true → u.mapped q off (2 * t.data.length) = true →
    ops = t.data.take (max 2 ((64 - off % 64) / 4 * 2)) → v = u.panDecodes q off (2 * ops.length) (fun _ => true) err →
    r = sumpRun (fun a => leNat (v.panRead q a 4)) off ops →
    exec (.sumpAccumulate tok err) s = .next (((r.2.foldl (fun (s : State) a => s.event (posUnit q 7) 0x42 a (s.confid t.inst))
      (v.panWrite q off r.1.flatten)).count (posUnit q 7) 0x06 ops.length).accRest t ops)) ∧
  (∀ (s : State) (t : Token) (done : List Byte),
    (t.data.length ≤ done.length → s.accRest t done = s.acknowledge t) ∧
    (done.length < t.data.length → s.accRest t done = { s with net := ({ t with
      addr := t.addr + BitVec.ofNat 64 (2 * done.length), data := t.data.drop done.length, n := t.n - done.length, path := [] } : Token) :: s.net })) ∧
  (∀ (s : State) (tok off a : Nat) (t : Token) (u : State) (err : List Byte), u = s.take t → a = s.granBase t.inst + off →
    (∀ w : State, s.granArriving tok [.readReq] = some (t, off) → w = u.granDecodes a t.n (fun _ => true) err →
      exec (.granaryRead tok err) s = .next (if s.granSize t.inst < off + t.n then u.faultOrigin t
        else (w.countAccess (granUnit (granCtlOf a)) 0x04 t.n t.inst).deliverRead t
          (w.granBytes a t.n) (if w.granBad a t.n = true then 8 else 0))) ∧
    (∀ w : State, s.granArriving tok [.write] = some (t, off) →
      w = u.granDecodes a t.data.length (fun b => !wholeBlock a t.data.length b) err →
      exec (.granaryWrite tok err) s = .next (if s.granSize t.inst < off + t.data.length then u.faultOrigin t
        else (((w.granStore a t.data).granHeal a t.data.length).countAccess (granUnit (granCtlOf a)) 0x05 t.data.length
          t.inst).acknowledge t)) ∧
    (∀ (w : State) (ops : List Byte) (r : List (List Byte) × List Nat), s.granArriving tok [.accumulate] = some (t, off) →
      ops = t.data.take (max 2 ((64 - a % 64) / 4 * 2)) → w = u.granDecodes a (2 * ops.length) (fun _ => true) err →
      r = sumpRun (fun x => leNat (w.granBytes x 4)) a ops →
      exec (.granaryAccumulate tok err) s = .next (if s.granSize t.inst < off + 2 * t.data.length then u.faultOrigin t
        else ((r.2.foldl (fun (s : State) x => s.event (regionUnit (96 + granCtlOf a) 1) 0x42 x (s.confid t.inst))
          (w.granStore a r.1.flatten)).countAccess (regionUnit (96 + granCtlOf a) 1) 0x06 ops.length t.inst).accRest t ops))) ∧
  (∀ (s : State) (block : Nat) (err : List Byte) (last : Bool), s.working = true →
    (block < 12884901888 → ∀ c t u, c = granCtlOf (block * 64) → t = s.granDecode (block * 64) err →
      u = (if Tab.get false t.granUe block = true ∧ Tab.get false s.granUe block = false then
        t.event (granUnit c) 0x13 (block * 64) (t.granConfid (block * 64)) else t) →
      exec (.scrubRead true block err last) s = .next (if last = true then
        u.updGran c fun m => { m with scrubPasses := holdAdd 0xFFFF m.scrubPasses 1 } else u)) ∧
    (∀ p l t u, p = block * 64 / columnBytes → p < 880 → s.fence.retired.contains p = false → l = s.panLogical (block * 64) →
      t = s.panDecode (l / columnBytes) (l % columnBytes) err →
      u = (if Tab.get false t.panUe block = true ∧ Tab.get false s.panUe block = false then
        t.event (posUnit p 7) 0x12 (panByteOf (block * 64) % columnBytes) (t.fieldConfid (p / 11)) else t) →
      exec (.scrubRead false block err last) s = .next (if last = true then
        u.updPan p fun m => { m with scrubPasses := holdAdd 0xFFFF m.scrubPasses 1 } else u)))

/-- When BAR0 answers and the module works: with no NVS operation running, a write of NVS_CMD with LOAD_FULL or APPLY_PARTIAL starts and
asks its port for the bytes at the length and address in the registers. A STORE_STAGED with nothing staged ends at once with that
result; any other STORE ends at once with NO_SPACE where its images do not fit the slot, and else with WORN where an area it would write
has had 10,000 cycles; otherwise it starts, and makes the slot's header invalid first when it has images to write. While an operation
runs, any of the four is ignored and sets REFUSED. Nothing else changes. Where the rules leave a choice it follows logs 31 and 92. -/
def Obligations.NvsCommandsStart : Prop :=
  ∀ (s : State) (port : Nat) (v : BitVec 32) (op : Nat) (i : Instr), s.bar0 = true → s.working = true → fld v 3 0 = op →
    (op, i) ∈ [(1, Instr.loadFull port v), (2, .applyPartial port v), (3, .storeEffective port v), (4, .storeStaged port v)] →
    (s.nvs.op.isSome = true → exec i s = .next { s with nvs := { s.nvs with refused := true } }) ∧
    (s.nvs.op = none → op ≤ 2 → exec i s = .next (State.fetch { s with nvs := { s.nvs with op :=
      (some { op := op, slot := 0, calibration := false, fenceMap := false, port := port, addr := s.nvs.srcAddr.toNat,
              len := s.nvs.srcLen.toNat }) } } port none .image s.nvs.srcAddr.toNat s.nvs.srcLen.toNat)) ∧
    (s.nvs.op = none → op = 4 → s.nvs.staged = none →
      exec i s = .next { s with nvs := { s.nvs with op := none, result := resNothingStaged } }) ∧
    (∀ o : NvsOp, s.nvs.op = none → 3 ≤ op → (op = 4 → s.nvs.staged ≠ none) →
      o = { op := op, slot := fld v 4 4, calibration := bit v.toNat 8, fenceMap := bit v.toNat 9, port := port, addr := 0, len := 0 } →
      exec i s = .next (
        if 0x300000 < (packImages (s.storeImages op)).length then { s with nvs := { s.nvs with op := none, result := resNoSpace } }
        else if ∃ a ∈ s.storeAreas o, 10000 ≤ a.2 then { s with nvs := { s.nvs with op := none, result := resWorn } }
        else if s.storeImages op = [] then { s with nvs := { s.nvs with op := some o } }
        else { s with nvs := { s.nvs with op := some o, mem := Memory.zero s.nvs.mem (o.slot * 0x300000) 64 } }))

/-- When a STORE of images alone ends (no calibration, fence map or key to store), in a module that works, with the NVS in canonical
form: the slot holds the images one behind the other, each from a 64-byte boundary, and reads zero past them; every byte outside the
slot's 3 MiB is as before; the operation has ended with result OK and the slot's cycle count is one higher. Pan DRAM, the granary and
the configuration in effect are unchanged. Where the rules leave a choice it follows logs 19, 31 and 92. -/
def Obligations.NvsStoreWritesSlot : Prop :=
  ∀ (s : State) (o : NvsOp), s.working = true → s.nvs.op = some o → (o.op = 3 ∨ o.op = 4) → o.calibration = false → o.fenceMap = false →
    s.keyPending = false → o.slot < 2 → s.storeImages o.op ≠ [] → (packImages (s.storeImages o.op)).length ≤ 0x300000 →
    Memory.wf s.nvs.mem = true →
    ∃ t, exec .nvsWriteComplete s = .next t ∧ t.nvs.op = none ∧ t.nvs.result = resOk ∧
      (∀ i < 0x300000, Memory.byte t.nvs.mem (o.slot * 0x300000 + i) = (packImages (s.storeImages o.op)).getD i 0) ∧
      (∀ x, (x < o.slot * 0x300000 ∨ o.slot * 0x300000 + 0x300000 ≤ x) → Memory.byte t.nvs.mem x = Memory.byte s.nvs.mem x) ∧
      t.nvs.cycSlotA = (if o.slot = 0 then s.nvs.cycSlotA + 1 else s.nvs.cycSlotA) ∧
      t.nvs.cycSlotB = (if o.slot = 0 then s.nvs.cycSlotB else s.nvs.cycSlotB + 1) ∧
      t.pan = s.pan ∧ t.gran = s.gran ∧ t.zen = s.zen ∧ t.cores = s.cores

/-- When the host's read of an image has ended and the module works: a read the host failed ends with HOST_READ_FAULT. A full image
whose checks all pass, with a sequence at or above that in effect and no confidential instance on an open debug unit, is staged while
instances exist, and otherwise applied: base slots empty, pan and granary are zero, commits refused, the re-layout pending. With a full
image in effect, a partial image whose checks all pass, with a sequence above every partial image's, no touched instance locked by
TDISP, none that must be idle busy, and no confidential instance on an open debug unit, begins its re-layout. An image that fails a
check ends with the result of the first check that it fails, and changes nothing else. Where the rules leave a choice it follows logs
21, 32 and 92. -/
def Obligations.ImagesAreChecked : Prop :=
  ∀ (s : State) (o : NvsOp) (bytes b : List Byte), s.nvs.op = some o → s.nvs.relayout = none → s.working = true →
    b = padTo o.len bytes → (o.op = 1 ∨ o.op = 2) →
    (o.got = some (false, bytes) → exec .imageReadComplete s = .next { s with nvs := { s.nvs with op := none, result := resHostReadFault } }) ∧
    (∀ r, o.got = some (true, bytes) → o.op = 1 → r = zValidateFull b s.key →
      exec .imageReadComplete s = .next (
        if r.1 ≠ 0 then { s with nvs := { s.nvs with op := none, result := r.1 } }
        else if s.sec.debugOpen = true ∧ r.2.insts.any (·.confidential) = true then
          { s with nvs := { s.nvs with op := none, result := resInvalidContent } }
        else if s.nvs.full ≠ [] ∧ zSequence b < zSequence s.nvs.full then { s with nvs := { s.nvs with op := none, result := resRollback } }
        else if s.zen.insts = [] then
          { s with pan := [], panUe := [], tags := [], gran := [], granUe := [], adm := { s.adm with refusing := true },
                   thr := { s.thr with slots := [] },
                   nvs := { s.nvs with relayout := some { image := b.take (zTotal b), cfg := r.2, scope := [], full := true } } }
        else { s with nvs := { s.nvs with op := none, result := resOk, staged := some (b.take (zTotal b)) } })) ∧
    (∀ r, o.got = some (true, bytes) → o.op = 2 → s.nvs.full ≠ [] → r = zValidatePartial s.zen b (zSequence s.nvs.full) s.key →
      exec .imageReadComplete s = .next (
        if r.1 ≠ 0 then { s with nvs := { s.nvs with op := none, result := r.1 } }
        else if s.sec.debugOpen = true ∧ (((zRecords b 1).getD []).map instOf).any (·.confidential) = true then
          { s with nvs := { s.nvs with op := none, result := resInvalidContent } }
        else if ∃ i ∈ touched s.zen r.2 (zScope b), (s.inst i).tdi = 1 then { s with nvs := { s.nvs with op := none, result := resScopeBusy } }
        else if ∃ i ∈ mustBeIdle s.zen r.2, s.instBusy i = true then { s with nvs := { s.nvs with op := none, result := resScopeBusy } }
        else if ∃ x ∈ s.nvs.partials, zSequence b ≤ zSequence x then { s with nvs := { s.nvs with op := none, result := resRollback } }
        else s.applyPartial (b.take (zTotal b)) r.2))

/-- In a module that works: when the zeroing of a full image is done, its records are in effect, it is the effective image with no
partial image upon it, the module is READY and out of any halt, and the operation ends with OK. When a partial re-layout's zeroing is
done and no debug stop holds its fields, its records are in effect, its image joins the partial images, the operation ends with OK, and
the cores are as before but for copies that were held up. An instance that has drained for a change of binding takes its new port and
PASID and is active again, and nothing else changes. Where the rules leave a choice it follows logs 32, 34 and 80. -/
def Obligations.ConfigurationTakesEffect : Prop :=
  ∀ s : State, s.working = true →
    (∀ r, s.nvs.relayout = some r → r.full = true → ∃ t, exec .fullImageApplyComplete s = .next t ∧ t.zen = r.cfg ∧
      t.nvs.relayout = none ∧ t.nvs.full = r.image ∧ t.nvs.partials = [] ∧ t.nvs.op = none ∧ t.nvs.result = resOk ∧ t.nvs.mem = s.nvs.mem ∧
      t.mgt.stage = 9 ∧ t.mgt.halted = false ∧ t.pan = s.pan ∧ t.gran = s.gran ∧ t.cores = s.cores ∧ t.sem = s.sem) ∧
    (∀ r, s.nvs.relayout = some r → r.full = false → (∀ f ∈ r.scope, 2 ∉ (s.region f).held) → ∃ t, exec .relayout s = .next t ∧
      t.nvs.relayout = none ∧ t.nvs.full = s.nvs.full ∧ t.nvs.partials = s.nvs.partials ++ [r.image] ∧ t.nvs.op = none ∧
      t.nvs.result = resOk ∧ t.nvs.mem = s.nvs.mem ∧ t.zen.fields = r.cfg.fields ∧ t.zen.carves = r.cfg.carves ∧
      t.zen.slots = r.cfg.slots ∧ t.zen.sems = r.cfg.sems ∧ t.zen.links = r.cfg.links ∧
      ((∀ e ∈ s.cores, e.2.ce0.act = [] ∧ e.2.ce1.act = []) → t.cores = s.cores)) ∧
    (∀ i b, (s.inst i).adopt = some b → (s.inst i).state = .adopting → s.instBusy i = false → s.nvs.relayout = none →
      exec (.adoption i) s = .next (State.updInst { s with zen := { s.zen with
          insts := mapIf (fun r => r.inst = i) (fun r => { r with port := b.1, pasid := b.2 }) s.zen.insts } } i
        fun x => { x with state := .active, adopt := none }))

/-- An input that rises above 40 V on a closed mate loop starts an unpowered module, which no over-voltage disconnect holds, from its
cold state: stage 0, the hold-up bank charging, pan DRAM, the granary and every queue empty, no job and no instance, while the NVS and
the security floors stay. RESET# low for 10 µs or more repeats this on a powered module; a shorter pulse does nothing. PERST# released
after stage 0 starts training of its port; released earlier, it starts training once stage 0 has passed. A configuration request of a
powered module is answered once BAR0 answers, or once start-up has found no valid slot, and then sets the ATS control it writes; before,
it gets Request Retry Status. Where the rules leave a choice it follows logs 77, 78 and 97. -/
def Obligations.PowerAndResetStartUp : Prop :=
  ∀ s : State,
    (∀ mv, s.mgt.powered = false → 40000 < mv → s.mgt.mateClosed = true → s.mgt.disconnected = false →
      ∃ t, exec (.startThreshold mv) s = .next t ∧ t.mgt.powered = true ∧ t.mgt.charging = true ∧ t.mgt.stage = 0 ∧ t.mgt.inputMv = mv / 10 ∧
        t.pan = [] ∧ t.gran = [] ∧ t.jobs = [] ∧ t.insts = [] ∧ t.cores = [] ∧ t.net = [] ∧ t.nvs.mem = s.nvs.mem ∧ t.sec.floors = s.sec.floors ∧
        t.pending = s.pending) ∧
    (∀ lowNs, 10000 ≤ lowNs → s.mgt.powered = true → s.mgt.mateClosed = true → s.mgt.disconnected = false →
      ∃ t, exec (.reset lowNs) s = .next t ∧ t.mgt.powered = true ∧ t.mgt.charging = true ∧ t.mgt.stage = 0 ∧ t.mgt.halted = false ∧
        t.mgt.stopped = false ∧ t.pan = [] ∧ t.gran = [] ∧ t.jobs = [] ∧ t.insts = [] ∧ t.cores = [] ∧ t.net = [] ∧
        t.nvs.mem = s.nvs.mem ∧ t.sec.floors = s.sec.floors ∧ t.pending = s.pending) ∧
    (∀ lowNs, lowNs < 10000 → exec (.reset lowNs) s = .next s) ∧
    (∀ port, port < 2 → s.mgt.powered = true →
      exec (.perstDeassert port) s = .next (s.updPort port fun p =>
        { p with perst := true, training := p.training || decide (1 ≤ s.mgt.stage) })) ∧
    (∀ bad values, s.mgt.powered = true → s.mgt.halted = false → s.working = true → s.mgt.stage = 0 →
      ∃ t, exec (.startupStageComplete true bad values) s = .next t ∧ t.mgt.stage = 1 ∧
        t.ports = Tab.mapAll {} (fun _ p => { p with training := p.training || p.perst }) s.ports) ∧
    (∀ port ats, port < 2 → s.mgt.powered = true →
      exec (.configurationRequest port ats) s = .next (if s.bar0 = true ∨ (3 ≤ s.mgt.stage ∧ s.nvs.boot = 2)
        then s.updPort port fun p => { p with cfgDone := p.cfgDone + 1, ats := ats.getD p.ats }
        else s.updPort port fun p => { p with retryStatus := p.retryStatus + 1 }))

/-- While a powered module that works is in start-up (stage below 9, not halted): a stage that passed is followed by the next, stage 2
only when each of the three firmware components has a copy that passes; stage 8 is followed by READY (9), or by the manager-only stage
0xA when no slot was valid. A stage that failed halts start-up, showing the stage, with no instance and no image in effect; so does
stage 2 when a component has no copy that passes. Stage 0 starts the time base at zero, stage 6 leaves pan and granary zero, and no
stage that passes writes the NVS. Where the rules leave a choice it follows logs 3 and 77. -/
def Obligations.StartUpStages : Prop :=
  ∀ (s h : State) (bad values : List Nat), s.mgt.powered = true → s.mgt.halted = false → s.working = true → s.mgt.stage < 9 →
    h = { s with mgt := { s.mgt with failedStage := s.mgt.stage, halted := true }, zen := {}, insts := [],
                 nvs := { s.nvs with full := [], partials := [], boot := 2 } } →
    (exec (.startupStageComplete false bad values) s = .next h) ∧
    (s.mgt.stage = 2 → (∃ k ∈ [0, 1, 2], s.copyPasses bad k (Tab.get 0 s.sec.active k) = false ∧
        s.copyPasses bad k (1 - Tab.get 0 s.sec.active k) = false) → exec (.startupStageComplete true bad values) s = .next h) ∧
    ((s.mgt.stage = 2 → ∀ k ∈ [0, 1, 2], s.copyPasses bad k (Tab.get 0 s.sec.active k) = true ∨
        s.copyPasses bad k (1 - Tab.get 0 s.sec.active k) = true) →
      ∃ t, exec (.startupStageComplete true bad values) s = .next t ∧
        t.mgt.stage = (if s.mgt.stage = 8 then (if s.nvs.boot = 2 then 0xA else 9) else s.mgt.stage + 1) ∧
        (s.mgt.stage = 0 → t.tb.count = 0 ∧ t.tb.running = true) ∧ (s.mgt.stage = 6 → t.pan = [] ∧ t.gran = []) ∧
        t.nvs.mem = s.nvs.mem)

/-- Let t be on the channels, with the tokens of front in front of it, their numbers all other than t's, and the module at work. While a token of the same source
and destination units is in front and these do not lie in diagonal quadrants, t cannot arrive; nor can it while a region that is left on its way is
stopped. If they lie in diagonal quadrants, or no token in front has the same source and destination units, and no region on its way, nor on
the way of its answer, is stopped, t can arrive, whatever else is on the channels: the mesh and the spines keep no other order. Its arrival
takes it from its channel, and besides that changes counters alone; a token that a region holds up, and no other token, moves up to it and waits there. -/
def Obligations.TokensKeepOrder : Prop :=
  ∀ (s : State) (t : Token) (front back : List Token) (kinds : List TokKind), s.net = front ++ t :: back → (∀ u ∈ front, u.id ≠ t.id) →
    ((∃ u ∈ front, u.srcUnit = t.srcUnit ∧ u.dstUnit = t.dstUnit) →
      diagonal (quadrant (unitRegion t.srcUnit)) (quadrant (unitRegion t.dstUnit)) = false → s.arriving t.id kinds = none) ∧
    ((∃ r ∈ t.path, s.held r = true) → s.arriving t.id kinds = none) ∧
    (s.working = true → t.kind ∈ kinds → (∀ r ∈ t.path, s.held r = false) → s.answerWay t = true →
      (diagonal (quadrant (unitRegion t.srcUnit)) (quadrant (unitRegion t.dstUnit)) = true ∨
        ∀ u ∈ front, ¬(u.srcUnit = t.srcUnit ∧ u.dstUnit = t.dstUnit)) → s.arriving t.id kinds = some t) ∧
    ({ s.take t with net := s.net, obs := s.obs } = s ∧ (s.take t).net = s.net.filter (·.id ≠ t.id)) ∧
    (∀ a r b, s.working = true → t.kind ∈ kinds → (∀ u ∈ front, ¬(u.srcUnit = t.srcUnit ∧ u.dstUnit = t.dstUnit)) →
      t.path = a ++ r :: b → (∀ x ∈ a, s.held x = false) → s.held r = true →
      (s.stall t.id kinds).net = mapIf (fun u => u.id = t.id) (fun u => { u with path := u.path.drop a.length }) s.net)

/-- For a slot k declared by a record that is no FORK, in a module that works and answers, with no base-slot command in progress: STAGE
takes an EMPTY slot to STAGING and stays in progress; ACTIVATE takes a READY slot to ACTIVE, or ends with SAME_LINEAGE when an ACTIVE
slot has its digest; SWITCH retires the ACTIVE slot k in favour of the READY slot n of another lineage, which becomes ACTIVE, marks k's
entries STALE and tells each reader; CLEAR of a STAGING or READY slot starts zeroing it; RETIRE retires an ACTIVE slot. In any other
state the command ends with BAD_STATE. While a command is in progress, another one only sets REFUSED, but for a CLEAR of the slot being
staged. A RETIRING slot with no job and no pin left starts zeroing; SLOT_ZEROING_COMPLETE and BASE_RELEASED empty a slot whose zeroing
is done; FORK_COPY_COMPLETE makes the fork's slot ACTIVE, its entry RESIDENT unless it has become STALE in the meantime, and replies its
handle. Where the rules leave a choice it follows logs 35 and 36. -/
def Obligations.BaseSlotCommands : Prop :=
  ∀ s : State, s.bar0All = true → s.working = true →
    (∀ (v : BitVec 32) (k n : Nat) (r : SlotRec), s.thr.cmd = none → k = fld v 5 4 → n = fld v 7 6 → s.slotRec? k = some r → r.fork = false →
      (fld v 2 0 = 1 → exec (.stage v) s = .next (if (s.slot k).state = .empty
        then State.updSlot { s with thr := { s.thr with cmd := (some (1, k, false)) } } k
          fun x => { x with state := .staging, redirect := none, digest := 0, zeroing := false }
        else s.thrDone thrBadState)) ∧
      (fld v 2 0 = 2 → exec (.activate v) s = .next (
        if (s.slot k).state ≠ .ready then s.thrDone thrBadState
        else if ∃ j ∈ List.range 4, (s.slot j).state = .active ∧ (s.slot j).digest = (s.slot k).digest then s.thrDone thrSame
        else (s.updSlot k fun x => { x with state := .active }).thrDone thrOk)) ∧
      (∀ r2 : SlotRec, fld v 2 0 = 3 → s.slotRec? n = some r2 → r2.fork = false →
        exec (.switch v) s = .next (
          if (s.slot k).state ≠ .active ∨ (s.slot n).state ≠ .ready then s.thrDone thrBadState
          else if (s.slot k).digest = (s.slot n).digest then s.thrDone thrSame
          else (((List.range 64).filter fun i => bit r.readers i).foldl
            (fun (t : State) i => t.post i 5 0 0 (leBytes 1 k ++ leBytes 1 n ++ leBytes 6 0 ++ digestBytes (s.slot n).digest))
            (s.retireSlot k (some n))).thrDone thrOk)) ∧
      (fld v 2 0 = 4 → exec (.clear v) s = .next (if (s.slot k).state = .staging ∨ (s.slot k).state = .ready
        then (let t := (s.stopConsuming k).updSlot k fun x => { x with zeroing := true }
              { t with thr := { t.thr with cmd := some (4, k, false) } })
        else s.thrDone thrBadState)) ∧
      (fld v 2 0 = 5 → exec (.retire v) s = .next (if (s.slot k).state = .active
        then (s.retireSlot k none).thrDone thrOk else s.thrDone thrBadState))) ∧
    (∀ (v : BitVec 32) (i : Instr), s.thr.cmd.isSome = true →
      (fld v 2 0, i) ∈ [(1, Instr.stage v), (2, .activate v), (3, .switch v), (5, .retire v)] →
      exec i s = .next { s with thr := { s.thr with refused := true } }) ∧
    (∀ (v : BitVec 32), fld v 2 0 = 4 → s.thr.cmd.isSome = true → s.thr.cmd ≠ some (1, fld v 5 4, false) →
      exec (.clear v) s = .next { s with thr := { s.thr with refused := true } }) ∧
    (∀ (v : BitVec 32) (k : Nat), k = fld v 5 4 → fld v 2 0 = 4 → s.thr.cmd = some (1, k, false) → exec (.clear v) s = .next (
      let t := (s.stopConsuming k).updSlot k fun x => { x with zeroing := true }
      { t with thr := { t.thr with cmd := some (4, k, true) } })) ∧
    (∀ k, k < 4 → (s.slot k).state = .retiring →
      ((s.slot k).zeroing = false → exec (.slotRelease k) s = .next (
        if (∃ j ∈ s.jobs, j.slot = k) ∨ (∃ e ∈ s.cat, e.2.state ≠ .free ∧ e.2.slot = k ∧ e.2.pins ≠ 0) then s
        else s.updSlot k fun x => { x with zeroing := true })) ∧
      ((s.slot k).zeroing = true →
        exec (.baseReleased k) s = .next ((s.emptySlot k).event thrUnit 0x51 k (s.slotConfid k)))) ∧
    (∀ k, k < 4 → (s.slot k).state ≠ .retiring → (s.slot k).zeroing = true → exec (.slotZeroingComplete k) s = .next (
      match s.thr.cmd with
      | some (4, j, a) => if j = k then (s.emptySlot k).thrDone (if a then thrAborted else thrOk) else s.emptySlot k
      | _ => s.emptySlot k)) ∧
    (∀ k, (s.emptySlot k).thr = { s.thr with slots := Tab.upd {} k (fun x =>
      { x with state := .empty, digest := 0, zeroing := false, forkEntry := none, copyFrom := none }) s.thr.slots }) ∧
    (∀ k src i tag e, (s.slot k).copyFrom = some (src, i, tag) → (s.slot k).forkEntry = some e →
      ∃ t : State, t = State.updEntry (s.updSlot k fun x => { x with state := .active, copyFrom := none }) e
          (fun y => { y with state := if y.state = .loading then .resident else y.state }) ∧
        exec (.forkCopyComplete k) s = .next (t.reply i 0 tag (leBytes 4 (t.handle e))))

/-- In a module that works. START: with a stream at this module it ends REFUSED; with none it heads a stream of the length set, and asks
for its first 4 KiB or less on port 0 when both ports are named, and on the one named otherwise; with none named it breaks. A FORWARD of
the module session on an upstream link is passed on, and consumed while the slot stages; with an instance number it joins that
instance's stream; it waits while another stream, or one that has ended, is at this module. STREAM_ABORT from the link the stream comes
on breaks it; it changes nothing else otherwise. STREAM_END of a stream that has ended: a module that does not consume it is done; a
consumed stream whose form and placement are valid and whose lineage digest is the header's has its tiles in the slot's columns, and the
slot is READY with that digest, and a record says so; a wrong digest or an invalid form zeroes the slot with that result. Where the
rules leave a choice it follows logs 37 and 38. -/
def Obligations.StreamCommands : Prop :=
  ∀ s : State, s.working = true →
    (∀ (port : Nat) (v : BitVec 32), bit v.toNat 0 = true → s.bar0All = true →
      (s.thr.stream.isSome = true → exec (.start port v) s = .next { s with thr := { s.thr with sResult := strRefused } }) ∧
      (∀ t : State, s.thr.stream = none → s.thr.srcLen.toNat ≠ 0 →
        t = { s with thr := { s.thr with
            stream := (some { source := none, slot := 4, consuming := false, data := [], received := 0, place := none,
                              ports := fld v 2 1, remaining := s.thr.srcLen.toNat })
            sBytes := 0, sResult := strOk } } →
        exec (.start port v) s = .next (if fld v 2 1 = 0 then t.breakStream strHost
          else t.hostAsk (if fld v 2 1 = 3 then 0 else fld v 2 1 - 1) none s.thr.srcAddr.toNat (min 4096 s.thr.srcLen.toNat) .stream))) ∧
    (∀ (n i key : Nat) (b plain : List Byte), s.incoming n 2 i key b plain → msgKind plain = 5 → msgResp plain = false →
      (i = 0xFF → (s.thr.stream.any fun x => x.source ≠ some n || x.ended) = true → exec (.forward n key plain) s = .next s) ∧
      (i = 0xFF → (s.thr.stream.any fun x => x.source ≠ some n || x.ended) = false →
        exec (.forward n key plain) s = .next (
          if ((s.accepted n 2 i key b).linkRec? n).any (·.upstream) = true
          then (s.accepted n 2 i key b).passStream (some n) (msgAddr plain) (msgArg plain) (msgPayload plain)
          else s.accepted n 2 i key b)) ∧
      (i ≠ 0xFF → exec (.forward n key plain) s = .next ((s.accepted n 2 i key b).instForward n i (msgAddr plain) (msgPayload plain)))) ∧
    (∀ (n i key : Nat) (b plain : List Byte), s.incoming n 0 i key b plain → msgKind plain = 6 → msgResp plain = false → msgArg plain = 5 →
      exec (.streamAbort n key plain) s = .next (
        if ((s.accepted n 0 i key b).thr.stream.any fun x => x.source = some n) = true
        then (s.accepted n 0 i key b).breakStream strBroken else s.accepted n 0 i key b)) ∧
    (∀ x : Stream, s.thr.stream = some x → x.ended = true →
      (x.consuming = false → exec .streamEnd s = .next s.streamDone) ∧
      (∀ tab ts, x.consuming = true → x.place = some tab → streamRead x.data = some ts →
        (digestBytes (lineageDigest x.data ts) ≠ slice x.data 0x40 64 →
          exec .streamEnd s = .next (s.failConsuming x.slot strLineage).streamDone) ∧
        (digestBytes (lineageDigest x.data ts) = slice x.data 0x40 64 →
          ∃ t : State, t = (State.stageDone ((State.updSlot (s.writeTiles tab ts) x.slot
              fun y => { y with state := .ready, digest := lineageDigest x.data ts }).event thrUnit 0x50 x.slot
                ((State.updSlot (s.writeTiles tab ts) x.slot
                  fun y => { y with state := .ready, digest := lineageDigest x.data ts }).slotConfid x.slot)) x.slot thrOk) ∧
            exec .streamEnd s = .next (State.streamDone { t with thr := { t.thr with sResult := strOk } }))) ∧
      (∀ tab, x.consuming = true → x.place = some tab → streamRead x.data = none →
        exec .streamEnd s = .next (s.failConsuming x.slot strInvalid).streamDone))

/-- Each message that the device takes costs one credit. VARIANT_LOAD sets the lowest-numbered FREE entry to LOADING and asks the port
for the sealed image, or replies NO_ENTRY when there is none. VARIANT_LOAD_COMPLETE, once the image has been read, refuses one that
breaks a rule of R218, in that order, freeing its entry; an image that is no fork, unsealed, is written to the granary range, its entry
is HELD with the image's fields, or asks for room when the load says so, and its handle is replied; a fork image is staged into its slot
by its placement table, its entry RESIDENT, or refused with what the staging finds. VARIANT_DELETE, VARIANT_PAGE_IN and VARIANT_QUERY of
a handle that names no entry reply the status; a delete moves the entry to DELETING, or frees it at once, but a STALE entry stays STALE
while it has pins; a page-in of a RESIDENT entry replies at once, of a HELD or EVICTING one asks for room and frames, and waits; a query
replies state, pins and frames. FORK_FROM_BASE copies the source slot into the fork slot and takes an entry. PAGE_IN_START takes the
entry's frames when room is there beside the page-ins asked for before it, and PAGE_IN_COMPLETE writes the resident image into them,
makes the entry RESIDENT and answers those that wait. Where the rules leave a choice it follows logs 35, 63, 82 and 95. -/
def Obligations.VariantCommands : Prop :=
  ∀ s : State,
    (∀ (port i : Nat) (ide : Bool) (msg : List Byte),
      (s.fromMailbox port i ide 1 msg → exec (.variantLoad port i ide msg) s = .next (match (s.debited i).freeEntry? with
        | none => (s.debited i).reply i stNoEntry (msgTag msg) []
        | some x => ((s.debited i).updEntry x fun e => { ({} : Entry) with
            state := .loading, gen := e.gen, inst := i, slot := leAt msg 0x14 1, gran := leAt msg 0x18 8
            pageIn := bit (leAt msg 0x15 1) 0, loading := true, loadLen := leAt msg 0x10 4, loadTag := msgTag msg }).fetch
            port (some i) (.sealed x) (leAt msg 8 8) (leAt msg 0x10 4))) ∧
      (∀ c, (s.debited i).msgEntry i msg = .error c →
        (s.fromMailbox port i ide 2 msg → exec (.variantDelete port i ide msg) s = .next ((s.debited i).reply i c (msgTag msg) [])) ∧
        (s.fromMailbox port i ide 3 msg → exec (.variantPageIn port i ide msg) s = .next ((s.debited i).reply i c (msgTag msg) [])) ∧
        (s.fromMailbox port i ide 4 msg → exec (.variantQuery port i ide msg) s = .next ((s.debited i).reply i c (msgTag msg) []))) ∧
      (∀ x e, (s.debited i).msgEntry i msg = .ok x → e = (s.debited i).entry x →
        (s.fromMailbox port i ide 2 msg → exec (.variantDelete port i ide msg) s = .next (
          if e.state = .deleting then (s.debited i).reply i stDeleting (msgTag msg) []
          else ((((s.debited i).retireFork x).answerWaiters x stDeleting).updEntry x
            fun e => (if e.state = EntryState.stale then { e with freed := true } else { e with state := EntryState.deleting }).settle).reply i 0 (msgTag msg) [])) ∧
        (s.fromMailbox port i ide 3 msg →
          (e.state = .resident → exec (.variantPageIn port i ide msg) s = .next ((s.debited i).reply i 0 (msgTag msg) [])) ∧
          (e.state = .held ∨ e.state = .evicting → exec (.variantPageIn port i ide msg) s = .next (match (s.debited i).askPageIn x [x] with
            | none => (s.debited i).reply i stTooLarge (msgTag msg) []
            | some t => t.updEntry x fun e => { e with waiters := e.waiters ++ [msgTag msg] }))) ∧
        (s.fromMailbox port i ide 4 msg → exec (.variantQuery port i ide msg) s = .next ((s.debited i).reply i 0 (msgTag msg)
          (leBytes 1 e.state.code ++ leBytes 2 e.pins ++ leBytes 2 e.frames.length)))) ∧
      (∀ (k src : Nat) (r : SlotRec) (t : State), t = s.debited i → s.fromMailbox port i ide 5 msg → k = leAt msg 8 1 → src = leAt msg 9 1 →
        (t.forkRefusal k i ≠ 0 → exec (.forkFromBase port i ide msg) s = .next (t.reply i (t.forkRefusal k i) (msgTag msg) [])) ∧
        (∀ x, t.forkRefusal k i = 0 → (t.slot src).state = .active → t.slotRec? src = some r → r.fork = false → bit r.readers i = true →
          ((t.slotExtents src).map (·.2.2)).sum ≤ ((t.slotExtents k).map (·.2.2)).sum → t.freeEntry? = some x →
          exec (.forkFromBase port i ide msg) s = .next (((t.copySlot src k).updEntry x fun e =>
              { ({} : Entry) with state := .loading, gen := e.gen, inst := i, slot := k, fork := true, kinds := 64,
                                  lineage := (t.slot src).digest }).updSlot k fun y =>
              { y with state := .staging, redirect := none, digest := (t.slot src).digest, forkEntry := some x,
                       copyFrom := some (src, i, msgTag msg) })))) ∧
    (∀ (x : Nat) (readOk : Bool) (image plain : List Byte) (r : Nat), s.working = true → (s.entry x).loading = true →
      (s.entry x).sealed = some (readOk, image) → r = s.loadRefusal x readOk image (s.unsealed x image) →
      (r ≠ 0 → (readOk = true → s.isFork (s.entry x).slot = true → (s.entry x).placeTab.isSome = true) →
        exec (.variantLoadComplete x) s = .next (s.loadRefused x r)) ∧
      (∀ t : State, r = 0 → s.unsealed x image = some plain → s.isFork (s.entry x).slot = false →
        t = State.updEntry ((s.granWrite (s.entry x).inst (s.entry x).gran plain).granHeal
              ((s.granWrite (s.entry x).inst (s.entry x).gran plain).granBase (s.entry x).inst + (s.entry x).gran) plain.length) x
              (fun e => e.loaded plain false) →
        exec (.variantLoadComplete x) s = .next (State.loadAnswer (if (s.entry x).pageIn = true then (t.askPageIn x [x]).getD t else t)
          (s.entry x) 0 (State.handle (if (s.entry x).pageIn = true then (t.askPageIn x [x]).getD t else t) x))) ∧
      (∀ tab f, r = 0 → s.unsealed x image = some plain → s.isFork (s.entry x).slot = true → (s.entry x).placeTab = some tab →
        f = s.stageFork (s.entry x).slot plain tab →
        (f.1 ≠ 0 → exec (.variantLoadComplete x) s = .next (s.loadRefused x f.1)) ∧
        (∀ t : State, f.1 = 0 → t = ((f.2.updEntry x fun e => e.loaded plain true).updSlot (s.entry x).slot
            fun y => { y with forkEntry := some x }).alert 4 →
          exec (.variantLoadComplete x) s = .next (t.loadAnswer (s.entry x) 0 (t.handle x))))) ∧
    (∀ (x : Nat) (fs : List Nat), s.working = true → (s.entry x).paging = true → (s.entry x).started = false →
      fs = s.allocFrames (s.entry x).inst x (s.entry x).need → (s.entry x).need ≤ fs.length → s.pageInRoom x = true →
      exec (.pageInStart x) s = .next (s.updEntry x fun e => { e with started := true, cur := { e.cur with frames := fs } })) ∧
    (∀ (x : Nat) (e : Entry) (t : State), e = s.entry x → s.working = true → e.paging = true → e.started = true →
      t = State.updEntry (s.writeFrames e.cur.frames (residentImage (s.granRead e.inst e.gran e.len) e.cur.frames)) x
        (fun e => ({ e with paging := false, started := false
                            state := if e.state = EntryState.paging then .resident else e.state } : Entry).settle) →
      exec (.pageInComplete x) s = .next (State.answerWaiters (if t.confid e.inst = true then t
        else { t with adm := { t.adm with pageIns := holdAdd 0xFFFF t.adm.pageIns 1 } }) x 0))

/-- Each message that the device takes costs one credit. TRAIN_OPEN asks its port for the record's 256 bytes, and a record whose fields
are in range for its table; then it replies TRAIN_RECORD_INVALID for a record that breaks R246, the refusal of its handle, or
TRAINING_FULL; otherwise the lowest free index of the tier is open, its record and table are in pan memory, and a fast-tier record's
index is replied, a slow-tier one's after its buffers are zero (TRAIN_OPEN_ZEROING_COMPLETE). TRAIN_SET, TRAIN_QUERY, SNAPSHOT and
TRAIN_CLOSE of an index that is not an open record of the instance reply TRAIN_UNKNOWN. TRAIN_SET is refused on a withdrawn record, on
one ended non-finite, and for a field or value it may not set; otherwise it takes effect now, or while a job of the record runs at its
next step; TRAIN_QUERY replies the record's fields. SNAPSHOT in a format other than 0 or of a record without a valid template is
invalid, and one without a destination fails; any other is booked, waits for its step while a job runs, and is captured otherwise;
SNAPSHOT_DELIVERED replies its step and digest, or SNAPSHOT_FAILED, for the host as the flush behind it came back. TRAIN_CLOSE is
refused while a job holds the record, frees the index, or waits for queued entries. The first update entry whose record is not being
refreshed starts when none runs, is applied with its buffer zeroed, and answers a TRAIN_CLOSE that waited for it; a refresh copies
WORK_GRN to the working copies. Where the rules leave a choice it follows logs 20, 61 and 62. -/
def Obligations.TrainingCommands : Prop :=
  ∀ s : State,
    (∀ (port i : Nat) (ide : Bool) (msg : List Byte), s.fromMailbox port i ide 0x10 msg →
      exec (.trainOpen port i ide msg) s = .next ((s.debited i).fetch port (some i) (.record i msg) (leAt msg 8 8) 256)) ∧
    (∀ (i : Nat) (msg record table r : List Byte), r = padTo 256 record →
      s.recordArrived i msg true record = (if recordFields r = false then s.reply i stTrainInvalid (msgTag msg) []
        else s.fetch (s.instPort i) (some i) (.table i msg r) (leAt msg 0x10 8) (96 * recTensors r)) ∧
      (s.recordOk i (leAt msg 0x18 8) r table = false → s.openTrain i msg r true table = s.reply i stTrainInvalid (msgTag msg) []) ∧
      (∀ c, s.recordOk i (leAt msg 0x18 8) r table = true → s.variantHandle i (leAt r 0 4) = .error c →
        s.openTrain i msg r true table = s.reply i c (msgTag msg) []) ∧
      (∀ e, s.recordOk i (leAt msg 0x18 8) r table = true → s.variantHandle i (leAt r 0 4) = .ok e →
        s.openTrain i msg r true table = (match s.freeTrain (recSlow r) with
          | none => s.reply i stTrainFull (msgTag msg) []
          | some x =>
            let u := (s.updTrain x fun _ => { inst := i, isOpen := true, addr := BitVec.ofNat 64 (leAt msg 0x18 8),
                                              zeroTag := if recSlow r = true then some (msgTag msg) else none, slot := (s.entry e).slot })
            let w := (u.memWrite i (leAt msg 0x18 8) (openRecord r)).memWrite i (leAt r 0x48 8) (padTo (96 * recTensors r) table)
            if recSlow r = true then w else w.reply i 0 (msgTag msg) (leBytes 4 x)))) ∧
    (∀ (x tag : Nat), s.working = true → (s.train1 x).zeroTag = some tag → exec (.trainOpenZeroingComplete x) s = .next
      ((((List.range (recLag (s.recBytes x))).foldl (fun (t : State) j => t.zeroBuffer x j) s).updTrain x
        fun t => { t with zeroTag := none }).reply (s.train1 x).inst 0 tag (leBytes 4 x))) ∧
    (∀ (port i : Nat) (ide : Bool) (msg : List Byte) (t : State), t = s.debited i →
      (t.msgTrain i msg = none →
        (s.fromMailbox port i ide 0x11 msg → exec (.trainSet port i ide msg) s = .next (t.reply i stTrainUnknown (msgTag msg) [])) ∧
        (s.fromMailbox port i ide 0x12 msg → exec (.trainQuery port i ide msg) s = .next (t.reply i stTrainUnknown (msgTag msg) [])) ∧
        (s.fromMailbox port i ide 0x13 msg → exec (.snapshot port i ide msg) s = .next (t.reply i stTrainUnknown (msgTag msg) [])) ∧
        (s.fromMailbox port i ide 0x14 msg → exec (.trainClose port i ide msg) s = .next (t.reply i stTrainUnknown (msgTag msg) []))) ∧
      (∀ x, t.msgTrain i msg = some x →
        (s.fromMailbox port i ide 0x11 msg → exec (.trainSet port i ide msg) s = .next (
            if t.tr x 4 1 = 4 then t.reply i stNonfinite (msgTag msg) []
            else if t.tr x 4 1 = 3 then t.reply i stStale (msgTag msg) []
            else if setOk (t.recBytes x) (leAt msg 0xA 2) (leAt msg 0xC 4) = false then t.reply i stTrainInvalid (msgTag msg) []
            else if t.trainRuns x = true
              then (t.updTrain x fun u => { u with sets := u.sets ++ [(leAt msg 0xA 2, leAt msg 0xC 4)] }).reply i 0 (msgTag msg) []
            else (t.trPut x (leAt msg 0xA 2) (settable (leAt msg 0xA 2)) (leAt msg 0xC 4)).reply i 0 (msgTag msg) [])) ∧
        (s.fromMailbox port i ide 0x12 msg → exec (.trainQuery port i ide msg) s = .next (t.reply i 0 (msgTag msg)
          (leBytes 1 (t.tr x 4 1) ++ leBytes 1 (t.tr x 0x20 1) ++ leBytes 6 0 ++ leBytes 8 (t.tr x 8 8) ++
            leBytes 8 (t.tr x 0x10 8) ++ leBytes 4 (t.tr x 0x2C 4)))) ∧
        (∀ q : Snap, s.fromMailbox port i ide 0x13 msg →
          q = { tag := msgTag msg, dest := leAt msg 0xA 1, link := leAt msg 0xB 1, rinst := leAt msg 0xC 1, rslot := leAt msg 0xD 1,
                addr := leAt msg 0x10 8, key := slice msg 0x18 32, captured := none, image := [] } →
          (leAt msg 0xE 1 ≠ 0 ∨ t.template x = none → exec (.snapshot port i ide msg) s = .next (t.reply i stTrainInvalid (msgTag msg) [])) ∧
          (leAt msg 0xE 1 = 0 → (t.template x).isSome = true →
            exec (.snapshot port i ide msg) s = .next (
              if (q.dest = 0 ∧ q.addr < 2 ^ 57) ∨ (q.dest = 1 ∧ t.linkReady q.link q.rinst = true ∧
                  (t.linkRec? q.link).any (fun r => bit r.insts i && bit r.insts q.rinst) = true)
              then (if ((t.updTrain x fun w => { w with snaps := w.snaps ++ [q] }).bookSnap x q).trainRuns x = true
                then (t.updTrain x fun w => { w with snaps := w.snaps ++ [q] }).bookSnap x q
                else ((t.updTrain x fun w => { w with snaps := w.snaps ++ [q] }).bookSnap x q).capture x)
              else t.reply i stSnapFailed (msgTag msg) []))) ∧
        (s.fromMailbox port i ide 0x14 msg → exec (.trainClose port i ide msg) s = .next (
          if t.trainJob x = true ∨ (t.train1 x).closeTag.isSome = true then t.reply i stTrainBusy (msgTag msg) []
          else if t.updPending x ≠ 0 then t.updTrain x fun w => { w with closeTag := some (msgTag msg) }
          else t.closeTrain x (msgTag msg))))) ∧
    (∀ (x : Nat) (ok : Bool) (q : Snap), s.working = true → (s.train1 x).snaps.find? (fun q => q.captured.isSome) = some q →
      (q.dest = 0 → q.flushed.isSome = true) →
      ∃ t : State, t = (s.updTrain x fun t => { t with snaps := t.snaps.erase q }) ∧
        exec (.snapshotDelivered x ok) s = .next (if (if q.dest = 0 then q.flushed = some true else ok = true)
          then t.reply (s.train1 x).inst 0 q.tag (leBytes 8 (q.captured.getD 0) ++ digestBytes (Config.sha512 q.image))
          else t.reply (s.train1 x).inst stSnapFailed q.tag [])) ∧
    (∀ u, s.working = true → s.upd.run = none → s.upd.queue.find? (fun u => (s.train1 u.index).refreshTo.isNone) = some u →
      exec .updateEntryStart s = .next { s with upd := { s.upd with queue := s.upd.queue.erase u, run := some u } }) ∧
    (∀ (u : UpdEntry) (i : Nat) (t w z : State), s.working = true → s.upd.run = some u → i = (s.train1 u.index).inst →
      t = (if u.skip = true then s else ((s.recTable u.index).foldl (fun (a : State × Nat) e =>
        ((List.range (tRows e)).filter fun r => a.1.rowTrained i e r).foldl
          (fun (a : State × Nat) r => (a.1.updateRow u.index i (s.recBytes u.index) e u r a.2,
            a.2 + rowDraws (leAt (s.recBytes u.index) 7 1) (tCols e))) a) (s, 0)).1) →
      w = (t.zeroBuffer u.index (u.step % recLag (s.recBytes u.index))).trPut u.index 0x10 8 u.step →
      z = ({ w with upd := { w.upd with
          run := none
          applied := if (u.skip || w.confid i) = true then w.upd.applied else holdAdd 0xFFFFFFFF w.upd.applied 1
          skipped := if (u.skip && !w.confid i) = true then holdAdd 0xFFFFFFFF w.upd.skipped 1 else w.upd.skipped } } : State).captureDue
            u.index →
      exec .updateEntryComplete s = .next (match (z.train1 u.index).closeTag with
        | some tag => if z.updPending u.index = 0 then z.closeTrain u.index tag else z
        | none => z)) ∧
    (∀ (x a : Nat), s.working = true → (s.train1 x).refreshTo = some a → exec (.refreshComplete x) s = .next
      (((((s.recTable x).foldl (fun (t : State) e => t.memWrite (s.train1 x).inst (tWork e)
          (t.memRead (s.train1 x).inst (tWorkGrn e) (tRows e * tWorkRow e))) s).updTrain x
        fun t => { t with refreshTo := none }).trPut x 0x18 8 a).captureDue x))

/-- In a module that works: a report sets its region's rate, supply and temperature (which joins the window's sum), and starts or clears
the time it has run above 1.02 of its target; a field whose rate lies below an accepted plan's floor, or that warms within 100 ms under
accepted work, has its plans resolved; the floors are F(f, 1 s), which never lies above a cap in force on the field; below its goal
(target, cut to the cap of a field) a region's supply rises by 5 mV up to V_CEILING, after 100 ms above it falls by 5 mV down to
V_TARGET; under a cap the supply of a field falls by 5 mV, never below 600 mV. A recalibration request is queued once; a forced one
moves the plans on its region by 3 ms, stops it at once and has the plans resolved, unless a debug stop or a re-layout holds it; the
first queued region whose pause fits and that nothing holds stops, and the plans on it move by 3 ms; a pause of 3 ms that has passed
ends, and the calibration in effect has the region's new delays. Losing the reference starts holdover, its return within 10 ms ends it,
and after 10 ms it is a fatal event: work stops and the black box is written. Where the rules leave a choice it follows logs 14, 46 and
54. -/
def Obligations.RatesRecalibrationReference : Prop :=
  ∀ s : State, s.working = true →
    (∀ (r rate mv temp : Nat) (t : State), r < 88 → s.mgt.powered = true → t = (s.updRegion r fun g =>
        { g with rate := rate, mv := mv, temp := temp, tempSum := g.tempSum + temp, tempN := g.tempN + 1
                 recent := g.recent.filter (fun x => decide (s.tb.count ≤ x.1 + 100000000)) ++ [(s.tb.count, temp)]
                 aboveSince := if 102 * s.zen.rateTarget r < 100 * rate
                   then (if g.aboveSince.isSome = true then g.aboveSince else some s.tb.count) else none }) →
      exec (.fieldRateReport r rate mv temp) s = .next (
        if r < 80 ∧ (t.belowPlan r = true ∨ ((∃ x ∈ (t.region r).recent, x.2 < temp) ∧ ∃ j ∈ t.jobs, j.live = true ∧ r ∈ j.fields))
        then doResolve 3 [r] (t.updRegion r fun g => { g with recent := [(s.tb.count, temp)] }) else t)) ∧
    (exec .floorRecompute s = .next ((List.range 80).foldl
      (fun (t : State) f => t.updRegion f fun g => { g with floor := t.floorRate f second }) s)) ∧
    (∀ f h c, s.capOf f = some c → s.floorRate f h ≤ c) ∧
    (∀ r, r < 88 → 8 ≤ s.mgt.stage → s.zen.rateTarget r ≠ 0 →
      ((s.region r).rate < (if r < 80 then s.capped r (s.zen.rateTarget r) else s.zen.rateTarget r) → (s.region r).mv < s.zen.vCeiling r →
        exec (.rateKeeperStep r) s = .next (s.updRegion r fun g => { g with mv := min ((s.region r).mv + 5) (s.zen.vCeiling r) })) ∧
      (∀ t, ¬ (s.region r).rate < (if r < 80 then s.capped r (s.zen.rateTarget r) else s.zen.rateTarget r) →
        (s.region r).aboveSince = some t → t + 100000000 ≤ s.tb.count → s.zen.vTarget r < (s.region r).mv →
        exec (.rateKeeperStep r) s = .next (s.updRegion r fun g => { g with mv := max ((s.region r).mv - 5) (s.zen.vTarget r) }))) ∧
    (∀ f c, f < 80 → s.capOf f = some c → exec (.supplyStep f) s = .next (if c < (s.region f).rate ∧ 600 < (s.region f).mv
      then s.updRegion f fun g => { g with mv := max 600 (g.mv - 5) } else s)) ∧
    (∀ v : BitVec 32, s.bar0All = true → bit v.toNat 7 = true → bit v.toNat 10 = false → fld v 6 0 < 88 →
      (bit v.toNat 8 = false → exec (.recalRequest v) s = .next (if fld v 6 0 ∈ s.adm.recalQueue then s
        else { s with adm := { s.adm with recalQueue := s.adm.recalQueue ++ [fld v 6 0] } })) ∧
      (bit v.toNat 8 = true → (∀ x ∈ s.adm.recalRun, x.1 ≠ fld v 6 0) → exec (.recalForce v) s = .next (
        if s.pauseHeld (fld v 6 0) = true
        then { s with adm := { s.adm with recalQueue := (fld v 6 0) :: s.adm.recalQueue.filter (· ≠ fld v 6 0) } }
        else ((s.movePlans (fld v 6 0) 3000000).startRecal (fld v 6 0)).resolveFrom s.jobs 7 fun j => j.onRegion (fld v 6 0)))) ∧
    (∀ a r b, s.adm.recalQueue = a ++ r :: b → s.pauseFits r 3000000 = true → s.pauseHeld r = false → (∀ x ∈ s.adm.recalRun, x.1 ≠ r) →
      (∀ q ∈ a, s.pauseFits q 3000000 = false ∨ s.pauseHeld q = true ∨ ∃ x ∈ s.adm.recalRun, x.1 = q) →
      exec .recalPauseStart s = .next
        ((State.movePlans { s with adm := { s.adm with recalQueue := s.adm.recalQueue.erase r } } r 3000000).startRecal r)) ∧
    (∀ x, s.adm.recalRun.find? (fun x => decide (x.2 ≤ s.tb.count)) = some x → exec .recalPauseEnd s = .next
      (State.runAll (State.resumeRegion { s with
        adm := { s.adm with recalRun := s.adm.recalRun.erase x, recalDone := true }
        nvs := { s.nvs with calibration := Config.recalibrated 0 x.1 s.tb.count s.nvs.calibration } } x.1 1))) ∧
    (s.tb.running = true → s.tb.holdover = false → exec .referenceLost s = .next
      { s with tb := { s.tb with locked := false, holdover := true, refLost := true, lostAt := s.tb.count } }) ∧
    (s.tb.holdover = true → s.mgt.stopped = false →
      (s.tb.count ≤ s.tb.lostAt + 10000000 → exec .referenceReturn s = .next { s with tb := { s.tb with locked := true, holdover := false } }) ∧
      (s.tb.lostAt + 10000000 ≤ s.tb.count → exec .holdoverExpiry s = .next (s.blackBox 1 1) ∧
        (s.blackBox 1 1).mgt.stopped = true ∧ (s.blackBox 1 1).mgt.faultPin = true ∧ (s.blackBox 1 1).mgt.dumping = true))

/-- On the page of an instance on its own port, in a module that works, with the instance's interface not in ERROR and, in RUN, the
write protected by its IDE stream: a 64-byte write to chunk 0, 1 or 2 of the intake window is kept; COMMIT empties the window and, with
the expected SEQ, an EMPTY result slot and fewer than 32 undecided jobs, adds an undecided job with the four chunks, marks the slot
pending and expects the next SEQ; any other SEQ, a busy slot and a full intake are each refused. A release of a slot that is done or
refused, with its SEQ, empties it; in an active instance any other is counted. ADMISSION_DECISION takes the oldest undecided job, counts
a decision later than 2 µs, and refuses or accepts it as R345's checks and the plans say. RESOLVE takes the new floors of the fields it
names, draws the ledgers up anew for a granary event, and re-plans the jobs that the event touches. OVERRUN demotes a job under a
promise that no debug stop suspends and no event explains, and that is not complete at its limit, and posts the notice. QUANTUM_EXPIRY
notes that a running class B or C job has run its quantum. Where the rules leave a choice it follows logs 43, 55, 56, 57 and 82. -/
def Obligations.IntakeAndAdmission : Prop :=
  ∀ s : State, s.working = true →
    (∀ (port i : Nat) (ide : Bool) (data : List Byte), s.bar0All = true → port < 2 → s.pageOn port i = true → (s.inst i).tdi ≠ 3 →
      ((s.inst i).tdi = 2 → ide = true) →
      (∀ off, data.length = 64 → (off = 0 ∨ off = 0x40 ∨ off = 0x80) → exec (.intakeChunkWrite port i ide off data) s = .next
        (s.updInst i fun x => { x with chunks := Tab.put [] (off / 64) data x.chunks })) ∧
      (∀ t : State, data.length = 64 → t = (s.updInst i fun x => { x with chunks := [], badWrite := false }) →
        exec (.commit port i ide data) s = .next (
          if leAt data 0x38 4 ≠ (s.inst i).nextSeq then t.refuseIntake i (leAt data 0x38 4) stBadSequence
          else if ((s.inst i).slot (leAt data 0x38 4)).use ≠ .empty then t.refuseIntake i (leAt data 0x38 4) stSlotBusy
          else if 32 ≤ (t.jobs.filter fun j => j.inst = i && j.phase = .undecided).length
            then t.refuseIntake i (leAt data 0x38 4) stIntakeFull
          else State.updInst { t with jobs := t.jobs ++ [{
              inst := i, port := port, seq := leAt data 0x38 4, commitTb := s.tb.count
              raw := padTo 64 (Tab.get [] (s.inst i).chunks 0) ++ padTo 64 (Tab.get [] (s.inst i).chunks 1) ++
                padTo 64 (Tab.get [] (s.inst i).chunks 2) ++ data
              bad := (s.inst i).badWrite || (List.range 3).any fun k => (Tab.get [] (s.inst i).chunks k).isEmpty }] } i
            fun x => ({ x with nextSeq := (x.nextSeq + 1) % 2 ^ 32 } : Inst).setSlot (leAt data 0x38 4)
              { x.slot (leAt data 0x38 4) with use := .pending })) ∧
      (∀ k r, k < 64 → r = (s.inst i).slot k → (s.inst i).state = .active → data.length = 8 →
        exec (.release port i ide (64 * k + 0x38) data) s = .next (
          if leAt data 0 4 = r.seq ∧ leAt data 4 4 = 0xFF ∧ (r.use = .done ∨ r.use = .refused)
          then s.updInst i fun x => x.setSlot k { r with use := .empty }
          else s.updPort port fun p => { p with badRelease := holdAdd 0xFFFF p.badRelease 1 }))) ∧
    (∀ (j : Job) (t : State), s.jobs.find? (fun j => j.phase = .undecided) = some j →
      t = { s with adm := { s.adm with
        late := if 2000 < s.tb.count - j.commitTb then holdAdd 0xFFFF s.adm.late 1 else s.adm.late
        lastLatency := min 0xFFF (s.tb.count - j.commitTb) } } →
      exec .admissionDecision s = .next (match t.decideJob j with
        | .refuse c planned => t.refuseJob j c planned
        | .accept u slot rows p led => State.acceptJob { u with adm := { u.adm with ledger := led } } j slot rows p)) ∧
    (∀ (j : Job), s.jobRefusal j ≠ 0 → s.decideJob j = .refuse (s.jobRefusal j) 0) ∧
    (∀ (cause : Nat) (regions : List Nat) (t u : State), 1 ≤ cause → cause ≤ 7 →
      t = regions.foldl (fun (t : State) f => if f < 80 then t.updRegion f fun g => { g with floor := t.floorRate f second } else t) s →
      u = (if cause = 4 then t.rebook else t) → exec (.resolve cause regions) s = .next (u.resolveFrom t.jobs cause (u.touches regions))) ∧
    (∀ (i q : Nat) (j : Job), s.job? i q = some j →
      (j.live = true → j.promised = true → s.explained j = false → s.suspended i = false → j.limit ≤ s.tb.count → exec (.overrun i q) s = .next (
        (State.updJob (s.updInst i fun x => { x with overruns := holdAdd 0xFFFFFFFF x.overruns 1 }) i q
          fun j => { j with overrun := true }).post i 4 0 q (leBytes 4 j.tag ++ leBytes 4 0 ++ leBytes 8 j.limit))) ∧
      (j.phase = .running → j.cls ≠ 1 → j.dispatchTb + max 2 s.adm.quantum.toNat * 1000000 ≤ s.tb.count →
        exec (.quantumExpiry i q) s = .next (s.updJob i q fun j => { j with quantumOver := true })))

/-- In a module that works. DISPATCH of an accepted job at its start, with its fields free, no promise needing the fields of a demoted
one, and its pinned frames resident: a task table that breaks R366 or holds an uncorrectable block ends it with TASK_FAULT; otherwise
cores in retention are woken first, and else, once no march test and no write of an earlier plan record is left on its cores, the field
list and sheaf table are written and every task starts with fresh registers and its arguments. A drained core that has retired HALT
becomes IDLE and its task is halted, which may be what a barrier waits for. At a PLAN a drained core takes the fault of a consumed
uncorrectable block, or counts the plan and sends its record, or faults when its save area is not the instance's; once the record is
acknowledged it arrives and waits, or faults when the PLAN_ID is not that of the job's other tasks or breaks R250. When all tasks have
arrived and nothing holds the barrier, it completes. A stopped or sliced job restarts its tasks at its start, and ends with TASK_FAULT,
or HOST_FAULT when a flush of its result data failed, when a fifth restart from one barrier is needed. A job whose tasks are all halted,
or that was ended, and whose descriptors have drained, has its record written and its pins dropped. Where the rules leave a choice it
follows logs 58, 59 and 60. -/
def Obligations.JobsRunAndComplete : Prop :=
  ∀ s : State, s.working = true →
    (∀ (i q : Nat) (j : Job) (es : List (List Byte)) (ts : List Task), s.job? i q = some j → j.phase = .accepted → j.endStatus = none →
      j.start ≤ s.tb.count → s.fieldsFree j = true → s.neededNow j = false → s.pinsResident j = true → j.allWithdrawn = false →
      es = ((List.range j.nTasks).map fun k => slice (s.panReadG j.taskTable (128 * j.nTasks)) (128 * k) 128) → ts = es.map taskOf →
      (es.all (s.taskOk j) = false ∨ s.badG j.taskTable (128 * j.nTasks) = true ∨ distinct (ts.map fun t => (t.fieldSlot, t.logical)) = false ∨
        (ts.any fun t => s.badG t.prog (8 * t.words)) = true → exec (.dispatch i q) s = .next (s.endJob i q stTaskFault)) ∧
      (es.all (s.taskOk j) = true → s.badG j.taskTable (128 * j.nTasks) = false →
        distinct (ts.map fun t => (t.fieldSlot, t.logical)) = true → (ts.any fun t => s.badG t.prog (8 * t.words)) = false →
        (s.retained j ts ≠ [] → exec (.dispatch i q) s = .next ((s.retained j ts).foldl State.wake s)) ∧
        (∀ (u v : State) (tasks : List Task), s.retained j ts = [] → s.coresReady j ts = true →
          u = (if j.any = true then s.memWrite i j.fieldList (padTo 128 (j.fields.map (BitVec.ofNat 8))) else s) →
          v = (if j.rows = 0 then u else u.memWrite i j.sheaf (u.sheafTable j)) →
          tasks = (ts.zipIdx.map fun x => { x.1 with taskId := v.adm.nextTask + 1 + x.2 }) →
          exec (.dispatch i q) s = .next (((State.updJob { v with adm := { v.adm with nextTask := v.adm.nextTask + tasks.length } } i q
            fun j => { j with phase := .running, dispatchTb := v.tb.count, planAt := v.tb.count + 3000, barrierTb := v.tb.count
                              quantumOver := false, tasks := tasks }).startTasks j tasks).trainState j 1 2)))) ∧
    (∀ (p : Nat) (c : Core), c = s.core p → c.busy = true → c.drained = true → s.held (p / 11) = false →
      (c.wait = .halt → exec (.taskEnd p) s = .next (((s.setCore p { c with act := .idle, wait := .none }).updJob c.inst c.seq
        fun j => j.updTask c.taskNo fun t => { t with halted := true, haltAt := j.barrier, sticky := c.sticky }).afterArrival
          c.inst c.seq)) ∧
      (∀ id, c.wait = .plan id →
        (c.ueCause ≠ 0 → exec (.planRecordWrite p) s = .next (s.coreFault p c.ueCause 0 c.pi (s.firstBad c.inst c.ueAddr))) ∧
        (c.ueCause = 0 → s.addrOk c.inst (p / 11) .write (planCopy c.saveArea (c.planCount + 1)) 0x300 = false →
          exec (.planRecordWrite p) s = .next (s.coreFault p 1 0 c.pi (planCopy c.saveArea (c.planCount + 1)))) ∧
        (∀ ws : List CopyWrite, c.ueCause = 0 → s.addrOk c.inst (p / 11) .write (planCopy c.saveArea (c.planCount + 1)) 0x300 = true →
          ws = cutWrites 64 false 0x400 (BitVec.ofNat 64 (planCopy c.saveArea (c.planCount + 1))) (c.planRecord (c.planCount + 1) id) →
          exec (.planRecordWrite p) s = .next (ws.foldl (fun (t : State) w => match t.place w.dst.toNat with
            | .pan r _ => t.send { id := 0, kind := .write, origin := .seq p, inst := c.inst, srcUnit := posUnit p 0, dstUnit := posUnit r 7,
                                   addr := w.dst, n := w.data.length, seq := c.taskId, data := w.data }
            | _ => t) (s.setCore p { c with planCount := c.planCount + 1, wait := .planAck ws.length id }))))) ∧
    (∀ (p id : Nat) (c : Core) (j : Job), c = s.core p → c.busy = true → s.held (p / 11) = false → c.wait = .planAck 0 id →
      s.job? c.inst c.seq = some j → exec (.barrierArrival p) s = .next (
        if (j.planId.any (· ≠ id)) = true ∨ j.planBad id = true then s.coreFault p 2 0 c.pi 0
        else ((s.setCore p { c with act := .waiting, wait := .planBarrier c.planCount }).updJob c.inst c.seq
          fun j => { j.updTask c.taskNo (fun t => { t with arrived := true, k7 := c.k.getLsbD 7 }) with planId := some id }).afterArrival
            c.inst c.seq)) ∧
    (∀ (i q : Nat) (j : Job), s.job? i q = some j →
      (j.phase = .running → j.endStatus = none → j.allArrived = true → (∀ f ∈ j.fields, s.held f = false) → s.refreshDue j = false →
        s.barrierFree j = true → exec (.barrierComplete i q) s = .next (s.completeBarrier j)) ∧
      (∀ ts : List Task, (j.phase = .stopped ∨ j.phase = .sliced) → j.endStatus = none → j.start ≤ s.tb.count → s.fieldsFree j = true →
        s.neededNow j = false → j.ue = none → j.tasks ≠ [] → ts = j.tasks.filter j.again → s.coresReady j ts = true →
        (ts.any fun t => (s.taskPos j t).any fun p => (s.core p).hungAt.isSome || s.mgt.fenceReq = some p) = false →
        (j.phase = .stopped → 4 ≤ j.restarts → exec (.taskRestart i q) s = .next (s.endJob i q (if j.hostFault = true then 0x77 else stTaskFault))) ∧
        (∀ t u : State, (j.phase = .stopped → j.restarts < 4) → (ts.any fun t => (s.taskPos j t).isNone) = false →
          (ts.any fun t => s.badG t.prog (8 * t.words) || (j.barrier ≠ 0 && s.badG (planCopy t.save j.barrier) 0x300)) = false →
          s.retained j ts = [] → j.train = none → t = s.semClear (s.semIn i j.semBase j.semCount) →
          u = (t.updJob i q fun k => { k with
            phase := .running, slicedFor := none, dispatchTb := s.tb.count, planAt := s.tb.count + 3000, barrierTb := s.tb.count
            quantumOver := false, planId := none, arriveSent := false, ue := none
            restarts := if j.phase = .stopped then k.restarts + 1 else k.restarts
            tasks := k.tasks.map fun t => if k.again t = true then { t with arrived := false, halted := false } else t }) →
          exec (.taskRestart i q) s = .next ((j.tasks.zipIdx.filter fun x => j.again x.1).foldl
            (fun (t : State) x => t.restartTask j x.2 x.1) u))) ∧
      (∀ (status gone : Nat) (t : State), (j.phase = .running ∧ j.tasks.all (·.halted) = true) ∨ j.endStatus ≠ none → s.jobDrained i q = true →
        status = j.endStatus.getD (if j.allWithdrawn = true then stWithdrawn else 0) →
        gone = (j.withdrawn.filter fun r => decide (r < j.rows)).length →
        t = s.writeRecord j .done (recordHead status j.cls j.tag s.tb.count (if status = 0 then j.rows - gone else 0) gone
          ((j.tasks.filter (·.halted)).foldl (fun v t => v ||| t.sticky.toNat) 0)) →
        exec (.jobComplete i q) s = .next
          ((j.pins.foldl State.unpin { t with jobs := t.jobs.filter fun k => !(k.inst = i && k.seq = q) }).endTraining j)))

/-- On a trained link (0 to 5) of a module that works, whose region is not stopped: the codewords on a flit's way that were not
corrected are counted. A flit whose CRC-64 is wrong is dropped and a REPLAY flit is sent; a good DATA flit that is next in sequence
becomes the last received, brings its acknowledgement and credits, and its body joins its VC; a repeat only brings its acknowledgement;
one out of sequence is dropped, and the first of them has a REPLAY flit sent. An IDLE flit brings its acknowledgement and credits alone.
A REPLAY flit has every flit not acknowledged sent once more and counted, unless one was replayed eight times: then the link goes down
with cause 3. After each, the sender sends what it can. Where the rules leave a choice it follows logs 41 and 96. -/
def Obligations.FlitsReceived : Prop :=
  ∀ (s t : State) (n fec : Nat) (f : List Byte), s.linkRuns n = true →
    t = (s.updLink n fun l => { l with fecUncorrected := holdAdd 0xFFFF l.fecUncorrected fec }) →
    (flitGood f = false → ∀ i ∈ [Instr.dataFlit n fec f, .idleFlit n fec f, .replayFlit n fec f],
      exec i s = .next (State.linkPump (t.updLink n fun l => { l.sendControl 2 with gap := true }) n)) ∧
    (flitGood f = true → flitKind f = 0 →
      (flitSeq f = ((t.link n).rxSeq + 1) % 65536 → exec (.dataFlit n fec f) s = .next
        (State.linkPump (t.updLink n fun l => (({ l with rxSeq := flitSeq f, gap := false } : Link).flitHead f).flitBody f) n)) ∧
      (flitSeq f ≠ ((t.link n).rxSeq + 1) % 65536 → exec (.dataFlit n fec f) s = .next (State.linkPump (
        if ((t.link n).rxSeq + 65536 - flitSeq f) % 65536 < 512 then t.updLink n fun l => l.flitAcks f
        else if (t.link n).gap = true then t
        else t.updLink n fun l => { l.sendControl 2 with gap := true }) n))) ∧
    (flitGood f = true → flitKind f = 1 → exec (.idleFlit n fec f) s = .next (State.linkPump (t.updLink n fun l => l.flitHead f) n)) ∧
    (flitGood f = true → flitKind f = 2 → ∀ u : State, u = (t.updLink n fun l => l.flitHead f) →
      exec (.replayFlit n fec f) s = .next (State.linkPump (if ∃ e ∈ (u.link n).replay, 8 ≤ e.tries then u.linkDown n 3
        else u.updLink n fun l => { l with replay := (u.link n).replay.map fun e => { e with tries := e.tries + 1 }
                                           replays := holdAdd 0xFFFF l.replays (u.link n).replay.length
                                           flits := l.flits ++ (u.link n).replay.map (·.bytes) }) n))

/-- In a module that works: LINK_TRAINING_COMPLETE on a training link with identified copper or optics records length and delay, grants
the partner the receive buffers and sends CAPABILITY. With the link's region running, a CAPABILITY in clear that keeps the tables, on a
trained link that is still training, either leaves the link down with the cause R289 gives, or records the partner and sends SESSION; on
a link that is up it takes the link down with cause 8. A SESSION that verifies, opens the link's session and finds this side's own sent
brings up a link that has exchanged CAPABILITY, with the module's session and one for each instance both sides admit; one that does not
leaves the link down with cause 7. A message in clear that breaks the tables is only counted. SESSION_RENEW sends a RENEW for a session
in service one of whose counters has reached 2^55. Where the rules leave a choice it follows logs 39 and 79. -/
def Obligations.LinksComeUp : Prop :=
  ∀ (s : State) (n : Nat), n < 6 → s.working = true →
    (∀ lengthCm delayNs, (s.link n).state = .training → (s.link n).electrical = false → (s.media n = 1 ∨ s.media n = 2) →
      exec (.linkTrainingComplete n lengthCm delayNs) s = .next ((s.updLink n fun l => { l with
        electrical := true, delay := delayNs % 1024
        length := (if s.media n = 1 then lengthCm else ((Tab.get none s.mgt.cages n).getD (0, 0)).2) % 65536
        owed := [0, 1, 2].foldl (fun t vc => Tab.put 0 vc (Config.linkBuffers vc) t) [] }).linkControl n 1 (s.capPayload n))) ∧
    (∀ (sub : Nat) (c : Instr) (m : List Byte) (len : Nat), (sub, c) ∈ [(1, Instr.capability n), (2, .session n)] →
      s.linkRuns n = true → s.clearMsg n sub = some (m, len) → msgOk 0 0xFF m = false →
      exec c s = .next ((s.dropMsg n 0 len).updLink n fun l => { l with authFail := holdAdd 0xFFFF l.authFail 1 })) ∧
    (∀ (m c : List Byte) (len : Nat) (t : State), s.linkRuns n = true → s.clearMsg n 1 = some (m, len) → msgOk 0 0xFF m = true →
      msgResp m = false → c = msgPayload m → t = s.dropMsg n 0 len →
      ((t.link n).state = .up → exec (.capability n) s = .next (t.linkDown n 8)) ∧
      ((t.link n).state = .training → t.capCause n c ≠ 0 → exec (.capability n) s = .next (t.stayDown n (t.capCause n c))) ∧
      ((t.link n).state = .training → t.capCause n c = 0 → exec (.capability n) s = .next ((t.updLink n fun l => { l with
        capOk := true
        spread := bit (leAt c 5 1) 2 && (t.linkRec? n).any (·.spreadOk)
        partnerSerial := BitVec.ofNat 64 (leAt c 8 8)
        partnerCap := BitVec.ofNat 32 (leAt c 3 1 + bits (leAt c 4 1) 3 0 * 256 + (leAt c 5 1 % 8) * 4096 + leAt c 0 2 * 65536)
        partnerInsts := leAt c 16 8
        partnerPayload := c }).sendSession n 0 0xFF))) ∧
    (∀ (m c : List Byte) (len d : Nat) (t : State), s.linkRuns n = true → s.clearMsg n 2 = some (m, len) → msgOk 0 0xFF m = true →
      msgResp m = false → c = msgPayload m → t = s.dropMsg n 0 len → (t.link n).state = .training → (t.link n).capOk = true →
      Tab.get none (t.link n).ephs 0xFF = some d →
      exec (.session n) s = .next (if t.sessionGood n c = true ∧ leAt c 0 1 = 0 ∧ leAt c 1 1 = 0xFF
        then t.updLink n fun l => { l with
          state := .up, sessions := t.newSessions n d (slice c 8 32), ephs := Tab.put none 0xFF none l.ephs, downSince := none
          lostPosted := false }
        else t.stayDown n 7)) ∧
    (∀ i x, (s.link n).state = .up → x ∈ (s.link n).sessions → x.inst = i → x.live = true → x.renewing = false →
      (∃ vc ∈ [0, 1, 2], 2 ^ 55 ≤ Tab.get 0 x.tx vc) → exec (.sessionRenew n i) s = .next (s.renewSession n i))

/-- A message that is in order is accepted and counted. WRITE, READ, ACCUMULATE and SEMAPHORE of an instance that the LINK record does
not admit are answered with STATUS 2, those at an address the instance may not use, and a SEMAPHORE with reserved address bits set, with
STATUS 1; otherwise a WRITE, a READ of the pan or granary and an ACCUMULATE leave as a token for their destination, a READ of a
scratchpad waits while a region on its way is stopped, wakes a core in retention first, and is then answered at its bank, with STATUS 3
where a word is uncorrectable, and a SEMAPHORE adds its amount at the physical semaphore. A RESPONSE waits while a region on its way is
stopped; it ends the request it answers, one that answers none is discarded, and one whose length is not that asked for is counted; a
request sent 2 ms ago ends without one. ARRIVE waits for its barrier, and counts a child at the barrier being met, and COMPLETE brings
the reduced flag and is passed on to the children. Where the rules leave a choice it follows logs 41, 42, 59 and 83. -/
def Obligations.PartnerMessages : Prop :=
  ∀ (s t : State) (n vc i key : Nat) (b plain : List Byte), s.incoming n vc i key b plain → t = s.accepted n vc i key b →
    (vc = 0 → msgResp plain = false →
      (∀ k u kind c len, (k, c) ∈ [(1, Instr.write n key plain), (3, .accumulate n key plain)] →
        kind = (if k = 1 then TokKind.write else .accumulate) → u = (if k = 1 then Use.write else .acc) →
        len = (if k = 1 then (msgPayload plain).length else 2 * (msgPayload plain).length) → msgKind plain = k →
        exec c s = .next (
          if t.linkAdmits n i = false then t.linkResponse n i k 2 (msgTagOf plain) []
          else if t.linkAddrOk i u (msgAddr plain) len = false then t.linkResponse n i k 1 (msgTagOf plain) []
          else match t.linkToken n i kind plain (msgPayload plain).length with
            | some x => t.send x
            | none => t)) ∧
      (msgKind plain = 2 →
        (∀ w, s.scratchReadWaits n i plain = some w → exec (.read n key plain) s = .next w) ∧
        (∀ q off, s.place (msgAddr plain) = .scratch q off → s.linkAdmits n i = true →
          s.linkAddrOk i .read (msgAddr plain) (msgArg plain) = true → s.scratchReadWaits n i plain =
            (if s.wayHeld (90 + n) (q / 11) = true ∨ s.wayHeld (q / 11) (90 + n) = true then some s
             else if (s.core q).act = .retention then some (s.wake q) else none)) ∧
        (∀ (q off : Nat) (u : State), s.scratchReadWaits n i plain = none → t.place (msgAddr plain) = .scratch q off →
          u = (t.crossed (90 + n) (q / 11) i).crossed (q / 11) (90 + n) i → exec (.read n key plain) s = .next (
          if t.linkAdmits n i = false then t.linkResponse n i 2 2 (msgTagOf plain) []
          else if t.linkAddrOk i .read (msgAddr plain) (msgArg plain) = false then t.linkResponse n i 2 1 (msgTagOf plain) []
          else match (t.core q).scratchRead 0 off (msgArg plain) with
            | .ok bs => u.linkResponse n i 2 0 (msgTagOf plain) bs
            | .error f => (u.scratchUe q f.detail).linkResponse n i 2 3 (msgTagOf plain) ((t.core q).bytes off (msgArg plain)))) ∧
        (s.scratchReadWaits n i plain = none → (∀ q off, t.place (msgAddr plain) ≠ .scratch q off) → exec (.read n key plain) s = .next (
          if t.linkAdmits n i = false then t.linkResponse n i 2 2 (msgTagOf plain) []
          else if t.linkAddrOk i .read (msgAddr plain) (msgArg plain) = false then t.linkResponse n i 2 1 (msgTagOf plain) []
          else match t.linkToken n i .readReq plain (msgArg plain) with
            | some x => t.send x
            | none => t))) ∧
      (msgKind plain = 4 → exec (.semaphore n key plain) s = .next (
        if t.linkAdmits n i = false then t.linkResponse n i 4 2 (msgTagOf plain) []
        else if bits (msgAddr plain) 59 16 ≠ 0 then t.linkResponse n i 4 1 (msgTagOf plain) []
        else match t.semPhys i (msgAddr plain % 65536) with
          | none => t.linkResponse n i 4 1 (msgTagOf plain) []
          | some k => t.send { id := 0, kind := .semAdd, origin := .link n (msgTagOf plain), inst := i, srcUnit := linkUnit n,
                               dstUnit := semUnit (k / 4096), addr := BitVec.ofNat 64 k, n := msgArg plain })) ∧
      (∀ j, msgKind plain = 6 → msgArg plain = 3 → (s.spanJob (msgPayload plain) fun j => j.childLinks.contains n) = some j →
        (j.barrier + 1 < leAt (msgPayload plain) 4 4 → exec (.arrive n key plain) s = .next s) ∧
        ((t.spanJob (msgPayload plain) fun j => j.childLinks.contains n) = some j → leAt (msgPayload plain) 4 4 = j.barrier + 1 →
        n ∉ j.children → exec (.arrive n key plain) s = .next ((t.updJob j.inst j.seq fun j =>
          { j with children := j.children ++ [n], childFlag := j.childFlag || bit (leAt (msgPayload plain) 8 1) 0 }).spanArrive j.inst j.seq))) ∧
      (∀ j flag, msgKind plain = 6 → msgArg plain = 4 → (t.spanJob (msgPayload plain) fun j => j.parent = n) = some j →
        leAt (msgPayload plain) 4 4 = j.barrier + 1 → flag = bit (leAt (msgPayload plain) 8 1) 0 →
        exec (.complete n key plain) s = .next (j.childLinks.foldl
          (fun (t : State) c => if t.linkReady c 0xFF = true then t.linkControl c 4 (barrierPayload j flag) else t)
          (t.updJob j.inst j.seq fun j => { j with complete := some flag })))) ∧
    (vc = 1 → msgResp plain = true →
      ((s.answered n i plain).any (s.answerHeld n) = true → exec (.response n key plain) s = .next s) ∧
      ((s.answered n i plain).any (s.answerHeld n) = false → exec (.response n key plain) s = .next (
        match t.answered n i plain with
        | none => t
        | some r =>
          if (msgPayload plain).length ≠ (if r.kind = 2 ∧ (msgStatus plain = 0 ∨ msgStatus plain = 3) then r.len else 0) then t.authFail n
          else (t.answer n r (msgStatus plain) (msgPayload plain)).linkPump n))) ∧
    (∀ tag r sent, (s.link n).reqs.find? (fun r => r.tag = tag) = some r → r.sentAt = some sent →
      exec (.requestTimeout n tag) s = .next (if sent + 2000000 ≤ s.tb.count then s.endRequest n r else s))

/-- In a module that works: loss of signal takes a trained link down with cause 1, loss of FEC lock with cause 2; a link that stayed
down trains again, unless its media cannot be identified. A write of TLn_CTRL with RETRAIN set takes a link that is not disabled down
with cause 9; with RETRAIN clear it sets or clears DISABLE, and setting it on a link that was up or training takes it to disabled. A
link down for one second is reported once to each instance of its record, and jobs that span modules through it end with TASK_FAULT.
Where the rules leave a choice it follows logs 40 and 79. -/
def Obligations.LinksGoDown : Prop :=
  ∀ (s : State) (n : Nat), n < 6 → s.working = true →
    (∀ fecLost : Bool, (s.link n).electrical = true → exec (.lossOfSignal n fecLost) s = .next (s.linkDown n (if fecLost = true then 2 else 1))) ∧
    ((s.link n).state = .downRetrying → s.media n ≠ 3 → exec (.linkRetry n) s = .next (s.updLink n fun l => { l with state := .training })) ∧
    (∀ v : BitVec 32, s.bar0All = true →
      (bit v.toNat 0 = true → exec (.retrain n v) s = .next (if ((s.setDisable n (bit v.toNat 1)).link n).state = .disabled
        then s.setDisable n (bit v.toNat 1) else (s.setDisable n (bit v.toNat 1)).linkDown n 9)) ∧
      (bit v.toNat 0 = false → exec (.disable n v) s = .next (s.setDisable n (bit v.toNat 1)))) ∧
    ((s.link n).state = .disabled → s.setDisable n true = s.updLink n fun l => { l with disable := true }) ∧
    ((s.link n).state ≠ .disabled → (s.link n).electrical = true →
      s.setDisable n true = (s.updLink n fun l => { l with disable := true }).linkDown n (s.link n).cause) ∧
    ((s.link n).state ≠ .disabled → (s.link n).electrical = false →
      s.setDisable n true = (s.updLink n fun l => { l with disable := true }).updLink n fun l => { l with state := .disabled }) ∧
    (s.setDisable n false = s.updLink n fun l => { l with
      disable := false, state := if l.state = .disabled ∧ s.linkEnabled n = true then .training else l.state }) ∧
    (∀ t, (s.link n).downSince = some t → (s.link n).lostPosted = false → (s.link n).state ≠ .up → (s.link n).state ≠ .disabled →
      t + 1000000000 ≤ s.tb.count → ∀ u : State, u = (s.updLink n fun l => { l with lostPosted := true }) →
      ∀ w : State, w = ((List.range 64).filter fun i => (u.linkRec? n).any fun r => bit r.insts i).foldl
          (fun (t : State) i => t.post i 8 0 0 (leBytes 8 n ++ leBytes 8 (s.link n).partnerSerial.toNat)) u →
      exec (.partnerLost n) s = .next ((w.jobs.filter fun j => j.spans && (j.parent = n || j.childLinks.contains n)).foldl
        (fun (t : State) j => t.endJob j.inst j.seq stTaskFault) w))

/-- ATTEST, with no SEC operation running, ends BAD_FORMAT when SEC_IN_LEN is not 32, and otherwise asks its port for the nonce; it ends
HOST_READ_FAULT when that could not be read, and else writes the report on the instances selected to SEC_OUT_ADDR and flushes it: LENGTH
then shows its length, or it ends HOST_WRITE_FAULT. GET_MEASUREMENTS, at a port or the sideband, answers a report on every instance,
signed with the nonce. A mailbox ATTEST writes the instance's own report to its host and flushes it. STAGE_IN to a place the instance
may write asks its port for the bytes, and to any other replies STAGE_RANGE; when they have come its bytes are in memory and the reply
says so, or HOST_READ_FAULT. A code of no operation is answered UNKNOWN_OPERATION. CONSUMED of an active instance, protected by its IDE
stream in RUN, moves its mailbox on and waiting messages enter the ring. A report is its span followed by its signature. Where the rules
leave a choice it follows logs 65, 66 and 68. -/
def Obligations.ReportsAndMailbox : Prop :=
  ∀ s : State, s.working = true →
    (∀ (port : Nat) (v : BitVec 32), fld v 3 0 = 1 → s.bar0 = true → s.sec.busy = false → exec (.attest port v) s = .next (
      if s.sec.inLen.toNat ≠ 32 then s.secEnd secBadFormat
      else State.fetch { s with sec := { s.sec with running := some (1, port) } } port none (.sec 1) s.sec.inAddr.toNat 32)) ∧
    (∀ (port : Nat) (ok : Bool) (nonce r : List Byte), r = s.report (s.allInsts.filter fun i => bit s.sec.insts.toNat i) false nonce →
      s.secArrived 1 port ok nonce = (if ok = true
        then (s.hostWrite port none s.sec.outAddr.toNat r false).hostAsk port none s.sec.outAddr.toNat 0 (.report r.length)
        else s.secEnd secHostRead)) ∧
    (∀ ok len, s.attestFlushed ok len = (if ok = true
      then { s with sec := { s.sec with running := none, done := true, result := secOk, length := len } } else s.secEnd secHostWrite)) ∧
    (∀ (endpoint : Nat) (nonce r : List Byte), endpoint < 3 → s.bar0 = true → r = s.report s.allInsts false nonce →
      exec (.getMeasurements endpoint nonce) s = .next { s with sec := { s.sec with measurements := s.sec.measurements ++
        [{ endpoint := endpoint, index := 0x80, report := r, sig := Config.identitySign (Config.sha512 (padTo 32 nonce ++ r)) }] } }) ∧
    (∀ is fromInst nonce, s.report is fromInst nonce = s.reportSpan is fromInst nonce ++
      padTo 64 (Config.identitySign (Config.sha512 (s.reportSpan is fromInst nonce)))) ∧
    (∀ (port i : Nat) (ide : Bool) (msg r : List Byte) (t : State), t = s.debited i →
      (s.fromMailbox port i ide 0x30 msg → r = t.report [i] true (slice msg 0x10 32) → exec (.mailboxAttest port i ide msg) s = .next
        ((t.hostWrite port (some i) (leAt msg 8 8) r false).hostAsk port (some i) (leAt msg 8 8) 0 (.attest i (msgTag msg) r.length))) ∧
      (s.fromMailbox port i ide 0x20 msg → exec (.stageIn port i ide msg) s = .next (
        if t.stageInOk i (leAt msg 0x18 8) (leAt msg 0x10 4) = false then t.reply i stStageRange (msgTag msg) []
        else (t.updInst i fun x => { x with stageIn := x.stageIn ++
            [{ id := t.nextFetch, tag := msgTag msg, dst := BitVec.ofNat 64 (leAt msg 0x18 8), len := leAt msg 0x10 4, got := none }] }).fetch
          port (some i) (.stage i) (leAt msg 8 8) (leAt msg 0x10 4))) ∧
      (s.fromMailbox port i ide (leAt msg 0 1) msg → leAt msg 0 1 ∉ knownCodes →
        exec (.unknownOperation port i ide msg) s = .next (t.reply i stUnknownOp (msgTag msg) []))) ∧
    (∀ (i : Nat) (q : StageIn) (ok : Bool) (data : List Byte) (t : State), (s.inst i).stageIn.find? (fun q => q.got.isSome) = some q →
      q.got = some (ok, data) → t = (s.updInst i fun x => { x with stageIn := x.stageIn.erase q }) →
      exec (.stageInComplete i) s = .next (if ok = true then (t.memWrite i q.dst.toNat (padTo q.len data)).reply i 0 q.tag []
        else t.reply i stHostRead q.tag [])) ∧
    (∀ (port i : Nat) (ide : Bool) (v : BitVec 32), s.bar0All = true → port < 2 → s.pageOn port i = true → (s.inst i).tdi ≠ 3 →
      ((s.inst i).tdi = 2 → ide = true) →
      ((s.inst i).state = .active ∨ (s.inst i).state = .adopting) →
      exec (.consumedWrite port i ide v) s = .next ((s.updInst i fun x => { x with consumed := v.toNat }).drainMail i 32))

/-- MIRROR_SET of an open record and of a link whose record admits the instance starts mirroring afresh; otherwise it replies
TRAIN_UNKNOWN or TRAIN_RECORD_INVALID, and of a record that is withdrawn or ended non-finite the status of that. MIRROR_TAKE after a
step whose mirror is due sends the record, its table and arrays as writes, or gives the mirror up when the instance has no session on
the link; MIRROR_HEADER_WRITE sends the header once they are acknowledged. MIRROR_RESTORE takes the newer mirror that verifies, checks
it as TRAIN_OPEN does and against every open record, and opens it at the lowest free index with its record, table and arrays in place;
with no mirror that verifies, or one that fails a check, it replies the status. Where the rules leave a choice it follows logs 25, 26
and 64. -/
def Obligations.MirrorsOfTrainingState : Prop :=
  ∀ s : State,
    (∀ (port i : Nat) (ide : Bool) (msg : List Byte) (t : State), t = s.debited i → s.fromMailbox port i ide 0x31 msg →
      (t.msgTrain i msg = none → exec (.mirrorSet port i ide msg) s = .next (t.reply i stTrainUnknown (msgTag msg) [])) ∧
      (∀ x, t.msgTrain i msg = some x → exec (.mirrorSet port i ide msg) s = .next (
        if t.tr x 4 1 = 4 then t.reply i stNonfinite (msgTag msg) []
        else if t.tr x 4 1 = 3 then t.reply i stStale (msgTag msg) []
        else if ((t.linkRec? (leAt msg 0xA 1)).any fun r => bit r.insts i) = false then t.reply i stTrainInvalid (msgTag msg) []
        else (t.updTrain x fun w => { w.dropMirror with
          mirror := some (leAt msg 0xA 1, leAt msg 0x10 8), mirrorCopy := 0 }).reply i 0 (msgTag msg) []))) ∧
    (∀ (x : Nat) (m : Nat × Nat), s.working = true → (s.train1 x).mirror = some m →
      ((s.train1 x).isOpen = true → (s.train1 x).mirrorDue = true → (s.train1 x).refreshTo = none →
        (recSlow (s.recBytes x) = false ∨ s.updPending x = 0) →
        (s.linkReady m.1 (s.train1 x).inst = false → exec (.mirrorTake x) s = .next
          (s.updTrain x fun t => { t.dropMirror with mirrorDue := false })) ∧
        (∀ r, s.linkReady m.1 (s.train1 x).inst = true →
          r = s.mirrorSend m.1 (s.train1 x).inst (m.2 + (s.train1 x).mirrorCopy * s.mirrorBytes x + 64) (s.mirrorBody x) →
          exec (.mirrorTake x) s = .next (r.1.updTrain x fun t => { t with
            mirrorDue := false, mirrorStep := some (s.tr x 8 8), mirrorWrites := r.2
            mirrorDigest := Config.sha512 (s.mirrorBody x) }))) ∧
      (∀ step, (s.train1 x).mirrorStep = some step → (s.train1 x).mirrorWrites = [] →
        (s.linkReady m.1 (s.train1 x).inst = false → exec (.mirrorHeaderWrite x) s = .next (s.updTrain x Train.dropMirror)) ∧
        (∀ r, s.linkReady m.1 (s.train1 x).inst = true →
          r = s.mirrorSend m.1 (s.train1 x).inst (m.2 + (s.train1 x).mirrorCopy * s.mirrorBytes x)
            (mirrorHeader step (s.train1 x).mirrorDigest) →
          exec (.mirrorHeaderWrite x) s = .next (r.1.updTrain x fun t => { t with mirrorStep := none, mirrorWrites := r.2 })))) ∧
    (∀ (port i : Nat) (ide : Bool) (msg : List Byte) (t : State), t = s.debited i → s.fromMailbox port i ide 0x32 msg →
      (t.newerMirror i (leAt msg 8 8) = none → exec (.mirrorRestore port i ide msg) s = .next (t.reply i stTrainInvalid (msgTag msg) [])) ∧
      (∀ (step e : Nat) (body r tb : List Byte), t.newerMirror i (leAt msg 8 8) = some (step, body) → r = body.take 256 →
        tb = slice body 256 (96 * recTensors r) →
        (t.recordOk i (leAt msg 0x10 8) r tb = false →
          exec (.mirrorRestore port i ide msg) s = .next (t.reply i stTrainInvalid (msgTag msg) [])) ∧
        (t.recordOk i (leAt msg 0x10 8) r tb = true → t.variantHandle i (leAt r 0 4) = .ok e →
          (((t.recordExtents i (leAt msg 0x10 8) r (tableEntries (recTensors r) tb)).any fun a => t.openExtents.any (overlaps a)) = true →
            exec (.mirrorRestore port i ide msg) s = .next (t.reply i stMirrorConflict (msgTag msg) [])) ∧
          (∀ (x : Nat) (u w : State), t.freeTrain (recSlow r) = some x →
            ((t.recordExtents i (leAt msg 0x10 8) r (tableEntries (recTensors r) tb)).any fun a => t.openExtents.any (overlaps a)) = false →
            u = (t.updTrain x fun _ => { inst := i, isOpen := true, addr := BitVec.ofNat 64 (leAt msg 0x10 8)
                                         slot := (t.entry (bits (leAt r 0 4) 15 0)).slot }) →
            w = ((u.memWrite i (leAt msg 0x10 8) (slice r 0 4 ++ leBytes 1 1 ++ slice r 5 251)).memWrite i (leAt r 0x48 8) tb).restoreArrays i body →
            exec (.mirrorRestore port i ide msg) s = .next (((List.range (recLag r)).foldl (fun (t : State) j => t.zeroBuffer x j) w).reply i 0
              (msgTag msg) (leBytes 4 x ++ leBytes 4 0 ++ leBytes 8 (leAt r 8 8)))))))

/-- A write of HPn_INST_RESET for an instance of the port that no re-layout touches: DRAIN of an active one makes it draining with its
limit, withdraws its decided jobs and abandons its page-ins; SQUASH of an active or draining one squashes it: its jobs end with SQUASHED
and its undecided commits are refused; in any other state the write sets REFUSED. A drain limit that has passed turns a drain into a
squash. A draining or squashing instance with nothing outstanding is RETIRED: its page state and keys are gone but for the counts, its
sessions end, its semaphores are zero, its entries are freed, its records are closed and its queued updates dropped. Zeroed, while no
unlock runs, it is ACTIVE with new keys. FUNCTION_LEVEL_RESET ends the port's sessions and keys and squashes every active instance of
the port. Where the rules leave a choice it follows logs 67 and 68. -/
def Obligations.InstanceReset : Prop :=
  ∀ s : State, s.working = true →
    (∀ (port i : Nat) (v : BitVec 32), s.bar0All = true → port < 2 → i = fld v 5 0 → bit v.toNat 8 = false →
      (s.pageOn port i = true → s.inRelayout i = false →
        (fld v 7 6 = 1 → (s.inst i).state = .active → ∀ t : State,
          t = (s.updInst i fun x => { x with state := .draining, drainAt := s.tb.count + (((s.instRec? i).map (·.drainMs)).getD 0) * 1000000 }) →
          ∀ u : State, u = { t with jobs :=
            (mapIf (fun j => j.inst = i && j.phase ≠ .undecided) (fun j => { j with withdrawAll := true }) t.jobs) } →
          exec (.drain port v) s = .next ((u.instEntries i).foldl State.drainEntry u)) ∧
        (fld v 7 6 = 2 → ((s.inst i).state = .active ∨ (s.inst i).state = .draining) → exec (.squash port v) s = .next (s.squashInst i)) ∧
        (fld v 7 6 = 1 → (s.inst i).state ≠ .active → exec (.drain port v) s = .next (s.updPort port fun p => { p with refused := true })) ∧
        (fld v 7 6 = 2 → (s.inst i).state ≠ .active → (s.inst i).state ≠ .draining →
          exec (.squash port v) s = .next (s.updPort port fun p => { p with refused := true })))) ∧
    (∀ i, s.squashInst i = ((s.updInst i fun x => { x with state := .squashing, adopt := none }).jobs.filter fun j => j.inst = i).foldl
      (fun (t : State) j => if j.phase = .undecided then t.refuseJob j stResetting 0 else t.endJob i j.seq stSquashed)
      (s.updInst i fun x => { x with state := .squashing, adopt := none })) ∧
    (∀ i, (s.inst i).drainAt ≤ s.tb.count →
      ((s.inst i).state = .draining → exec (.drainLimitExpiry i) s = .next (s.squashInst i)) ∧
      ((s.inst i).state = .adopting → exec (.drainLimitExpiry i) s = .next (s.squashJobs i))) ∧
    (∀ (i : Nat) (t : State), ((s.inst i).state = .draining ∨ (s.inst i).state = .squashing) → s.instQuiet i = true →
      t = State.semClear (((s.event (portUnit (s.instPort i)) 0x70 i (s.confid i)).updInst i Inst.retire).endSessions i)
        (fun k => (((s.event (portUnit (s.instPort i)) 0x70 i (s.confid i)).updInst i Inst.retire).endSessions i).zen.sems.any fun r =>
          r.inst = i && r.field = k / 4096 && r.pbase ≤ k % 4096 && k % 4096 < r.pbase + r.count) →
      exec (.instanceRetired i) s = .next { t with
        cat := t.cat.map fun e => if e.2.inst = i ∧ e.2.state ≠ .free then (e.1, e.2.release) else e
        train := t.train.filter fun e => e.2.inst ≠ i
        upd := { t.upd with queue := t.upd.queue.filter fun u => (t.train1 u.index).inst ≠ i } }) ∧
    (∀ i, (s.inst i).state = .retired → s.sec.rngFail = false → s.sec.unlocking = none →
      exec (.instanceZeroingComplete i) s = .next (((s.zeroInst i).updInst i fun x => { x with state := .active }).newKeys i)) ∧
    (∀ (i : Nat) (t : State), s.sec.rngFail = false → t = (s.updInst i fun x =>
        { x with keyGen := x.keyGen + 1, granKey := some s.sec.draws, transKey := some (s.sec.draws + 2) }) →
      s.newKeys i = { t with sec := { t.sec with draws := t.sec.draws + 3, sinceReseed := t.sec.sinceReseed + 3 } }) ∧
    (∀ (port : Nat) (t : State), port < 2 → s.mgt.powered = true →
      t = (s.updPort port fun p => { p with ats := false, atsPending := [], spdm := none, linkIde := none }) →
      exec (.functionLevelReset port) s = .next ((t.allInsts.filter fun i => t.instPort i = port &&
        ((t.inst i).state = .active || (t.inst i).state = .draining || (t.inst i).state = .adopting)).foldl State.squashInst t))

/-- Inside a port's secured session a TDISP message moves an instance's interface from unlocked to locked, from locked to run or back,
and from run to unlocked; the key of a selective stream or of the link stream is programmed; outside one nothing happens. A session of a
port or of the sideband begins with a secret from the random source, or ends. An ATS invalidation joins those that wait for the requests
before them. A trained host link shows its speed, width and mode. A completion ends its request, counts its bytes, lets what waited for
room and the invalidations go on, does what the request was for, and lets held copies go on; a stopped port region takes none. A page
read of up to 64 bytes within one 64-byte span gives the bytes at its offset; a read of another instance's port reads zero and is
counted, one of an interface in ERROR reads zero, and one in RUN that the selective stream does not protect reads zero and puts the
interface in ERROR. Where the rules leave a choice it follows logs 65, 66 and 67. -/
def Obligations.HostPorts : Prop :=
  ∀ s : State, s.working = true →
    (∀ port i tdi, s.pageOn port i = true →
      ((s.port port).spdm = none → exec (.tdispMessage port i tdi) s = .next s) ∧
      ((s.port port).spdm.isSome = true → exec (.tdispMessage port i tdi) s = .next (
        if ((s.inst i).tdi, tdi) ∈ [(0, 1), (1, 2), (1, 0), (2, 0)] then s.updInst i fun x => { x with tdi := tdi } else s))) ∧
    (∀ endpoint, endpoint < 3 → s.bar0 = true →
      exec (.spdmSecuredSession endpoint false) s = .next (if endpoint = 2 then { s with sec := { s.sec with sideband := none } }
        else s.updPort endpoint fun p => { p with spdm := none }) ∧
      (∀ t : State, s.sec.rngFail = false → t = { s with sec := { s.sec with draws := s.sec.draws + 1, sinceReseed := s.sec.sinceReseed + 1 } } →
        exec (.spdmSecuredSession endpoint true) s = .next (if endpoint = 2 then { t with sec := { t.sec with sideband := some s.sec.draws } }
          else t.updPort endpoint fun p => { p with spdm := some s.sec.draws }))) ∧
    (∀ port, port < 2 →
      exec (.atsInvalidation port) s = .next (s.updPort port fun p => ({ p with atsPending := p.atsPending ++ [p.nextReq] } : Port).atsSettle) ∧
      (∀ i key, (s.port port).spdm = none → exec (.keyProg port i key) s = .next s) ∧
      (∀ key, (s.port port).spdm.isSome = true → exec (.keyProg port 64 key) s = .next (s.updPort port fun p => { p with linkIde := some key })) ∧
      (∀ i key, i < 64 → (s.port port).spdm.isSome = true → s.pageOn port i = true → exec (.keyProg port i key) s = .next
        (s.updInst i fun x => { x with ideKey := some key })) ∧
      (∀ speed width flit, (s.port port).training = true → exec (.hostLinkTrainingComplete port speed width flit) s = .next
        (s.updPort port fun p => { p with training := false, speed := speed, width := width, flit := flit })) ∧
      (∀ (id : Nat) (ok : Bool) (data : List Byte) (r : HostReq) (t u : State), (s.port port).reqs.find? (fun r => r.id = id) = some r →
        (s.held (88 + port) = true → exec (.hostCompletion port id ok data) s = .next s) ∧
        (s.held (88 + port) = false → t = (if ok = true then s.portBytes port (s.useInst r.use) 0x04 r.len else s) →
          u = (t.updPort port fun p => ({ p with reqs := p.reqs.filter fun x => x.id ≠ id } : Port).issue.atsSettle) →
          exec (.hostCompletion port id ok data) s = .next (u.hostDone port r ok data).runAll)) ∧
      (∀ i off len ide, s.bar0All = true → 1 ≤ len → len ≤ 64 - off % 64 →
        (s.pageOn port i = false →
          exec (.instancePageRead port i off len ide) s = .next ((s.wrongPort port).answerRead (leBytes len 0))) ∧
        (s.pageOn port i = true →
          ((s.inst i).tdi = 3 → exec (.instancePageRead port i off len ide) s = .next (s.answerRead (leBytes len 0))) ∧
          ((s.inst i).tdi = 2 → ide = false →
            exec (.instancePageRead port i off len ide) s = .next ((s.tdiError i).answerRead (leBytes len 0))) ∧
          ((s.inst i).tdi ≠ 3 → ((s.inst i).tdi ≠ 2 ∨ ide = true) → exec (.instancePageRead port i off len ide) s = .next
            (s.answerRead ((List.range len).map fun k => (s.inst i).pageByte (off + k)))))) ∧
      (∀ i, s.tdiError i = s.updInst i fun x => { x with tdi := 3 }) ∧
      (∀ bs, s.answerRead bs = { s with readBytes := bs, readData := (BitVec.ofNat 64 (leAt bs 0 8)) }))

/-- While no SEC command runs: OPERATOR_KEY and UNLOCK end with BAD_FORMAT unless SEC_IN_LEN is 128, and otherwise ask their port for
the bytes. An operator-key record of this serial, with a sequence above that of the key in effect and a signature that verifies (none is
asked for the first), is the key in effect; each failing check ends with its own result, and HOST_READ_FAULT when it could not be read.
A token that passes R400's checks makes admission refuse commits and squashes every instance, and a fresh challenge is drawn whether it
passes or not; UNLOCK_ZEROING_COMPLETE, with every instance retired, counts one more unlock and opens the debug unit. RAISE_FLOOR raises
the floor of KIND to the version in effect, and ends with ROLLBACK when it is there or above. While a SEC command runs, each of these
writes sets REFUSED alone. A failed health test is a fatal event, and after 2^20 requests the source is reseeded. Where the rules leave
a choice it follows log 68. -/
def Obligations.TrustRegion : Prop :=
  ∀ s : State,
    (∀ (port : Nat) (v : BitVec 32) (op : Nat) (i : Instr), s.bar0 = true → s.working = true →
      fld v 3 0 = op → (op, i) ∈ [(2, Instr.operatorKey port v), (3, .unlock port v), (4, .raiseFloor port v)] →
      s.sec.busy = true → exec i s = .next { s with sec := { s.sec with refused := true } }) ∧
    (∀ (port : Nat) (v : BitVec 32), s.bar0 = true → s.working = true → s.sec.busy = false →
      (fld v 3 0 = 2 → exec (.operatorKey port v) s = .next (if s.sec.inLen.toNat ≠ 128 then s.secEnd secBadFormat
        else State.fetch { s with sec := { s.sec with running := some (2, port) } } port none (.sec 2) s.sec.inAddr.toNat 128)) ∧
      (fld v 3 0 = 3 → exec (.unlock port v) s = .next (if s.sec.inLen.toNat ≠ 128 then s.newChallenge.secEnd secBadFormat
        else State.fetch { s with sec := { s.sec with running := some (3, port) } } port none (.sec 3) s.sec.inAddr.toNat 128)) ∧
      (fld v 3 0 = 4 → exec (.raiseFloor port v) s = .next (
        if fld v 6 4 = 0 ∨ 3 < fld v 6 4 then s.secEnd secBadFormat
        else if Tab.get 0 s.sec.svn (fld v 6 4 - 1) ≤ Tab.get 0 s.sec.floors (fld v 6 4 - 1) then s.secEnd secRollback
        else { s with sec := { s.sec with
          running := none, done := true, result := secOk
          floors := Tab.put 0 (fld v 6 4 - 1) (Tab.get 0 s.sec.svn (fld v 6 4 - 1)) s.sec.floors } }))) ∧
    (∀ (port : Nat) (data b : List Byte), b = padTo 128 data →
      s.secArrived 2 port false data = s.secEnd secHostRead ∧
      s.secArrived 2 port true data = (
        if leAt b 0x24 8 ≠ s.nvs.serial.toNat then s.secEnd secWrongSerial
        else if (∃ k, s.sec.opKey = some k ∧ leAt b 0x20 4 ≤ k.seq) then s.secEnd secRollback
        else if (∃ k, s.sec.opKey = some k ∧ Config.ed25519 k.key (Config.sha512 (b.take 64)) (slice b 64 64) = false)
          then s.secEnd secBadSignature
        else { s with sec := { s.sec with
          running := none, done := true, result := secOk
          opKey := some { key := slice b 0 32, seq := leAt b 0x20 4, raw := b, stored := false } } }) ∧
      s.secArrived 3 port false data = s.newChallenge.secEnd secHostRead ∧
      (s.tokenCause b ≠ 0 → s.secArrived 3 port true data = s.newChallenge.secEnd (s.tokenCause b)) ∧
      (∀ t : State, s.tokenCause b = 0 → t = { s.newChallenge with
          sec := { s.newChallenge.sec with running := none, unlocking := some (leAt b 6 2 % 4) }
          adm := { s.newChallenge.adm with refusing := true } } →
        s.secArrived 3 port true data = (t.allInsts.filter fun i => (t.inst i).state = .active ||
          (t.inst i).state = .draining || (t.inst i).state = .adopting).foldl State.squashInst t)) ∧
    (∀ scope, s.sec.unlocking = some scope → s.allRetired = true → s.working = true →
      ∃ t, exec .unlockZeroingComplete s = .next t ∧ t.sec.unlocking = none ∧ t.sec.debugOpen = true ∧ t.sec.scopes = scope ∧
        t.sec.result = secOk ∧ t.sec.unlocks = s.sec.unlocks + 1) ∧
    (s.mgt.powered = true → s.sec.rngFail = false →
      exec .rngFail s = .next (State.blackBox { s with sec := { s.sec with rngFail := true } } 1 2)) ∧
    (2 ^ 20 ≤ s.sec.sinceReseed → s.sec.rngFail = false →
      exec .drbgReseed s = .next { s with sec := { s.sec with sinceReseed := 0, reseeds := s.sec.reseeds + 1 } })

/-- In a module that works. REBUILD of a marked pan block goes by its region's source and of a marked granary block gives up what it
held; of an unmarked block it does nothing. HANG marks a running core; two further reads 16 ms later confirm it and stop its job, and 1
ms after the stop its outstanding work is discarded. A position to be fenced is FENCED with its code and a record; RENAME gives its
logical number to the spare and re-plans. A retired column is remapped. Of the recovery commands, one of a kind that runs sets REFUSED;
FENCE_CORE, RETIRE_COLUMN and RETRAIN_COLUMN of a wrong position end with BAD_POSITION, FENCE_CORE without a spare with NO_SPARE;
otherwise each starts, or retires the column at once. READ_BLACKBOX sends a slot's header and records to the host, with COUNT zero where
the slot's tag does not verify, and flushes them. LIVE_OPERATION_COMPLETE ends the oldest retrain or update: a retrain's settings join
the calibration in effect, and one that fails retires its column; an update's copy stands in the boot flash in place of the one not in
use, and takes over if it verifies and is not below its floor, or ends with VERIFY_FAILED. A retrain of a granary interface has the
plans that count on it resolved when it begins, and its settings join the calibration when it ends. Where the rules leave a choice it
follows logs 14, 33, 69, 70, 71 and 77. -/
def Obligations.FencingAndRecovery : Prop :=
  ∀ s : State, s.working = true →
    (∀ (block : Nat) (ok : Bool) (data : List Byte),
      exec (.rebuild true block ok data) s = .next (if Tab.get false s.granUe block = true then s.granLost block else s) ∧
      exec (.rebuild false block ok data) s = .next (if Tab.get false s.panUe block = true
        then s.rebuildPan (s.panLogical (block * 64) / columnBytes) (s.panLogical (block * 64) % columnBytes) block ok data else s)) ∧
    (∀ (p : Nat) (c : Core), c = s.core p →
      (c.act = .running → c.hungAt = none → s.held (p / 11) = false →
        exec (.hang p) s = .next (s.setCore p { c with hungAt := some s.tb.count, hangReads := 0 })) ∧
      (∀ (t : Nat) (u : State), c.hungAt = some t → c.hangReads = 0 → t + 16000000 ≤ s.tb.count →
        u = s.setCore p { c with hungAt := some s.tb.count, hangReads := 2 } →
        exec (.hangConfirm p) s = .next (if c.busy = true then (u.stopJob c.inst c.seq).updCore p Core.stopTask else u)) ∧
      (∀ t, c.hungAt = some t → c.hangReads = 2 → t + 1000000 ≤ s.tb.count → ∃ u, exec (.writeDiscardTimeout p) s = .next u ∧
        u = { s.setCore p { c with ce0 := {}, ce1 := {} } with net := u.net } ∧
        ∀ k, k ∈ u.net ↔ k ∈ s.net ∧ (∀ e d, k.origin ≠ .ce p e d) ∧ k.origin ≠ .seq p)) ∧
    (∀ p code, s.fenceCode p = some code → 2 ∉ (s.region (p / 11)).held →
      exec (.fence p) s = .next ((s.fencePos p code).event (switchUnit (p / 11)) 0x11 (p + 1024 * code) (s.fieldConfid (p / 11)))) ∧
    (∀ p, s.fenced p = true → (s.logicalOf p).isSome = true → exec (.rename p) s = .next
      (State.resolve (((s.renameCore p).updCore p fun c => { c with hungAt := none, hangReads := 0 }).swapDone p) 1
        fun j => j.fields.contains (p / 11))) ∧
    (∀ p, exec (.columnRetirement p) s = .next (s.retireColumn p)) ∧
    (∀ (port : Nat) (v : BitVec 32) (op p : Nat), s.bar0 = true → s.mgt.mgtFwDown = false → fld v 3 0 = op → p = fld v 25 16 →
      ((∃ x ∈ s.mgt.recBusy, x.1 = op) → ∀ i, (op, i) ∈ [(1, Instr.fenceCore port v), (2, .retireColumn port v), (3, .retrainColumn port v),
          (4, .readBlackbox port v), (5, .switchMgtFw port v), (6, .reloadMicrocode port v)] →
        exec i s = .next { s with mgt := { s.mgt with recRefused := true } }) ∧
      ((∀ x ∈ s.mgt.recBusy, x.1 ≠ op) →
        (op = 1 → exec (.fenceCore port v) s = .next (
          if 880 ≤ p ∨ s.posCode p ≠ 0 then s.recEnd recBadPosition
          else if s.spareOf (p / 11) = none then s.recEnd recNoSpare
          else { s with mgt := { s.mgt with recBusy := s.mgt.recBusy ++ [(1, p)], fenceReq := some p } })) ∧
        (op = 2 → exec (.retireColumn port v) s = .next (if 880 ≤ p ∨ p ∈ s.fence.retired then s.recEnd recBadPosition
          else (s.retireColumn p).recEnd 0)) ∧
        (op = 3 → exec (.retrainColumn port v) s = .next (if 880 ≤ p ∨ p ∈ s.fence.retired then s.recEnd recBadPosition
          else match (s.recStart 3 p).retrainReady with
            | some q => (s.recStart 3 p).startRetrain q
            | none => s.recStart 3 p)) ∧
        (∀ k h recs, op = 4 → k = (if bit v.toNat 4 = true ↔ s.boxSequence 0 < s.boxSequence 1 then 0 else 1) →
          h = Memory.read s.nvs.mem (boxSlot k) 64 → recs = Memory.read s.nvs.mem (boxSlot k + 0x40) (16 * min 8188 (leAt h 6 2)) →
          exec (.readBlackbox port v) s = .next (((s.recStart 4 0).hostWrite port none s.mgt.recAddr.toNat
            (if leAt h 0 4 = 0x58424B42 ∧ padTo 16 (Config.sealBlackBox (leAt h 8 8) (h.take 48 ++ recs)) = h.drop 48 then h ++ recs
             else slice h 0 6 ++ [0, 0] ++ h.drop 8) false).hostAsk port none s.mgt.recAddr.toNat 0 .box)) ∧
        (∀ ok, s.boxFlushed ok = { s with mgt := { s.mgt with
          recBusy := s.mgt.recBusy.erase (4, 0), recDone := true, recResult := if ok = true then 0 else 4 } }) ∧
        (op = 5 → exec (.switchMgtFw port v) s = .next { s with mgt := { s.mgt with
          recBusy := s.mgt.recBusy ++ [(5, 0)], mgtFwDown := true } }) ∧
        (op = 6 → exec (.reloadMicrocode port v) s = .next { s with mgt := { s.mgt with recBusy := s.mgt.recBusy ++ [(6, 0)] } }))) ∧
    (∀ (ok : Bool) (svn : Nat) (digest : BitVec 512) (key sig : List Byte) (x : Nat × Nat) (t : State),
      s.mgt.recBusy.find? (fun x => (x.1 = 3 && (Tab.get {} s.panCtl x.2).retraining) || x.1 = 5 || (x.1 = 6 && s.thrIdle)) = some x →
      t = { s with mgt := { s.mgt with recBusy := s.mgt.recBusy.erase x } } →
      (x.1 = 3 → exec (.liveOperationComplete ok svn digest key sig) s = .next (if ok = true
        then ((t.updPan x.2 fun m => { m with retraining := false }).recEnd 0).calibrated 1 x.2
        else (((t.updPan x.2 fun m => { m with retraining := false }).recEnd recVerifyFailed).calibrated 1 x.2).retireColumn x.2)) ∧
      (x.1 = 5 → exec (.liveOperationComplete ok svn digest key sig) s = .next
        (State.takeOver { t with mgt := { t.mgt with mgtFwDown := false } } 1 ok ⟨svn, digest, key, sig⟩)) ∧
      (x.1 = 6 → exec (.liveOperationComplete ok svn digest key sig) s = .next (t.takeOver 2 ok ⟨svn, digest, key, sig⟩))) ∧
    (∀ (k c : Nat) (ok : Bool) (x : FwCopy) (t : State), c = 1 - Tab.get 0 s.sec.active k →
      t = { s with sec := { s.sec with flash := Tab.put none (2 * k + c) (some x) s.sec.flash } } →
      s.takeOver k ok x = (if ok = false ∨ x.signed = false ∨ x.svn < Tab.get 0 s.sec.floors k then t.recEnd recVerifyFailed
        else { t.recEnd 0 with sec := { t.sec with
          svn := Tab.put 0 k x.svn s.sec.svn, fwDigest := Tab.put 0 k x.digest s.sec.fwDigest, active := Tab.put 0 k c s.sec.active } })) ∧
    (∀ c, c < 2 →
      exec (.granaryInterfaceRetrain c true) s = .next (doResolve 4 [96 + c] (s.updGran c fun m => { m with retraining := true })) ∧
      exec (.granaryInterfaceRetrain c false) s = .next ((s.updGran c fun m => { m with retraining := false }).calibrated 2 c)) ∧
    (∀ kind n, s.calibrated kind n = { s with nvs := { s.nvs with
      calibration := Config.recalibrated kind n s.tb.count s.nvs.calibration } })

/-- A trigger freezes the management ring, records its cause and starts a dump, or adds its cause to one that runs; a fatal event or
thermal trip also stops all work and asserts FAULT#. The triggers: a droop below 38 V once READY (before, the rails go down), an
over-voltage above 63 V, a break of the mate loop, a rail outside its limit, a thermal trip at its limit (of a column by the higher of
its two sensors), an uncorrectable error of the trust or management region. When the dump is complete the module is off after an
over-voltage disconnect, a broken mate loop or an input still below 38 V, holds its state after a fatal event or trip, and otherwise
works on with a record of the lowest input. Input warnings set their bit and alert; back in range they clear. The hot-swap stage closes
with the mate loop unless an over-voltage disconnect holds it open. A module put into or taken out of a cage, and each poll, changes
what is known of the cage. Where the rules leave a choice it follows log 78. -/
def Obligations.ModuleSupervision : Prop :=
  ∀ s : State,
    (∀ causes fatal t, t = s.blackBox causes fatal →
      t.mgt.dumping = true ∧ (s.mgt.dumping = false → t.mgt.ringFrozen = true ∧ t.mgt.causes = causes ∧ t.mgt.fatal = fatal ∧
        t.mgt.freezeTb = s.tb.count) ∧ (s.mgt.dumping = true → t.mgt.causes = s.mgt.causes ||| causes) ∧
      (causes % 4 ≠ 0 → t.mgt.stopped = true ∧ t.mgt.faultPin = true)) ∧
    (∀ mv, s.mgt.powered = true →
      (mv < 38000 → exec (.inputDroop mv) s = .next (if s.ready = true
        then State.blackBox { s with mgt := { s.mgt with
          inputMv := mv / 10, lowest := (if s.mgt.dumping = true then min s.mgt.lowest (mv / 10) else mv / 10) } } 4 0
        else { s.cold with mgt := { s.cold.mgt with inputMv := mv / 10 } })) ∧
      (63000 < mv → exec (.overVoltageDisconnect mv) s = .next (State.blackBox { s with mgt := { s.mgt with
        hotSwap := false, disconnected := true, ovFallen := false, inputMv := mv / 10 } } 1 4)) ∧
      (exec .mateLoopBreak s = .next (State.blackBox { s with mgt := { s.mgt with hotSwap := false, mateClosed := false } } 4 0)) ∧
      (∀ rail v lim, railNominal rail = some (v, lim) → ¬(v * (100 - lim) ≤ 100 * mv ∧ 100 * mv ≤ v * (100 + lim)) →
        s.mgt.stopped = false → exec (.railLimit rail mv) s = .next (State.blackBox { s with mgt := { s.mgt with
          railMv := Tab.put 0 rail mv s.mgt.railMv, railSeen := Tab.put false rail true s.mgt.railSeen } } 1 4)) ∧
      (∀ kind unit reading other t, kind ≤ 2 → s.mgt.tripped = false →
        (if kind = 0 then 105 else if kind = 1 then 95 else 60) ≤ (if kind = 1 then max reading other else reading) →
        t = (if kind = 0 then (if unit < 80 then s.updRegion unit fun g => g.sense reading else s)
          else if kind = 1 then (if unit < 880 then s.updPan unit fun m => { m with temp0 := reading, temp7 := other } else s)
          else { s with mgt := { s.mgt with outlet := reading % 256 } }) →
        exec (.thermalTrip kind unit reading other) s = .next (State.blackBox { t with mgt := { t.mgt with tripped := true } } 2 0)) ∧
      (s.mgt.stopped = false → exec .trustManagementUncorrectable s = .next (s.blackBox 1 3))) ∧
    (∀ mv t, s.mgt.dumping = true → t = s.writeBox →
      (t.mgt.disconnected = false → t.mgt.mateClosed = true → t.mgt.causes % 4 ≠ 0 → exec (.blackBoxDumpComplete mv) s = .next t) ∧
      (t.mgt.disconnected = false → t.mgt.mateClosed = true → t.mgt.causes % 4 = 0 → 38000 ≤ mv → ∃ u : State,
        u = { t with mgt := { t.mgt with ringFrozen := false, inputMv := mv / 10, inputLow := decide (mv < 40000) } } ∧
        exec (.blackBoxDumpComplete mv) s = .next ((u.event mgtUnit 0x22 u.mgt.lowest false).alert 2)) ∧
      (t.mgt.disconnected = true ∨ t.mgt.mateClosed = false ∨ (t.mgt.causes % 4 = 0 ∧ mv < 38000) →
        exec (.blackBoxDumpComplete mv) s = .next { t.cold with mgt := { t.cold.mgt with
          disconnected := t.mgt.disconnected, ovFallen := t.mgt.ovFallen, faultPin := t.mgt.faultPin, inputMv := mv / 10 } })) ∧
    (∀ mv, s.ready = true →
      (38000 ≤ mv → mv < 40000 → exec (.inputLow mv) s = .next (State.alert { s with mgt := { s.mgt with
        inputMv := mv / 10, inputLow := true, inputHigh := false } } 2)) ∧
      (60000 < mv → mv ≤ 63000 → exec (.inputHigh mv) s = .next (State.alert { s with mgt := { s.mgt with
        inputMv := mv / 10, inputHigh := true, inputLow := false } } 2)) ∧
      (40000 ≤ mv → mv ≤ 60000 → s.mgt.disconnected = false → exec (.inputInOperatingRange mv) s = .next { s with mgt := { s.mgt with
        inputMv := mv / 10, inputLow := false, inputHigh := false } })) ∧
    (exec .mateLoopContinuous s = .next { s with mgt := { s.mgt with mateClosed := true, hotSwap := !s.mgt.disconnected } }) ∧
    (∀ n media len, n < 6 → s.mgt.powered = true →
      (1 ≤ media → media ≤ 3 →
        (Tab.get none s.mgt.cages n = none → exec (.cageInsertion n media len) s = .next ((s.cmis n media len).alert 3)) ∧
        (Tab.get none s.mgt.cages n ≠ none → exec (.cmisPoll n media len) s = .next (s.cmis n media len))) ∧
      (Tab.get none s.mgt.cages n ≠ none → exec (.cageRemoval n) s = .next
        (State.alert { s with mgt := { s.mgt with cages := Tab.put none n none s.mgt.cages } } 3)))

/-- In a powered module that works: THROTTLE# caps every field, alerts and is reported as cause THROTTLE, and its release ends that cap.
A column above 85 °C by the higher of its two sensors caps its field at 97 % of its floor, and a field at 100 °C (or a column at 90 °C)
starts a cap that falls from its target, each alerted and reported once; a field whose cap rose falls again. Power above the limit
starts a cap on every field that has none. Each step moves thermal and power caps by 25 M beats/s, down while the cause lasts and up
once it has gone, where a cap that reaches its start is removed. A column below 83 °C by both sensors ends its field's refresh cap when
no other column of the field is hot, a field below 97 °C with columns below 87 °C turns its cap up, and power 5 % below the limit turns
the power caps up. Where the rules leave a choice it follows log 53. -/
def Obligations.CapsAndThrottling : Prop :=
  ∀ s : State,
    (s.mgt.pin = false → s.mgt.powered = true → s.working = true → exec .throttleAssert s = .next
      ((State.alert { s with mgt := { s.mgt with pin := true } } 1).capReport (List.range 80))) ∧
    (exec .throttleDeassert s = .next { s with mgt := { s.mgt with pin := false } }) ∧
    (s.mgt.powered = true → s.working = true →
      (∀ p t0 t7 t, p < 880 → 85 < max t0 t7 → t = (s.sensePan p t0 t7).updPan p (fun m => { m with hot := true }) →
        exec (.columnHot p t0 t7) s = .next (if (t.field (p / 11)).caps.refresh.isSome = true then t
          else ((t.updCaps (p / 11) fun x => { x with refresh := some (t.floorRate (p / 11) second * 97 / 100) }).alert 1).capReport [p / 11])) ∧
      (∀ f column temp t, f < 80 → (if column = true then 90 else 100) ≤ temp →
        t = (if column = true then s else s.updRegion f fun g => g.sense temp) →
        exec (.fieldHot f column temp) s = .next (if (t.field f).caps.thermal.isSome = true
          then t.updCaps f fun x => { x with rising := false }
          else ((t.updCaps f fun x => { x with thermal := some (t.capStart f), rising := false }).alert 1).capReport [f])) ∧
      (∀ watts fresh t, s.powerLimitW < watts → fresh = ((List.range 80).filter fun f => ((s.setWatts watts).field f).caps.power.isNone) →
        t = fresh.foldl (fun (t : State) f => t.updCaps f fun x => { x with power := some (t.capStart f) }) (s.setWatts watts) →
        exec (.powerOverLimit watts) s = .next (if fresh = [] then { t with mgt := { t.mgt with powerOver := true } }
          else (State.alert { t with mgt := { t.mgt with powerOver := true } } 1).capReport fresh)) ∧
      (∀ capped t, capped = ((List.range 80).filter fun f => (s.field f).caps.thermal.isSome || (s.field f).caps.power.isSome) →
        t = capped.foldl (fun (t : State) f => t.updCaps f fun x => { x with
          thermal := capMove (s.capStart f) x.rising x.thermal
          rising := x.rising && (capMove (s.capStart f) x.rising x.thermal).isSome
          power := capMove (s.capStart f) (!s.mgt.powerOver) x.power }) s →
        exec .capStep s = .next (t.capReport (capped.filter fun f => ((s.field f).caps.thermal.isSome && !(s.field f).caps.rising) ||
          ((s.field f).caps.power.isSome && s.mgt.powerOver)))) ∧
      (∀ unit reading other, unit < 880 → max reading other < 83 → ∀ t, t = (s.sensePan unit reading other).updPan unit (fun m => { m with hot := false }) →
        exec (.thermalRelease 0 unit reading other) s = .next (
          if ((List.range 11).any fun k => (Tab.get {} t.panCtl (unit / 11 * 11 + k)).hot) = true then t
          else t.updCaps (unit / 11) fun x => { x with refresh := none })) ∧
      (∀ unit reading other, unit < 80 → reading < 97 → (s.field unit).caps.thermal ≠ none →
        (∀ k < 11, (Tab.get {} s.panCtl (unit * 11 + k)).temp < 87) → exec (.thermalRelease 1 unit reading other) s = .next
          ((s.updRegion unit fun g => g.sense reading).updCaps unit fun x => { x with rising := true })) ∧
      (∀ unit watts other, 100 * watts ≤ s.powerLimitW * 95 → exec (.thermalRelease 2 unit watts other) s = .next
        { s.setWatts watts with mgt := { (s.setWatts watts).mgt with powerOver := false } })) ∧
    (∀ p t0 t7, s.sensePan p t0 t7 = s.updPan p fun m => { m with temp0 := t0, temp7 := t7 }) ∧
    (∀ start c, capMove start false (some c) = some (c - 25) ∧ capMove start true (some c) = (if start ≤ c + 25 then none else some (c + 25)))

/-- A freeze armed with a tick at least 2 µs ahead is armed; a nearer one, or a second while one is armed, sets REFUSED; of a write in
halves the lower half is held, and the upper one arms with both. At its tick every frozen bank is what the counters show, SEQ is one
higher, a record is written, and the bank is valid 1 µs after. ARM of a stop while idle, with a tick far enough ahead, arms it with the
scope the registers select; at the tick every region of the scope stops, once a freeze of the same tick is done; when all are quiescent
every token has moved up to the boundary that holds it, and those at a boundary into the scope are listed, those of confidential
instances only counted. RESUME releases a stop that stopping or stopped: the regions resume, and its length is added to promises. The
ring and residue reads give the low half and latch the high one. At the end of a 100 ms window busy beats start again from zero; at the
end of a 1 s window the readings of input power and coolant are taken over and each junction shown is the average of its readings in the
window. While an instance is confidential the power shown is the window's, in whole steps of 25 W. Where the rules leave a choice it
follows logs 72, 73 and 75. -/
def Obligations.FreezeStopAndWindows : Prop :=
  ∀ s : State,
    (s.obsOk = true →
      (∀ v : Word, s.obs.armed = false → exec (.freezeArm 8 false v) s = .next (if v.toNat < s.tb.count + 2000
        then { s with obs := { s.obs with refused := true } }
        else { s with obs := { s.obs with freezeTb := v, armed := true } })) ∧
      (∀ hi v, s.obs.armed = true → exec (.freezeArm 8 hi v) s = .next { s with obs := { s.obs with refused := true } }) ∧
      (∀ (v : BitVec 32) (t u : State), bit v.toNat 17 = true →
        t = { s with obs := { s.obs with fieldsHi := v.setWidth 16, global := bit v.toNat 16 } } →
        u = (if s.obs.stop ≠ .idle ∨ s.obs.stopTb.toNat < s.tb.count + 2000
          then { t with obs := { t.obs with refused := true } }
          else { t with obs := { t.obs with stop := .armed, stopAt := s.obs.stopTb.toNat, scope := t.stopScope } }) →
        exec (.arm v) s = .next (if bit v.toNat 18 = true then u.release else u)) ∧
      (∀ (v : BitVec 32), bit v.toNat 17 = false → bit v.toNat 18 = true → exec (.resume v) s = .next
        (State.release { s with obs := { s.obs with fieldsHi := v.setWidth 16, global := bit v.toNat 16 } })) ∧
      (∀ v : Word, s.obs.armed = false → exec (.freezeArm 4 false v) s = .next { s with halves := { s.halves with
        writeLo := Tab.put none freezeReg (some (v.setWidth 32)) s.halves.writeLo } }) ∧
      (∀ (v : Word) (lo : BitVec 32) (t : State), s.obs.armed = false → Tab.get none s.halves.writeLo freezeReg = some lo →
        s.tb.count + 2000 ≤ v.toNat % 2 ^ 32 * 2 ^ 32 + lo.toNat →
        t = { s with halves := { s.halves with writeLo := Tab.put none freezeReg none s.halves.writeLo } } →
        exec (.freezeArm 4 true v) s = .next { t with obs := { t.obs with
          freezeTb := (BitVec.ofNat 64 (v.toNat % 2 ^ 32 * 2 ^ 32 + lo.toNat)), armed := true } })) ∧
    (s.obs.stop = .stopping ∨ s.obs.stop = .stopped → s.release.obs.stop = .idle ∧ s.release.obs.scope = [] ∧ s.release.obs.residue = []) ∧
    (s.obs.armed = true → s.obs.freezeTb.toNat ≤ s.tb.count → ∃ t, exec .freeze s = .next t ∧ t.obs.armed = false ∧ t.obs.frozen = s.bank ∧
      t.obs.seq = (s.obs.seq + 1) % 2 ^ 24 ∧ t.obs.valid = false ∧ t.obs.validAt = some (s.obs.freezeTb.toNat + 1000)) ∧
    (∀ t, s.obs.validAt = some t → t ≤ s.tb.count → exec .frozenValid s = .next
      { s with obs := { s.obs with valid := true, validAt := none } }) ∧
    (∀ t : State, s.obs.stop = .armed → s.obs.stopAt ≤ s.tb.count → (s.obs.armed = false ∨ s.obs.stopAt < s.obs.freezeTb.toNat) →
      t = s.obs.scope.foldl (fun (t : State) r => t.stopRegion r 2) s →
      exec .debugStopHold s = .next { t with obs := { t.obs with stop := .stopping } }) ∧
    (∀ heldToks, s.obs.stop = .stopping → s.obs.scope.all s.quiescent = true →
      heldToks = (s.settle.net.filter fun t => t.path.head?.any s.obs.scope.contains) →
      ∃ t, exec .debugStop s = .next t ∧ t.obs.stop = .stopped ∧
        t.obs.residue = ((heldToks.filter fun t => !s.confid t.inst).take 4096).map residueEntry ∧
        t.obs.confResidue = min 0x1FFF (heldToks.length - (heldToks.filter fun t => !s.confid t.inst).length) ∧
        t.net = s.settle.net ∧ t.cores = s.cores) ∧
    (s.bar0All = true → s.mgt.mgtFwDown = false →
      (∀ r, r = (if fld s.obs.ringSel 28 16 < ringDepth (fld s.obs.ringSel 15 0)
          then padTo 16 (Tab.get [] (s.ringOf (fld s.obs.ringSel 15 0)).recs (fld s.obs.ringSel 28 16)) else List.replicate 16 0) →
        exec .obsRingLoRead s = .next { s with readData := (BitVec.ofNat 64 (leAt r 0 8))
                                               obs := { s.obs with ringHi := BitVec.ofNat 64 (leAt r 8 8) } }) ∧
      (∀ r, r = padTo 16 (s.obs.residue.getD s.obs.resSel.toNat []) →
        exec .obsResidueLoRead s = .next { s with readData := (BitVec.ofNat 64 (leAt r 0 8))
                                                  obs := { s.obs with resHi := BitVec.ofNat 64 (leAt r 8 8) } })) ∧
    (s.anyConfid = true → s.shownWatts = s.mgt.windowW / 25 * 25) ∧ (s.anyConfid = false → s.shownWatts = s.mgt.inputW) ∧
    (∀ g : Region, 0 < g.tempN → g.average.tempAvg = g.tempSum / g.tempN ∧ g.average.tempN = 0 ∧ g.average.temp = g.temp) ∧
    (∀ watts inlet outlet, s.mgt.powered = true →
      (∀ (t : State) (j : Nat × Nat), s.tb.count % 1000000000 = 0 →
        t = (List.range 88).foldl (fun (t : State) r => t.updRegion r Region.average) s →
        j = hottest ((List.range 80).map fun f => (f, (t.region f).tempAvg)) →
        exec (.coarsenedWindowEnd true watts inlet outlet) s = .next { t with mgt := { t.mgt with
          inputW := watts, windowW := watts, inlet := inlet % 256, outlet := outlet % 256, hotField := j.1, hotJunction := j.2 } }) ∧
      (s.tb.count % 100000000 = 0 → exec (.coarsenedWindowEnd false watts inlet outlet) s = .next ((List.range 80).foldl
        (fun (t : State) f => t.updRegion f fun g =>
          g.window (t.fieldConfid f) (Tab.get 0 t.obs.cnt (cntKey (regionUnit f 0x1FF) 0)).toNat) s)))

/-- A whole read of a register with RC fields that answers gives the register's value and clears exactly those fields. A read of the
lower half of a 64-bit register gives its bits 31:0, keeps its bits 63:32 for the upper half, and clears its RC fields; the next read of
the upper half gives the kept half, once, and one with none kept gives the current upper half. A write that is taken, of 4 or 8 aligned
bytes through a host port: to a 32-bit register changes its writable fields, to a 64-bit register the whole, and of its lower half is
held until the upper half is written, when both take effect; anything else is discarded. MGT_ALERT bits written one are cleared, TB_SLEW
is clamped to ±200,000, and the power limit and throttle rate take their fields. A write of NVS_CMD that starts no operation sets
REFUSED while one runs. Where the rules leave a choice it follows logs 76 and 91. -/
def Obligations.RegisterAccesses : Prop :=
  ∀ s : State,
    (∀ (off : Nat) (i : Instr) (t : State), s.answers off = true → (off < 0x10000 → s.mgt.mgtFwDown = false) →
      (off, i, t) ∈ [
        (0x224, Instr.mgtThrottleRead, { s with mgt := { s.mgt with capsCount := 0 } }),
        (0x10004, .admStatusRead, { s with adm := { s.adm with late := 0 } }),
        (0x10038, .admDecisionsRead, { s with adm := { s.adm with accepts := 0, refusals := 0 } }),
        (0x14018, .admVarEventsRead, { s with adm := { s.adm with pageIns := 0, evictions := 0 } }),
        (0x14100, .admTrainCountsRead, { s with adm := { s.adm with skips := 0, persistent := 0 } }),
        (0x40000, .secStatusRead, { s with sec := { s.sec with inspectRefused := 0 } }),
        (0xF1008, .grnUpdDoneRead, { s with upd := { s.upd with applied := 0, skipped := 0 } })] →
      exec i s = .next { t with readData := s.regRead off }) ∧
    (∀ (off k : Nat) (i : Instr) (t : State), s.answers off = true →
      (k < 2 ∧ off = 0x20018 + k * 0x10000 ∧ i = .hpErrRead k ∧ t = s.updPort k fun p =>
          { p with intakeDiscarded := 0, badRelease := 0, mboxDropped := 0, wrongPort := 0 }) ∨
      (k < 6 ∧ off = 0x90018 + k * 0x10000 ∧ i = .tlnErrRead k ∧ t = s.updLink k fun l =>
          { l with fecUncorrected := 0, replays := 0, authFail := 0, noSession := 0 }) ∨
      (k < 2 ∧ off = 0xF0000 + k * 0x8000 ∧ i = .grnErrRead k ∧ t = s.updGran k fun m => { m with corrected := 0, uncorrected := 0, rebuilt := 0 }) ∨
      (k < 880 ∧ off = 0x1000000 + k * 0x1000 ∧ i = .panErrRead k ∧ t = s.updPan k fun m => { m with corrected := 0, uncorrected := 0, rebuilt := 0 }) ∨
      (k < 80 ∧ off = 0x2000108 + k * 0x10000 ∧ i = .fldSemStatusRead k ∧ t = s.updField k fun x => { x with semPeak := 0 }) ∨
      (k < 80 ∧ off = 0x2000110 + k * 0x10000 ∧ i = .fldSemEventsRead k ∧ t = s.updField k fun x =>
          { x with saturated := 0, clamped := 0, semOps := 0 }) ∨
      (k < 880 ∧ off = 0x3000000 + k * 0x1000 + 0x1C ∧ i = .corScratchErrRead k ∧ t = s.updCore k fun c => { c with corrected := 0, uncorrected := 0 }) →
      exec i s = .next { t with readData := s.regRead off }) ∧
    (∀ off v, s.answers off = true → s.regAt off = some (true, v) → off ≠ 0x50048 → off ≠ 0x50060 →
      ∃ t : State, t = s.clearRc off ∧ exec (.lowerHalfRead off) s = .next { t with
        readData := (BitVec.ofNat 64 (v % 2 ^ 32))
        halves := { t.halves with readHi := Tab.put none off (some (BitVec.ofNat 32 (v / 2 ^ 32))) t.halves.readHi } }) ∧
    (∀ off v, s.answers (off + 4) = true → off % 8 = 0 → s.regAt (off + 4) = none → s.regAt off = some (true, v) →
      (∀ x : BitVec 32, Tab.get none s.halves.readHi off = some x → exec (.lowerHalfRead (off + 4)) s = .next { s with
        readData := (x.setWidth 64), halves := { s.halves with readHi := Tab.put none off none s.halves.readHi } }) ∧
      (Tab.get none s.halves.readHi off = none → off ≠ 0x50048 → off ≠ 0x50060 →
        exec (.lowerHalfRead (off + 4)) s = .next { s.clearRcHi off with readData := BitVec.ofNat 64 (v / 2 ^ 32) })) ∧
    (∀ off, s.answers off = false → exec (.lowerHalfRead off) s = .next { s with readData := 0 }) ∧
    (∀ (port off : Nat) (v : Word), s.takesWrite off = true → port < 2 →
      (off % 4 = 0 → s.reg64 (off / 8 * 8) = none → exec (.registerWrite port off 4 v) s = .next (s.write32 off v)) ∧
      (∀ cur, off % 8 = 0 → s.reg64 off = some cur → exec (.registerWrite port off 8 v) s = .next (s.write64 port off v) ∧
        exec (.registerWrite port off 4 v) s = .next { s with halves := { s.halves with
          writeLo := Tab.put none off (some (v.setWidth 32)) s.halves.writeLo } }) ∧
      (∀ (cur : Word) (base lo : Nat), base = off / 8 * 8 → off = base + 4 → s.reg64 base = some cur →
        lo = ((Tab.get none s.halves.writeLo base).map (·.toNat)).getD (cur.toNat % 2 ^ 32) →
        exec (.registerWrite port off 4 v) s = .next (State.write64 { s with halves := { s.halves with
          writeLo := Tab.put none base none s.halves.writeLo } } port base (BitVec.ofNat 64 (v.toNat % 2 ^ 32 * 2 ^ 32 + lo)))) ∧
      (∀ size, size ≠ 4 → size ≠ 8 → exec (.registerWrite port off size v) s = .next s)) ∧
    (∀ v : Word, s.nvs.op.isSome = true → bits v.toNat 3 0 = 0 ∨ 4 < bits v.toNat 3 0 →
      s.write32 0x70000 v = { s with nvs := { s.nvs with refused := true } }) ∧
    (∀ v : Word, s.write32 0x228 v = { s with mgt := { s.mgt with alert := s.mgt.alert &&& ~~~(BitVec.ofNat 5 v.toNat) } } ∧
      s.write32 0x60008 v = { s with tb := { s.tb with slew := max (-200000) (min 200000 (sext 19 v.toNat)) } } ∧
      s.write32 0x220 v = { s with mgt := { s.mgt with powerLimit := BitVec.ofNat 11 v.toNat, throttleRate := BitVec.ofNat 11 (v.toNat >>> 16) } })
end

