-- ==== Sys2Proof/Laws/Tab.lean ====
section
/-! SUPPORT. Laws of the sparse tables: a number reads what was put there, other numbers keep their value, and every
operation keeps the canonical form. -/

namespace Sys2Proof.Machine

variable {α : Type}

/-- Every number of a table lies above a bound. -/
def Tab.above (n : Nat) (t : Tab α) : Prop := ∀ e ∈ t, n < e.1

/-- The strict order of a table as a property of its first entry and the rest. -/
theorem Tab.sorted_cons {k : Nat} {v : α} {t : Tab α} :
    Tab.sorted ((k, v) :: t) = true ↔ Tab.above k t ∧ Tab.sorted t = true := by
  induction t generalizing k v with
  | nil => simp [Tab.sorted, Tab.above]
  | cons e t ih =>
    obtain ⟨l, w⟩ := e
    have h := @ih l w
    simp only [Tab.sorted, Bool.and_eq_true, decide_eq_true_eq]
    constructor
    · rintro ⟨hkl, hs⟩
      refine ⟨?_, hs⟩
      intro e he
      rcases List.mem_cons.1 he with rfl | he
      · exact hkl
      · exact lt_trans hkl ((h.1 hs).1 e he)
    · rintro ⟨ha, hs⟩
      exact ⟨ha (l, w) (by simp), hs⟩

/-- A number below every listed one reads the default. -/
theorem Tab.get_above {d : α} {n : Nat} {t : Tab α} (h : Tab.above n t) : Tab.get d t n = d := by
  cases t with
  | nil => rfl
  | cons e t =>
    have := h e (by simp)
    simp [Tab.get, this, Nat.ne_of_lt this]

theorem Tab.get_insert_self {d v : α} {n : Nat} (t : Tab α) : Tab.get d (Tab.insert n v t) n = v := by
  induction t with
  | nil => simp [Tab.insert, Tab.get]
  | cons e t ih =>
    obtain ⟨k, w⟩ := e
    simp only [Tab.insert]
    split_ifs with h1 h2
    · simp [Tab.get]
    · simp [Tab.get]
    · simp [Tab.get, h1, h2, ih]

theorem Tab.get_insert_ne {d v : α} {n m : Nat} (h : m ≠ n) (t : Tab α) :
    Tab.get d (Tab.insert n v t) m = Tab.get d t m := by
  induction t with
  | nil => simp [Tab.insert, Tab.get, h]
  | cons e t ih =>
    obtain ⟨k, w⟩ := e
    simp only [Tab.insert]
    split_ifs with h1 h2
    · simp only [Tab.get, h, if_false]
      by_cases hm : m < n
      · have : m < k := lt_trans hm h1
        simp [hm, this, Nat.ne_of_lt this]
      · simp [hm]
    · subst h2; simp [Tab.get, h]
    · simp [Tab.get, ih]

theorem Tab.above_erase {n m : Nat} {t : Tab α} (h : Tab.above m t) : Tab.above m (Tab.erase n t) := by
  induction t with
  | nil => exact h
  | cons e t ih =>
    obtain ⟨k, w⟩ := e
    have ht : Tab.above m t := fun x hx => h x (by simp [hx])
    simp only [Tab.erase]
    split_ifs
    · exact ht
    · exact h
    · intro x hx
      rcases List.mem_cons.1 hx with rfl | hx
      · exact h (k, w) (by simp)
      · exact ih ht x hx

theorem Tab.above_insert {n m : Nat} {v : α} {t : Tab α} (h : Tab.above m t) (hn : m < n) :
    Tab.above m (Tab.insert n v t) := by
  induction t with
  | nil => intro x hx; simp [Tab.insert] at hx; subst hx; exact hn
  | cons e t ih =>
    obtain ⟨k, w⟩ := e
    have ht : Tab.above m t := fun x hx => h x (by simp [hx])
    simp only [Tab.insert]
    split_ifs
    · intro x hx
      rcases List.mem_cons.1 hx with rfl | hx
      · exact hn
      · exact h x hx
    · intro x hx
      rcases List.mem_cons.1 hx with rfl | hx
      · exact hn
      · exact ht x hx
    · intro x hx
      rcases List.mem_cons.1 hx with rfl | hx
      · exact h (k, w) (by simp)
      · exact ih ht x hx

theorem Tab.sorted_erase {n : Nat} {t : Tab α} (h : Tab.sorted t = true) : Tab.sorted (Tab.erase n t) = true := by
  induction t with
  | nil => rfl
  | cons e t ih =>
    obtain ⟨k, w⟩ := e
    have h' := Tab.sorted_cons.1 h
    simp only [Tab.erase]
    split_ifs
    · exact h'.2
    · exact h
    · exact Tab.sorted_cons.2 ⟨Tab.above_erase h'.1, ih h'.2⟩

theorem Tab.sorted_insert {n : Nat} {v : α} {t : Tab α} (h : Tab.sorted t = true) :
    Tab.sorted (Tab.insert n v t) = true := by
  induction t with
  | nil => rfl
  | cons e t ih =>
    obtain ⟨k, w⟩ := e
    have h' := Tab.sorted_cons.1 h
    simp only [Tab.insert]
    split_ifs with h1 h2
    · refine Tab.sorted_cons.2 ⟨?_, h⟩
      intro x hx
      rcases List.mem_cons.1 hx with rfl | hx
      · exact h1
      · exact lt_trans h1 (h'.1 x hx)
    · subst h2; exact Tab.sorted_cons.2 ⟨h'.1, h'.2⟩
    · exact Tab.sorted_cons.2 ⟨Tab.above_insert h'.1 (by omega), ih h'.2⟩

theorem Tab.get_erase_self {d : α} {n : Nat} {t : Tab α} (h : Tab.sorted t = true) :
    Tab.get d (Tab.erase n t) n = d := by
  induction t with
  | nil => rfl
  | cons e t ih =>
    obtain ⟨k, w⟩ := e
    have h' := Tab.sorted_cons.1 h
    simp only [Tab.erase]
    split_ifs with h1 h2
    · subst h1; exact Tab.get_above h'.1
    · simp [Tab.get, h1, h2]
    · simp [Tab.get, h1, h2, ih h'.2]

theorem Tab.get_erase_ne {d : α} {n m : Nat} {t : Tab α} (h : Tab.sorted t = true) (hm : m ≠ n) :
    Tab.get d (Tab.erase n t) m = Tab.get d t m := by
  induction t with
  | nil => rfl
  | cons e t ih =>
    obtain ⟨k, w⟩ := e
    have h' := Tab.sorted_cons.1 h
    simp only [Tab.erase]
    split_ifs with h1 h2
    · subst h1
      by_cases hl : m < n
      · have : Tab.above m t := fun x hx => lt_trans hl (h'.1 x hx)
        simp [Tab.get, hm, hl, Tab.get_above this]
      · simp [Tab.get, hm, hl]
    · rfl
    · simp [Tab.get, ih h'.2]

theorem Tab.mem_erase {n : Nat} {t : Tab α} {x : Nat × α} (h : x ∈ Tab.erase n t) : x ∈ t := by
  induction t with
  | nil => exact h
  | cons e t ih =>
    obtain ⟨k, w⟩ := e
    simp only [Tab.erase] at h
    split_ifs at h
    · exact List.mem_cons_of_mem _ h
    · exact h
    · rcases List.mem_cons.1 h with rfl | h
      · simp
      · exact List.mem_cons_of_mem _ (ih h)

theorem Tab.mem_insert {n : Nat} {v : α} {t : Tab α} {x : Nat × α} (h : x ∈ Tab.insert n v t) :
    x = (n, v) ∨ x ∈ t := by
  induction t with
  | nil => simp [Tab.insert] at h; exact .inl h
  | cons e t ih =>
    obtain ⟨k, w⟩ := e
    simp only [Tab.insert] at h
    split_ifs at h
    · rcases List.mem_cons.1 h with h | h
      · exact .inl h
      · exact .inr h
    · rcases List.mem_cons.1 h with h | h
      · exact .inl h
      · exact .inr (List.mem_cons_of_mem _ h)
    · rcases List.mem_cons.1 h with rfl | h
      · exact .inr (by simp)
      · exact (ih h).imp id (List.mem_cons_of_mem _)

theorem Tab.sorted_filter {p : Nat × α → Bool} {t : Tab α} (h : Tab.sorted t = true) :
    Tab.sorted (t.filter p) = true := by
  induction t with
  | nil => rfl
  | cons e t ih =>
    obtain ⟨k, w⟩ := e
    have h' := Tab.sorted_cons.1 h
    simp only [List.filter_cons]
    split_ifs
    · exact Tab.sorted_cons.2 ⟨fun x hx => h'.1 x (List.mem_filter.1 hx).1, ih h'.2⟩
    · exact ih h'.2

section put
variable [DecidableEq α]

/-- A number reads what was put there. -/
theorem Tab.get_put_self {d v : α} {n : Nat} {t : Tab α} (h : Tab.sorted t = true) :
    Tab.get d (Tab.put d n v t) n = v := by
  unfold Tab.put; split_ifs with hv
  · rw [Tab.get_erase_self h, hv]
  · exact Tab.get_insert_self t

/-- Every other number keeps its value. -/
theorem Tab.get_put_ne {d e v : α} {n m : Nat} {t : Tab α} (h : Tab.sorted t = true) (hm : m ≠ n) :
    Tab.get e (Tab.put d n v t) m = Tab.get e t m := by
  unfold Tab.put; split_ifs
  · exact Tab.get_erase_ne h hm
  · exact Tab.get_insert_ne hm t

theorem Tab.sorted_put {d v : α} {n : Nat} {t : Tab α} (h : Tab.sorted t = true) :
    Tab.sorted (Tab.put d n v t) = true := by
  unfold Tab.put; split_ifs
  · exact Tab.sorted_erase h
  · exact Tab.sorted_insert h

theorem Tab.wf_iff {d : Nat → α} {t : Tab α} :
    Tab.wf d t = true ↔ Tab.sorted t = true ∧ ∀ e ∈ t, e.2 ≠ d e.1 := by
  simp [Tab.wf]

/-- Putting a value keeps the canonical form. -/
theorem Tab.wf_put {d : Nat → α} {v : α} {n : Nat} {t : Tab α} (h : Tab.wf d t = true) :
    Tab.wf d (Tab.put (d n) n v t) = true := by
  rw [Tab.wf_iff] at h ⊢
  refine ⟨Tab.sorted_put h.1, ?_⟩
  unfold Tab.put; split_ifs with hv
  · exact fun e he => h.2 e (Tab.mem_erase he)
  · intro e he
    rcases Tab.mem_insert he with rfl | he
    · exact hv
    · exact h.2 e he

/-- Removing entries keeps the canonical form. -/
theorem Tab.wf_filter {d : Nat → α} {p : Nat × α → Bool} {t : Tab α} (h : Tab.wf d t = true) :
    Tab.wf d (t.filter p) = true := by
  rw [Tab.wf_iff] at h ⊢
  exact ⟨Tab.sorted_filter h.1, fun e he => h.2 e (List.mem_filter.1 he).1⟩

theorem Tab.wf_clearIf {d : Nat → α} {p : Nat → Bool} {t : Tab α} (h : Tab.wf d t = true) :
    Tab.wf d (Tab.clearIf p t) = true := Tab.wf_filter h

end put

/-! ### Memories -/

theorem Memory.wf_put {m : List (Nat × Byte)} {a : Nat} {b : Byte} (h : Memory.wf m = true) :
    Memory.wf (Tab.put 0 a b m) = true := Tab.wf_put (d := fun _ => (0 : Byte)) h

theorem Memory.wf_write {m : List (Nat × Byte)} {a : Nat} {bs : List Byte} (h : Memory.wf m = true) :
    Memory.wf (Memory.write m a bs) = true := by
  induction bs generalizing m a with
  | nil => exact h
  | cons b bs ih => exact ih (Memory.wf_put h)

theorem Memory.wf_zero {m : List (Nat × Byte)} {a n : Nat} (h : Memory.wf m = true) :
    Memory.wf (Memory.zero m a n) = true := Tab.wf_filter h

theorem Memory.wf_nil : Memory.wf [] = true := rfl

end Sys2Proof.Machine
end

