-- ==== Sys2Proof/Laws/State.lean ====
section
/-! SUPPORT. The field lemmas of the updates of State: one per field per update, so that no proof unfolds a record. -/

namespace Sys2Proof.Machine

variable (s : State)

/-! ### setCore -/

@[simp] theorem State.setCore_pending (p : Nat) (c : Core) : (s.setCore p c).pending = s.pending := rfl
@[simp] theorem State.setCore_readData (p : Nat) (c : Core) : (s.setCore p c).readData = s.readData := rfl
@[simp] theorem State.setCore_readBytes (p : Nat) (c : Core) : (s.setCore p c).readBytes = s.readBytes := rfl
@[simp] theorem State.setCore_freeN (p : Nat) (c : Core) : (s.setCore p c).freeN = s.freeN := rfl
@[simp] theorem State.setCore_nextTok (p : Nat) (c : Core) : (s.setCore p c).nextTok = s.nextTok := rfl
@[simp] theorem State.setCore_net (p : Nat) (c : Core) : (s.setCore p c).net = s.net := rfl
@[simp] theorem State.setCore_cores (p : Nat) (c : Core) : (s.setCore p c).cores = Tab.put {} p c s.cores := rfl
@[simp] theorem State.setCore_fields (p : Nat) (c : Core) : (s.setCore p c).fields = s.fields := rfl
@[simp] theorem State.setCore_regions (p : Nat) (c : Core) : (s.setCore p c).regions = s.regions := rfl
@[simp] theorem State.setCore_fence (p : Nat) (c : Core) : (s.setCore p c).fence = s.fence := rfl
@[simp] theorem State.setCore_sem (p : Nat) (c : Core) : (s.setCore p c).sem = s.sem := rfl
@[simp] theorem State.setCore_semWaiters (p : Nat) (c : Core) : (s.setCore p c).semWaiters = s.semWaiters := rfl
@[simp] theorem State.setCore_feWaiters (p : Nat) (c : Core) : (s.setCore p c).feWaiters = s.feWaiters := rfl
@[simp] theorem State.setCore_tags (p : Nat) (c : Core) : (s.setCore p c).tags = s.tags := rfl
@[simp] theorem State.setCore_pan (p : Nat) (c : Core) : (s.setCore p c).pan = s.pan := rfl
@[simp] theorem State.setCore_panUe (p : Nat) (c : Core) : (s.setCore p c).panUe = s.panUe := rfl
@[simp] theorem State.setCore_panCtl (p : Nat) (c : Core) : (s.setCore p c).panCtl = s.panCtl := rfl
@[simp] theorem State.setCore_gran (p : Nat) (c : Core) : (s.setCore p c).gran = s.gran := rfl
@[simp] theorem State.setCore_granUe (p : Nat) (c : Core) : (s.setCore p c).granUe = s.granUe := rfl
@[simp] theorem State.setCore_granCtl (p : Nat) (c : Core) : (s.setCore p c).granCtl = s.granCtl := rfl
@[simp] theorem State.setCore_zen (p : Nat) (c : Core) : (s.setCore p c).zen = s.zen := rfl
@[simp] theorem State.setCore_nvs (p : Nat) (c : Core) : (s.setCore p c).nvs = s.nvs := rfl
@[simp] theorem State.setCore_thr (p : Nat) (c : Core) : (s.setCore p c).thr = s.thr := rfl
@[simp] theorem State.setCore_cat (p : Nat) (c : Core) : (s.setCore p c).cat = s.cat := rfl
@[simp] theorem State.setCore_train (p : Nat) (c : Core) : (s.setCore p c).train = s.train := rfl
@[simp] theorem State.setCore_upd (p : Nat) (c : Core) : (s.setCore p c).upd = s.upd := rfl
@[simp] theorem State.setCore_jobs (p : Nat) (c : Core) : (s.setCore p c).jobs = s.jobs := rfl
@[simp] theorem State.setCore_insts (p : Nat) (c : Core) : (s.setCore p c).insts = s.insts := rfl
@[simp] theorem State.setCore_ports (p : Nat) (c : Core) : (s.setCore p c).ports = s.ports := rfl
@[simp] theorem State.setCore_fetches (p : Nat) (c : Core) : (s.setCore p c).fetches = s.fetches := rfl
@[simp] theorem State.setCore_nextFetch (p : Nat) (c : Core) : (s.setCore p c).nextFetch = s.nextFetch := rfl
@[simp] theorem State.setCore_links (p : Nat) (c : Core) : (s.setCore p c).links = s.links := rfl
@[simp] theorem State.setCore_mgt (p : Nat) (c : Core) : (s.setCore p c).mgt = s.mgt := rfl
@[simp] theorem State.setCore_tb (p : Nat) (c : Core) : (s.setCore p c).tb = s.tb := rfl
@[simp] theorem State.setCore_adm (p : Nat) (c : Core) : (s.setCore p c).adm = s.adm := rfl
@[simp] theorem State.setCore_sec (p : Nat) (c : Core) : (s.setCore p c).sec = s.sec := rfl
@[simp] theorem State.setCore_obs (p : Nat) (c : Core) : (s.setCore p c).obs = s.obs := rfl
@[simp] theorem State.setCore_halves (p : Nat) (c : Core) : (s.setCore p c).halves = s.halves := rfl

/-! ### updCore -/

@[simp] theorem State.updCore_pending (p : Nat) (f : Core → Core) : (s.updCore p f).pending = s.pending := rfl
@[simp] theorem State.updCore_readData (p : Nat) (f : Core → Core) : (s.updCore p f).readData = s.readData := rfl
@[simp] theorem State.updCore_readBytes (p : Nat) (f : Core → Core) : (s.updCore p f).readBytes = s.readBytes := rfl
@[simp] theorem State.updCore_freeN (p : Nat) (f : Core → Core) : (s.updCore p f).freeN = s.freeN := rfl
@[simp] theorem State.updCore_nextTok (p : Nat) (f : Core → Core) : (s.updCore p f).nextTok = s.nextTok := rfl
@[simp] theorem State.updCore_net (p : Nat) (f : Core → Core) : (s.updCore p f).net = s.net := rfl
@[simp] theorem State.updCore_cores (p : Nat) (f : Core → Core) :
    (s.updCore p f).cores = Tab.put {} p (f (s.core p)) s.cores := rfl
@[simp] theorem State.updCore_fields (p : Nat) (f : Core → Core) : (s.updCore p f).fields = s.fields := rfl
@[simp] theorem State.updCore_regions (p : Nat) (f : Core → Core) : (s.updCore p f).regions = s.regions := rfl
@[simp] theorem State.updCore_fence (p : Nat) (f : Core → Core) : (s.updCore p f).fence = s.fence := rfl
@[simp] theorem State.updCore_sem (p : Nat) (f : Core → Core) : (s.updCore p f).sem = s.sem := rfl
@[simp] theorem State.updCore_semWaiters (p : Nat) (f : Core → Core) :
    (s.updCore p f).semWaiters = s.semWaiters := rfl
@[simp] theorem State.updCore_feWaiters (p : Nat) (f : Core → Core) : (s.updCore p f).feWaiters = s.feWaiters := rfl
@[simp] theorem State.updCore_tags (p : Nat) (f : Core → Core) : (s.updCore p f).tags = s.tags := rfl
@[simp] theorem State.updCore_pan (p : Nat) (f : Core → Core) : (s.updCore p f).pan = s.pan := rfl
@[simp] theorem State.updCore_panUe (p : Nat) (f : Core → Core) : (s.updCore p f).panUe = s.panUe := rfl
@[simp] theorem State.updCore_panCtl (p : Nat) (f : Core → Core) : (s.updCore p f).panCtl = s.panCtl := rfl
@[simp] theorem State.updCore_gran (p : Nat) (f : Core → Core) : (s.updCore p f).gran = s.gran := rfl
@[simp] theorem State.updCore_granUe (p : Nat) (f : Core → Core) : (s.updCore p f).granUe = s.granUe := rfl
@[simp] theorem State.updCore_granCtl (p : Nat) (f : Core → Core) : (s.updCore p f).granCtl = s.granCtl := rfl
@[simp] theorem State.updCore_zen (p : Nat) (f : Core → Core) : (s.updCore p f).zen = s.zen := rfl
@[simp] theorem State.updCore_nvs (p : Nat) (f : Core → Core) : (s.updCore p f).nvs = s.nvs := rfl
@[simp] theorem State.updCore_thr (p : Nat) (f : Core → Core) : (s.updCore p f).thr = s.thr := rfl
@[simp] theorem State.updCore_cat (p : Nat) (f : Core → Core) : (s.updCore p f).cat = s.cat := rfl
@[simp] theorem State.updCore_train (p : Nat) (f : Core → Core) : (s.updCore p f).train = s.train := rfl
@[simp] theorem State.updCore_upd (p : Nat) (f : Core → Core) : (s.updCore p f).upd = s.upd := rfl
@[simp] theorem State.updCore_jobs (p : Nat) (f : Core → Core) : (s.updCore p f).jobs = s.jobs := rfl
@[simp] theorem State.updCore_insts (p : Nat) (f : Core → Core) : (s.updCore p f).insts = s.insts := rfl
@[simp] theorem State.updCore_ports (p : Nat) (f : Core → Core) : (s.updCore p f).ports = s.ports := rfl
@[simp] theorem State.updCore_fetches (p : Nat) (f : Core → Core) : (s.updCore p f).fetches = s.fetches := rfl
@[simp] theorem State.updCore_nextFetch (p : Nat) (f : Core → Core) : (s.updCore p f).nextFetch = s.nextFetch := rfl
@[simp] theorem State.updCore_links (p : Nat) (f : Core → Core) : (s.updCore p f).links = s.links := rfl
@[simp] theorem State.updCore_mgt (p : Nat) (f : Core → Core) : (s.updCore p f).mgt = s.mgt := rfl
@[simp] theorem State.updCore_tb (p : Nat) (f : Core → Core) : (s.updCore p f).tb = s.tb := rfl
@[simp] theorem State.updCore_adm (p : Nat) (f : Core → Core) : (s.updCore p f).adm = s.adm := rfl
@[simp] theorem State.updCore_sec (p : Nat) (f : Core → Core) : (s.updCore p f).sec = s.sec := rfl
@[simp] theorem State.updCore_obs (p : Nat) (f : Core → Core) : (s.updCore p f).obs = s.obs := rfl
@[simp] theorem State.updCore_halves (p : Nat) (f : Core → Core) : (s.updCore p f).halves = s.halves := rfl

/-! ### updField -/

@[simp] theorem State.updField_pending (n : Nat) (g : Field → Field) : (s.updField n g).pending = s.pending := rfl
@[simp] theorem State.updField_readData (n : Nat) (g : Field → Field) : (s.updField n g).readData = s.readData := rfl
@[simp] theorem State.updField_readBytes (n : Nat) (g : Field → Field) :
    (s.updField n g).readBytes = s.readBytes := rfl
@[simp] theorem State.updField_freeN (n : Nat) (g : Field → Field) : (s.updField n g).freeN = s.freeN := rfl
@[simp] theorem State.updField_nextTok (n : Nat) (g : Field → Field) : (s.updField n g).nextTok = s.nextTok := rfl
@[simp] theorem State.updField_net (n : Nat) (g : Field → Field) : (s.updField n g).net = s.net := rfl
@[simp] theorem State.updField_cores (n : Nat) (g : Field → Field) : (s.updField n g).cores = s.cores := rfl
@[simp] theorem State.updField_fields (n : Nat) (g : Field → Field) :
    (s.updField n g).fields = Tab.upd {} n g s.fields := rfl
@[simp] theorem State.updField_regions (n : Nat) (g : Field → Field) : (s.updField n g).regions = s.regions := rfl
@[simp] theorem State.updField_fence (n : Nat) (g : Field → Field) : (s.updField n g).fence = s.fence := rfl
@[simp] theorem State.updField_sem (n : Nat) (g : Field → Field) : (s.updField n g).sem = s.sem := rfl
@[simp] theorem State.updField_semWaiters (n : Nat) (g : Field → Field) :
    (s.updField n g).semWaiters = s.semWaiters := rfl
@[simp] theorem State.updField_feWaiters (n : Nat) (g : Field → Field) :
    (s.updField n g).feWaiters = s.feWaiters := rfl
@[simp] theorem State.updField_tags (n : Nat) (g : Field → Field) : (s.updField n g).tags = s.tags := rfl
@[simp] theorem State.updField_pan (n : Nat) (g : Field → Field) : (s.updField n g).pan = s.pan := rfl
@[simp] theorem State.updField_panUe (n : Nat) (g : Field → Field) : (s.updField n g).panUe = s.panUe := rfl
@[simp] theorem State.updField_panCtl (n : Nat) (g : Field → Field) : (s.updField n g).panCtl = s.panCtl := rfl
@[simp] theorem State.updField_gran (n : Nat) (g : Field → Field) : (s.updField n g).gran = s.gran := rfl
@[simp] theorem State.updField_granUe (n : Nat) (g : Field → Field) : (s.updField n g).granUe = s.granUe := rfl
@[simp] theorem State.updField_granCtl (n : Nat) (g : Field → Field) : (s.updField n g).granCtl = s.granCtl := rfl
@[simp] theorem State.updField_zen (n : Nat) (g : Field → Field) : (s.updField n g).zen = s.zen := rfl
@[simp] theorem State.updField_nvs (n : Nat) (g : Field → Field) : (s.updField n g).nvs = s.nvs := rfl
@[simp] theorem State.updField_thr (n : Nat) (g : Field → Field) : (s.updField n g).thr = s.thr := rfl
@[simp] theorem State.updField_cat (n : Nat) (g : Field → Field) : (s.updField n g).cat = s.cat := rfl
@[simp] theorem State.updField_train (n : Nat) (g : Field → Field) : (s.updField n g).train = s.train := rfl
@[simp] theorem State.updField_upd (n : Nat) (g : Field → Field) : (s.updField n g).upd = s.upd := rfl
@[simp] theorem State.updField_jobs (n : Nat) (g : Field → Field) : (s.updField n g).jobs = s.jobs := rfl
@[simp] theorem State.updField_insts (n : Nat) (g : Field → Field) : (s.updField n g).insts = s.insts := rfl
@[simp] theorem State.updField_ports (n : Nat) (g : Field → Field) : (s.updField n g).ports = s.ports := rfl
@[simp] theorem State.updField_fetches (n : Nat) (g : Field → Field) : (s.updField n g).fetches = s.fetches := rfl
@[simp] theorem State.updField_nextFetch (n : Nat) (g : Field → Field) :
    (s.updField n g).nextFetch = s.nextFetch := rfl
@[simp] theorem State.updField_links (n : Nat) (g : Field → Field) : (s.updField n g).links = s.links := rfl
@[simp] theorem State.updField_mgt (n : Nat) (g : Field → Field) : (s.updField n g).mgt = s.mgt := rfl
@[simp] theorem State.updField_tb (n : Nat) (g : Field → Field) : (s.updField n g).tb = s.tb := rfl
@[simp] theorem State.updField_adm (n : Nat) (g : Field → Field) : (s.updField n g).adm = s.adm := rfl
@[simp] theorem State.updField_sec (n : Nat) (g : Field → Field) : (s.updField n g).sec = s.sec := rfl
@[simp] theorem State.updField_obs (n : Nat) (g : Field → Field) : (s.updField n g).obs = s.obs := rfl
@[simp] theorem State.updField_halves (n : Nat) (g : Field → Field) : (s.updField n g).halves = s.halves := rfl

/-! ### updRegion -/

@[simp] theorem State.updRegion_pending (n : Nat) (g : Region → Region) : (s.updRegion n g).pending = s.pending := rfl
@[simp] theorem State.updRegion_readData (n : Nat) (g : Region → Region) :
    (s.updRegion n g).readData = s.readData := rfl
@[simp] theorem State.updRegion_readBytes (n : Nat) (g : Region → Region) :
    (s.updRegion n g).readBytes = s.readBytes := rfl
@[simp] theorem State.updRegion_freeN (n : Nat) (g : Region → Region) : (s.updRegion n g).freeN = s.freeN := rfl
@[simp] theorem State.updRegion_nextTok (n : Nat) (g : Region → Region) : (s.updRegion n g).nextTok = s.nextTok := rfl
@[simp] theorem State.updRegion_net (n : Nat) (g : Region → Region) : (s.updRegion n g).net = s.net := rfl
@[simp] theorem State.updRegion_cores (n : Nat) (g : Region → Region) : (s.updRegion n g).cores = s.cores := rfl
@[simp] theorem State.updRegion_fields (n : Nat) (g : Region → Region) : (s.updRegion n g).fields = s.fields := rfl
@[simp] theorem State.updRegion_regions (n : Nat) (g : Region → Region) :
    (s.updRegion n g).regions = Tab.upd {} n g s.regions := rfl
@[simp] theorem State.updRegion_fence (n : Nat) (g : Region → Region) : (s.updRegion n g).fence = s.fence := rfl
@[simp] theorem State.updRegion_sem (n : Nat) (g : Region → Region) : (s.updRegion n g).sem = s.sem := rfl
@[simp] theorem State.updRegion_semWaiters (n : Nat) (g : Region → Region) :
    (s.updRegion n g).semWaiters = s.semWaiters := rfl
@[simp] theorem State.updRegion_feWaiters (n : Nat) (g : Region → Region) :
    (s.updRegion n g).feWaiters = s.feWaiters := rfl
@[simp] theorem State.updRegion_tags (n : Nat) (g : Region → Region) : (s.updRegion n g).tags = s.tags := rfl
@[simp] theorem State.updRegion_pan (n : Nat) (g : Region → Region) : (s.updRegion n g).pan = s.pan := rfl
@[simp] theorem State.updRegion_panUe (n : Nat) (g : Region → Region) : (s.updRegion n g).panUe = s.panUe := rfl
@[simp] theorem State.updRegion_panCtl (n : Nat) (g : Region → Region) : (s.updRegion n g).panCtl = s.panCtl := rfl
@[simp] theorem State.updRegion_gran (n : Nat) (g : Region → Region) : (s.updRegion n g).gran = s.gran := rfl
@[simp] theorem State.updRegion_granUe (n : Nat) (g : Region → Region) : (s.updRegion n g).granUe = s.granUe := rfl
@[simp] theorem State.updRegion_granCtl (n : Nat) (g : Region → Region) : (s.updRegion n g).granCtl = s.granCtl := rfl
@[simp] theorem State.updRegion_zen (n : Nat) (g : Region → Region) : (s.updRegion n g).zen = s.zen := rfl
@[simp] theorem State.updRegion_nvs (n : Nat) (g : Region → Region) : (s.updRegion n g).nvs = s.nvs := rfl
@[simp] theorem State.updRegion_thr (n : Nat) (g : Region → Region) : (s.updRegion n g).thr = s.thr := rfl
@[simp] theorem State.updRegion_cat (n : Nat) (g : Region → Region) : (s.updRegion n g).cat = s.cat := rfl
@[simp] theorem State.updRegion_train (n : Nat) (g : Region → Region) : (s.updRegion n g).train = s.train := rfl
@[simp] theorem State.updRegion_upd (n : Nat) (g : Region → Region) : (s.updRegion n g).upd = s.upd := rfl
@[simp] theorem State.updRegion_jobs (n : Nat) (g : Region → Region) : (s.updRegion n g).jobs = s.jobs := rfl
@[simp] theorem State.updRegion_insts (n : Nat) (g : Region → Region) : (s.updRegion n g).insts = s.insts := rfl
@[simp] theorem State.updRegion_ports (n : Nat) (g : Region → Region) : (s.updRegion n g).ports = s.ports := rfl
@[simp] theorem State.updRegion_fetches (n : Nat) (g : Region → Region) : (s.updRegion n g).fetches = s.fetches := rfl
@[simp] theorem State.updRegion_nextFetch (n : Nat) (g : Region → Region) :
    (s.updRegion n g).nextFetch = s.nextFetch := rfl
@[simp] theorem State.updRegion_links (n : Nat) (g : Region → Region) : (s.updRegion n g).links = s.links := rfl
@[simp] theorem State.updRegion_mgt (n : Nat) (g : Region → Region) : (s.updRegion n g).mgt = s.mgt := rfl
@[simp] theorem State.updRegion_tb (n : Nat) (g : Region → Region) : (s.updRegion n g).tb = s.tb := rfl
@[simp] theorem State.updRegion_adm (n : Nat) (g : Region → Region) : (s.updRegion n g).adm = s.adm := rfl
@[simp] theorem State.updRegion_sec (n : Nat) (g : Region → Region) : (s.updRegion n g).sec = s.sec := rfl
@[simp] theorem State.updRegion_obs (n : Nat) (g : Region → Region) : (s.updRegion n g).obs = s.obs := rfl
@[simp] theorem State.updRegion_halves (n : Nat) (g : Region → Region) : (s.updRegion n g).halves = s.halves := rfl

/-! ### updPan -/

@[simp] theorem State.updPan_pending (n : Nat) (g : MemCtl → MemCtl) : (s.updPan n g).pending = s.pending := rfl
@[simp] theorem State.updPan_readData (n : Nat) (g : MemCtl → MemCtl) : (s.updPan n g).readData = s.readData := rfl
@[simp] theorem State.updPan_readBytes (n : Nat) (g : MemCtl → MemCtl) : (s.updPan n g).readBytes = s.readBytes := rfl
@[simp] theorem State.updPan_freeN (n : Nat) (g : MemCtl → MemCtl) : (s.updPan n g).freeN = s.freeN := rfl
@[simp] theorem State.updPan_nextTok (n : Nat) (g : MemCtl → MemCtl) : (s.updPan n g).nextTok = s.nextTok := rfl
@[simp] theorem State.updPan_net (n : Nat) (g : MemCtl → MemCtl) : (s.updPan n g).net = s.net := rfl
@[simp] theorem State.updPan_cores (n : Nat) (g : MemCtl → MemCtl) : (s.updPan n g).cores = s.cores := rfl
@[simp] theorem State.updPan_fields (n : Nat) (g : MemCtl → MemCtl) : (s.updPan n g).fields = s.fields := rfl
@[simp] theorem State.updPan_regions (n : Nat) (g : MemCtl → MemCtl) : (s.updPan n g).regions = s.regions := rfl
@[simp] theorem State.updPan_fence (n : Nat) (g : MemCtl → MemCtl) : (s.updPan n g).fence = s.fence := rfl
@[simp] theorem State.updPan_sem (n : Nat) (g : MemCtl → MemCtl) : (s.updPan n g).sem = s.sem := rfl
@[simp] theorem State.updPan_semWaiters (n : Nat) (g : MemCtl → MemCtl) :
    (s.updPan n g).semWaiters = s.semWaiters := rfl
@[simp] theorem State.updPan_feWaiters (n : Nat) (g : MemCtl → MemCtl) : (s.updPan n g).feWaiters = s.feWaiters := rfl
@[simp] theorem State.updPan_tags (n : Nat) (g : MemCtl → MemCtl) : (s.updPan n g).tags = s.tags := rfl
@[simp] theorem State.updPan_pan (n : Nat) (g : MemCtl → MemCtl) : (s.updPan n g).pan = s.pan := rfl
@[simp] theorem State.updPan_panUe (n : Nat) (g : MemCtl → MemCtl) : (s.updPan n g).panUe = s.panUe := rfl
@[simp] theorem State.updPan_panCtl (n : Nat) (g : MemCtl → MemCtl) :
    (s.updPan n g).panCtl = Tab.upd {} n g s.panCtl := rfl
@[simp] theorem State.updPan_gran (n : Nat) (g : MemCtl → MemCtl) : (s.updPan n g).gran = s.gran := rfl
@[simp] theorem State.updPan_granUe (n : Nat) (g : MemCtl → MemCtl) : (s.updPan n g).granUe = s.granUe := rfl
@[simp] theorem State.updPan_granCtl (n : Nat) (g : MemCtl → MemCtl) : (s.updPan n g).granCtl = s.granCtl := rfl
@[simp] theorem State.updPan_zen (n : Nat) (g : MemCtl → MemCtl) : (s.updPan n g).zen = s.zen := rfl
@[simp] theorem State.updPan_nvs (n : Nat) (g : MemCtl → MemCtl) : (s.updPan n g).nvs = s.nvs := rfl
@[simp] theorem State.updPan_thr (n : Nat) (g : MemCtl → MemCtl) : (s.updPan n g).thr = s.thr := rfl
@[simp] theorem State.updPan_cat (n : Nat) (g : MemCtl → MemCtl) : (s.updPan n g).cat = s.cat := rfl
@[simp] theorem State.updPan_train (n : Nat) (g : MemCtl → MemCtl) : (s.updPan n g).train = s.train := rfl
@[simp] theorem State.updPan_upd (n : Nat) (g : MemCtl → MemCtl) : (s.updPan n g).upd = s.upd := rfl
@[simp] theorem State.updPan_jobs (n : Nat) (g : MemCtl → MemCtl) : (s.updPan n g).jobs = s.jobs := rfl
@[simp] theorem State.updPan_insts (n : Nat) (g : MemCtl → MemCtl) : (s.updPan n g).insts = s.insts := rfl
@[simp] theorem State.updPan_ports (n : Nat) (g : MemCtl → MemCtl) : (s.updPan n g).ports = s.ports := rfl
@[simp] theorem State.updPan_fetches (n : Nat) (g : MemCtl → MemCtl) : (s.updPan n g).fetches = s.fetches := rfl
@[simp] theorem State.updPan_nextFetch (n : Nat) (g : MemCtl → MemCtl) : (s.updPan n g).nextFetch = s.nextFetch := rfl
@[simp] theorem State.updPan_links (n : Nat) (g : MemCtl → MemCtl) : (s.updPan n g).links = s.links := rfl
@[simp] theorem State.updPan_mgt (n : Nat) (g : MemCtl → MemCtl) : (s.updPan n g).mgt = s.mgt := rfl
@[simp] theorem State.updPan_tb (n : Nat) (g : MemCtl → MemCtl) : (s.updPan n g).tb = s.tb := rfl
@[simp] theorem State.updPan_adm (n : Nat) (g : MemCtl → MemCtl) : (s.updPan n g).adm = s.adm := rfl
@[simp] theorem State.updPan_sec (n : Nat) (g : MemCtl → MemCtl) : (s.updPan n g).sec = s.sec := rfl
@[simp] theorem State.updPan_obs (n : Nat) (g : MemCtl → MemCtl) : (s.updPan n g).obs = s.obs := rfl
@[simp] theorem State.updPan_halves (n : Nat) (g : MemCtl → MemCtl) : (s.updPan n g).halves = s.halves := rfl

/-! ### updGran -/

@[simp] theorem State.updGran_pending (n : Nat) (g : MemCtl → MemCtl) : (s.updGran n g).pending = s.pending := rfl
@[simp] theorem State.updGran_readData (n : Nat) (g : MemCtl → MemCtl) : (s.updGran n g).readData = s.readData := rfl
@[simp] theorem State.updGran_readBytes (n : Nat) (g : MemCtl → MemCtl) :
    (s.updGran n g).readBytes = s.readBytes := rfl
@[simp] theorem State.updGran_freeN (n : Nat) (g : MemCtl → MemCtl) : (s.updGran n g).freeN = s.freeN := rfl
@[simp] theorem State.updGran_nextTok (n : Nat) (g : MemCtl → MemCtl) : (s.updGran n g).nextTok = s.nextTok := rfl
@[simp] theorem State.updGran_net (n : Nat) (g : MemCtl → MemCtl) : (s.updGran n g).net = s.net := rfl
@[simp] theorem State.updGran_cores (n : Nat) (g : MemCtl → MemCtl) : (s.updGran n g).cores = s.cores := rfl
@[simp] theorem State.updGran_fields (n : Nat) (g : MemCtl → MemCtl) : (s.updGran n g).fields = s.fields := rfl
@[simp] theorem State.updGran_regions (n : Nat) (g : MemCtl → MemCtl) : (s.updGran n g).regions = s.regions := rfl
@[simp] theorem State.updGran_fence (n : Nat) (g : MemCtl → MemCtl) : (s.updGran n g).fence = s.fence := rfl
@[simp] theorem State.updGran_sem (n : Nat) (g : MemCtl → MemCtl) : (s.updGran n g).sem = s.sem := rfl
@[simp] theorem State.updGran_semWaiters (n : Nat) (g : MemCtl → MemCtl) :
    (s.updGran n g).semWaiters = s.semWaiters := rfl
@[simp] theorem State.updGran_feWaiters (n : Nat) (g : MemCtl → MemCtl) :
    (s.updGran n g).feWaiters = s.feWaiters := rfl
@[simp] theorem State.updGran_tags (n : Nat) (g : MemCtl → MemCtl) : (s.updGran n g).tags = s.tags := rfl
@[simp] theorem State.updGran_pan (n : Nat) (g : MemCtl → MemCtl) : (s.updGran n g).pan = s.pan := rfl
@[simp] theorem State.updGran_panUe (n : Nat) (g : MemCtl → MemCtl) : (s.updGran n g).panUe = s.panUe := rfl
@[simp] theorem State.updGran_panCtl (n : Nat) (g : MemCtl → MemCtl) : (s.updGran n g).panCtl = s.panCtl := rfl
@[simp] theorem State.updGran_gran (n : Nat) (g : MemCtl → MemCtl) : (s.updGran n g).gran = s.gran := rfl
@[simp] theorem State.updGran_granUe (n : Nat) (g : MemCtl → MemCtl) : (s.updGran n g).granUe = s.granUe := rfl
@[simp] theorem State.updGran_granCtl (n : Nat) (g : MemCtl → MemCtl) :
    (s.updGran n g).granCtl = Tab.upd {} n g s.granCtl := rfl
@[simp] theorem State.updGran_zen (n : Nat) (g : MemCtl → MemCtl) : (s.updGran n g).zen = s.zen := rfl
@[simp] theorem State.updGran_nvs (n : Nat) (g : MemCtl → MemCtl) : (s.updGran n g).nvs = s.nvs := rfl
@[simp] theorem State.updGran_thr (n : Nat) (g : MemCtl → MemCtl) : (s.updGran n g).thr = s.thr := rfl
@[simp] theorem State.updGran_cat (n : Nat) (g : MemCtl → MemCtl) : (s.updGran n g).cat = s.cat := rfl
@[simp] theorem State.updGran_train (n : Nat) (g : MemCtl → MemCtl) : (s.updGran n g).train = s.train := rfl
@[simp] theorem State.updGran_upd (n : Nat) (g : MemCtl → MemCtl) : (s.updGran n g).upd = s.upd := rfl
@[simp] theorem State.updGran_jobs (n : Nat) (g : MemCtl → MemCtl) : (s.updGran n g).jobs = s.jobs := rfl
@[simp] theorem State.updGran_insts (n : Nat) (g : MemCtl → MemCtl) : (s.updGran n g).insts = s.insts := rfl
@[simp] theorem State.updGran_ports (n : Nat) (g : MemCtl → MemCtl) : (s.updGran n g).ports = s.ports := rfl
@[simp] theorem State.updGran_fetches (n : Nat) (g : MemCtl → MemCtl) : (s.updGran n g).fetches = s.fetches := rfl
@[simp] theorem State.updGran_nextFetch (n : Nat) (g : MemCtl → MemCtl) :
    (s.updGran n g).nextFetch = s.nextFetch := rfl
@[simp] theorem State.updGran_links (n : Nat) (g : MemCtl → MemCtl) : (s.updGran n g).links = s.links := rfl
@[simp] theorem State.updGran_mgt (n : Nat) (g : MemCtl → MemCtl) : (s.updGran n g).mgt = s.mgt := rfl
@[simp] theorem State.updGran_tb (n : Nat) (g : MemCtl → MemCtl) : (s.updGran n g).tb = s.tb := rfl
@[simp] theorem State.updGran_adm (n : Nat) (g : MemCtl → MemCtl) : (s.updGran n g).adm = s.adm := rfl
@[simp] theorem State.updGran_sec (n : Nat) (g : MemCtl → MemCtl) : (s.updGran n g).sec = s.sec := rfl
@[simp] theorem State.updGran_obs (n : Nat) (g : MemCtl → MemCtl) : (s.updGran n g).obs = s.obs := rfl
@[simp] theorem State.updGran_halves (n : Nat) (g : MemCtl → MemCtl) : (s.updGran n g).halves = s.halves := rfl

/-! ### updInst -/

@[simp] theorem State.updInst_pending (n : Nat) (g : Inst → Inst) : (s.updInst n g).pending = s.pending := rfl
@[simp] theorem State.updInst_readData (n : Nat) (g : Inst → Inst) : (s.updInst n g).readData = s.readData := rfl
@[simp] theorem State.updInst_readBytes (n : Nat) (g : Inst → Inst) : (s.updInst n g).readBytes = s.readBytes := rfl
@[simp] theorem State.updInst_freeN (n : Nat) (g : Inst → Inst) : (s.updInst n g).freeN = s.freeN := rfl
@[simp] theorem State.updInst_nextTok (n : Nat) (g : Inst → Inst) : (s.updInst n g).nextTok = s.nextTok := rfl
@[simp] theorem State.updInst_net (n : Nat) (g : Inst → Inst) : (s.updInst n g).net = s.net := rfl
@[simp] theorem State.updInst_cores (n : Nat) (g : Inst → Inst) : (s.updInst n g).cores = s.cores := rfl
@[simp] theorem State.updInst_fields (n : Nat) (g : Inst → Inst) : (s.updInst n g).fields = s.fields := rfl
@[simp] theorem State.updInst_regions (n : Nat) (g : Inst → Inst) : (s.updInst n g).regions = s.regions := rfl
@[simp] theorem State.updInst_fence (n : Nat) (g : Inst → Inst) : (s.updInst n g).fence = s.fence := rfl
@[simp] theorem State.updInst_sem (n : Nat) (g : Inst → Inst) : (s.updInst n g).sem = s.sem := rfl
@[simp] theorem State.updInst_semWaiters (n : Nat) (g : Inst → Inst) :
    (s.updInst n g).semWaiters = s.semWaiters := rfl
@[simp] theorem State.updInst_feWaiters (n : Nat) (g : Inst → Inst) : (s.updInst n g).feWaiters = s.feWaiters := rfl
@[simp] theorem State.updInst_tags (n : Nat) (g : Inst → Inst) : (s.updInst n g).tags = s.tags := rfl
@[simp] theorem State.updInst_pan (n : Nat) (g : Inst → Inst) : (s.updInst n g).pan = s.pan := rfl
@[simp] theorem State.updInst_panUe (n : Nat) (g : Inst → Inst) : (s.updInst n g).panUe = s.panUe := rfl
@[simp] theorem State.updInst_panCtl (n : Nat) (g : Inst → Inst) : (s.updInst n g).panCtl = s.panCtl := rfl
@[simp] theorem State.updInst_gran (n : Nat) (g : Inst → Inst) : (s.updInst n g).gran = s.gran := rfl
@[simp] theorem State.updInst_granUe (n : Nat) (g : Inst → Inst) : (s.updInst n g).granUe = s.granUe := rfl
@[simp] theorem State.updInst_granCtl (n : Nat) (g : Inst → Inst) : (s.updInst n g).granCtl = s.granCtl := rfl
@[simp] theorem State.updInst_zen (n : Nat) (g : Inst → Inst) : (s.updInst n g).zen = s.zen := rfl
@[simp] theorem State.updInst_nvs (n : Nat) (g : Inst → Inst) : (s.updInst n g).nvs = s.nvs := rfl
@[simp] theorem State.updInst_thr (n : Nat) (g : Inst → Inst) : (s.updInst n g).thr = s.thr := rfl
@[simp] theorem State.updInst_cat (n : Nat) (g : Inst → Inst) : (s.updInst n g).cat = s.cat := rfl
@[simp] theorem State.updInst_train (n : Nat) (g : Inst → Inst) : (s.updInst n g).train = s.train := rfl
@[simp] theorem State.updInst_upd (n : Nat) (g : Inst → Inst) : (s.updInst n g).upd = s.upd := rfl
@[simp] theorem State.updInst_jobs (n : Nat) (g : Inst → Inst) : (s.updInst n g).jobs = s.jobs := rfl
@[simp] theorem State.updInst_insts (n : Nat) (g : Inst → Inst) :
    (s.updInst n g).insts = Tab.upd {} n g s.insts := rfl
@[simp] theorem State.updInst_ports (n : Nat) (g : Inst → Inst) : (s.updInst n g).ports = s.ports := rfl
@[simp] theorem State.updInst_fetches (n : Nat) (g : Inst → Inst) : (s.updInst n g).fetches = s.fetches := rfl
@[simp] theorem State.updInst_nextFetch (n : Nat) (g : Inst → Inst) : (s.updInst n g).nextFetch = s.nextFetch := rfl
@[simp] theorem State.updInst_links (n : Nat) (g : Inst → Inst) : (s.updInst n g).links = s.links := rfl
@[simp] theorem State.updInst_mgt (n : Nat) (g : Inst → Inst) : (s.updInst n g).mgt = s.mgt := rfl
@[simp] theorem State.updInst_tb (n : Nat) (g : Inst → Inst) : (s.updInst n g).tb = s.tb := rfl
@[simp] theorem State.updInst_adm (n : Nat) (g : Inst → Inst) : (s.updInst n g).adm = s.adm := rfl
@[simp] theorem State.updInst_sec (n : Nat) (g : Inst → Inst) : (s.updInst n g).sec = s.sec := rfl
@[simp] theorem State.updInst_obs (n : Nat) (g : Inst → Inst) : (s.updInst n g).obs = s.obs := rfl
@[simp] theorem State.updInst_halves (n : Nat) (g : Inst → Inst) : (s.updInst n g).halves = s.halves := rfl

/-! ### updPort -/

@[simp] theorem State.updPort_pending (n : Nat) (g : Port → Port) : (s.updPort n g).pending = s.pending := rfl
@[simp] theorem State.updPort_readData (n : Nat) (g : Port → Port) : (s.updPort n g).readData = s.readData := rfl
@[simp] theorem State.updPort_readBytes (n : Nat) (g : Port → Port) : (s.updPort n g).readBytes = s.readBytes := rfl
@[simp] theorem State.updPort_freeN (n : Nat) (g : Port → Port) : (s.updPort n g).freeN = s.freeN := rfl
@[simp] theorem State.updPort_nextTok (n : Nat) (g : Port → Port) : (s.updPort n g).nextTok = s.nextTok := rfl
@[simp] theorem State.updPort_net (n : Nat) (g : Port → Port) : (s.updPort n g).net = s.net := rfl
@[simp] theorem State.updPort_cores (n : Nat) (g : Port → Port) : (s.updPort n g).cores = s.cores := rfl
@[simp] theorem State.updPort_fields (n : Nat) (g : Port → Port) : (s.updPort n g).fields = s.fields := rfl
@[simp] theorem State.updPort_regions (n : Nat) (g : Port → Port) : (s.updPort n g).regions = s.regions := rfl
@[simp] theorem State.updPort_fence (n : Nat) (g : Port → Port) : (s.updPort n g).fence = s.fence := rfl
@[simp] theorem State.updPort_sem (n : Nat) (g : Port → Port) : (s.updPort n g).sem = s.sem := rfl
@[simp] theorem State.updPort_semWaiters (n : Nat) (g : Port → Port) :
    (s.updPort n g).semWaiters = s.semWaiters := rfl
@[simp] theorem State.updPort_feWaiters (n : Nat) (g : Port → Port) : (s.updPort n g).feWaiters = s.feWaiters := rfl
@[simp] theorem State.updPort_tags (n : Nat) (g : Port → Port) : (s.updPort n g).tags = s.tags := rfl
@[simp] theorem State.updPort_pan (n : Nat) (g : Port → Port) : (s.updPort n g).pan = s.pan := rfl
@[simp] theorem State.updPort_panUe (n : Nat) (g : Port → Port) : (s.updPort n g).panUe = s.panUe := rfl
@[simp] theorem State.updPort_panCtl (n : Nat) (g : Port → Port) : (s.updPort n g).panCtl = s.panCtl := rfl
@[simp] theorem State.updPort_gran (n : Nat) (g : Port → Port) : (s.updPort n g).gran = s.gran := rfl
@[simp] theorem State.updPort_granUe (n : Nat) (g : Port → Port) : (s.updPort n g).granUe = s.granUe := rfl
@[simp] theorem State.updPort_granCtl (n : Nat) (g : Port → Port) : (s.updPort n g).granCtl = s.granCtl := rfl
@[simp] theorem State.updPort_zen (n : Nat) (g : Port → Port) : (s.updPort n g).zen = s.zen := rfl
@[simp] theorem State.updPort_nvs (n : Nat) (g : Port → Port) : (s.updPort n g).nvs = s.nvs := rfl
@[simp] theorem State.updPort_thr (n : Nat) (g : Port → Port) : (s.updPort n g).thr = s.thr := rfl
@[simp] theorem State.updPort_cat (n : Nat) (g : Port → Port) : (s.updPort n g).cat = s.cat := rfl
@[simp] theorem State.updPort_train (n : Nat) (g : Port → Port) : (s.updPort n g).train = s.train := rfl
@[simp] theorem State.updPort_upd (n : Nat) (g : Port → Port) : (s.updPort n g).upd = s.upd := rfl
@[simp] theorem State.updPort_jobs (n : Nat) (g : Port → Port) : (s.updPort n g).jobs = s.jobs := rfl
@[simp] theorem State.updPort_insts (n : Nat) (g : Port → Port) : (s.updPort n g).insts = s.insts := rfl
@[simp] theorem State.updPort_ports (n : Nat) (g : Port → Port) :
    (s.updPort n g).ports = Tab.upd {} n g s.ports := rfl
@[simp] theorem State.updPort_fetches (n : Nat) (g : Port → Port) : (s.updPort n g).fetches = s.fetches := rfl
@[simp] theorem State.updPort_nextFetch (n : Nat) (g : Port → Port) : (s.updPort n g).nextFetch = s.nextFetch := rfl
@[simp] theorem State.updPort_links (n : Nat) (g : Port → Port) : (s.updPort n g).links = s.links := rfl
@[simp] theorem State.updPort_mgt (n : Nat) (g : Port → Port) : (s.updPort n g).mgt = s.mgt := rfl
@[simp] theorem State.updPort_tb (n : Nat) (g : Port → Port) : (s.updPort n g).tb = s.tb := rfl
@[simp] theorem State.updPort_adm (n : Nat) (g : Port → Port) : (s.updPort n g).adm = s.adm := rfl
@[simp] theorem State.updPort_sec (n : Nat) (g : Port → Port) : (s.updPort n g).sec = s.sec := rfl
@[simp] theorem State.updPort_obs (n : Nat) (g : Port → Port) : (s.updPort n g).obs = s.obs := rfl
@[simp] theorem State.updPort_halves (n : Nat) (g : Port → Port) : (s.updPort n g).halves = s.halves := rfl

/-! ### updLink -/

@[simp] theorem State.updLink_pending (n : Nat) (g : Link → Link) : (s.updLink n g).pending = s.pending := rfl
@[simp] theorem State.updLink_readData (n : Nat) (g : Link → Link) : (s.updLink n g).readData = s.readData := rfl
@[simp] theorem State.updLink_readBytes (n : Nat) (g : Link → Link) : (s.updLink n g).readBytes = s.readBytes := rfl
@[simp] theorem State.updLink_freeN (n : Nat) (g : Link → Link) : (s.updLink n g).freeN = s.freeN := rfl
@[simp] theorem State.updLink_nextTok (n : Nat) (g : Link → Link) : (s.updLink n g).nextTok = s.nextTok := rfl
@[simp] theorem State.updLink_net (n : Nat) (g : Link → Link) : (s.updLink n g).net = s.net := rfl
@[simp] theorem State.updLink_cores (n : Nat) (g : Link → Link) : (s.updLink n g).cores = s.cores := rfl
@[simp] theorem State.updLink_fields (n : Nat) (g : Link → Link) : (s.updLink n g).fields = s.fields := rfl
@[simp] theorem State.updLink_regions (n : Nat) (g : Link → Link) : (s.updLink n g).regions = s.regions := rfl
@[simp] theorem State.updLink_fence (n : Nat) (g : Link → Link) : (s.updLink n g).fence = s.fence := rfl
@[simp] theorem State.updLink_sem (n : Nat) (g : Link → Link) : (s.updLink n g).sem = s.sem := rfl
@[simp] theorem State.updLink_semWaiters (n : Nat) (g : Link → Link) :
    (s.updLink n g).semWaiters = s.semWaiters := rfl
@[simp] theorem State.updLink_feWaiters (n : Nat) (g : Link → Link) : (s.updLink n g).feWaiters = s.feWaiters := rfl
@[simp] theorem State.updLink_tags (n : Nat) (g : Link → Link) : (s.updLink n g).tags = s.tags := rfl
@[simp] theorem State.updLink_pan (n : Nat) (g : Link → Link) : (s.updLink n g).pan = s.pan := rfl
@[simp] theorem State.updLink_panUe (n : Nat) (g : Link → Link) : (s.updLink n g).panUe = s.panUe := rfl
@[simp] theorem State.updLink_panCtl (n : Nat) (g : Link → Link) : (s.updLink n g).panCtl = s.panCtl := rfl
@[simp] theorem State.updLink_gran (n : Nat) (g : Link → Link) : (s.updLink n g).gran = s.gran := rfl
@[simp] theorem State.updLink_granUe (n : Nat) (g : Link → Link) : (s.updLink n g).granUe = s.granUe := rfl
@[simp] theorem State.updLink_granCtl (n : Nat) (g : Link → Link) : (s.updLink n g).granCtl = s.granCtl := rfl
@[simp] theorem State.updLink_zen (n : Nat) (g : Link → Link) : (s.updLink n g).zen = s.zen := rfl
@[simp] theorem State.updLink_nvs (n : Nat) (g : Link → Link) : (s.updLink n g).nvs = s.nvs := rfl
@[simp] theorem State.updLink_thr (n : Nat) (g : Link → Link) : (s.updLink n g).thr = s.thr := rfl
@[simp] theorem State.updLink_cat (n : Nat) (g : Link → Link) : (s.updLink n g).cat = s.cat := rfl
@[simp] theorem State.updLink_train (n : Nat) (g : Link → Link) : (s.updLink n g).train = s.train := rfl
@[simp] theorem State.updLink_upd (n : Nat) (g : Link → Link) : (s.updLink n g).upd = s.upd := rfl
@[simp] theorem State.updLink_jobs (n : Nat) (g : Link → Link) : (s.updLink n g).jobs = s.jobs := rfl
@[simp] theorem State.updLink_insts (n : Nat) (g : Link → Link) : (s.updLink n g).insts = s.insts := rfl
@[simp] theorem State.updLink_ports (n : Nat) (g : Link → Link) : (s.updLink n g).ports = s.ports := rfl
@[simp] theorem State.updLink_fetches (n : Nat) (g : Link → Link) : (s.updLink n g).fetches = s.fetches := rfl
@[simp] theorem State.updLink_nextFetch (n : Nat) (g : Link → Link) : (s.updLink n g).nextFetch = s.nextFetch := rfl
@[simp] theorem State.updLink_links (n : Nat) (g : Link → Link) :
    (s.updLink n g).links = Tab.upd {} n g s.links := rfl
@[simp] theorem State.updLink_mgt (n : Nat) (g : Link → Link) : (s.updLink n g).mgt = s.mgt := rfl
@[simp] theorem State.updLink_tb (n : Nat) (g : Link → Link) : (s.updLink n g).tb = s.tb := rfl
@[simp] theorem State.updLink_adm (n : Nat) (g : Link → Link) : (s.updLink n g).adm = s.adm := rfl
@[simp] theorem State.updLink_sec (n : Nat) (g : Link → Link) : (s.updLink n g).sec = s.sec := rfl
@[simp] theorem State.updLink_obs (n : Nat) (g : Link → Link) : (s.updLink n g).obs = s.obs := rfl
@[simp] theorem State.updLink_halves (n : Nat) (g : Link → Link) : (s.updLink n g).halves = s.halves := rfl

/-! ### updEntry -/

@[simp] theorem State.updEntry_pending (n : Nat) (g : Entry → Entry) : (s.updEntry n g).pending = s.pending := rfl
@[simp] theorem State.updEntry_readData (n : Nat) (g : Entry → Entry) : (s.updEntry n g).readData = s.readData := rfl
@[simp] theorem State.updEntry_readBytes (n : Nat) (g : Entry → Entry) :
    (s.updEntry n g).readBytes = s.readBytes := rfl
@[simp] theorem State.updEntry_freeN (n : Nat) (g : Entry → Entry) : (s.updEntry n g).freeN = s.freeN := rfl
@[simp] theorem State.updEntry_nextTok (n : Nat) (g : Entry → Entry) : (s.updEntry n g).nextTok = s.nextTok := rfl
@[simp] theorem State.updEntry_net (n : Nat) (g : Entry → Entry) : (s.updEntry n g).net = s.net := rfl
@[simp] theorem State.updEntry_cores (n : Nat) (g : Entry → Entry) : (s.updEntry n g).cores = s.cores := rfl
@[simp] theorem State.updEntry_fields (n : Nat) (g : Entry → Entry) : (s.updEntry n g).fields = s.fields := rfl
@[simp] theorem State.updEntry_regions (n : Nat) (g : Entry → Entry) : (s.updEntry n g).regions = s.regions := rfl
@[simp] theorem State.updEntry_fence (n : Nat) (g : Entry → Entry) : (s.updEntry n g).fence = s.fence := rfl
@[simp] theorem State.updEntry_sem (n : Nat) (g : Entry → Entry) : (s.updEntry n g).sem = s.sem := rfl
@[simp] theorem State.updEntry_semWaiters (n : Nat) (g : Entry → Entry) :
    (s.updEntry n g).semWaiters = s.semWaiters := rfl
@[simp] theorem State.updEntry_feWaiters (n : Nat) (g : Entry → Entry) :
    (s.updEntry n g).feWaiters = s.feWaiters := rfl
@[simp] theorem State.updEntry_tags (n : Nat) (g : Entry → Entry) : (s.updEntry n g).tags = s.tags := rfl
@[simp] theorem State.updEntry_pan (n : Nat) (g : Entry → Entry) : (s.updEntry n g).pan = s.pan := rfl
@[simp] theorem State.updEntry_panUe (n : Nat) (g : Entry → Entry) : (s.updEntry n g).panUe = s.panUe := rfl
@[simp] theorem State.updEntry_panCtl (n : Nat) (g : Entry → Entry) : (s.updEntry n g).panCtl = s.panCtl := rfl
@[simp] theorem State.updEntry_gran (n : Nat) (g : Entry → Entry) : (s.updEntry n g).gran = s.gran := rfl
@[simp] theorem State.updEntry_granUe (n : Nat) (g : Entry → Entry) : (s.updEntry n g).granUe = s.granUe := rfl
@[simp] theorem State.updEntry_granCtl (n : Nat) (g : Entry → Entry) : (s.updEntry n g).granCtl = s.granCtl := rfl
@[simp] theorem State.updEntry_zen (n : Nat) (g : Entry → Entry) : (s.updEntry n g).zen = s.zen := rfl
@[simp] theorem State.updEntry_nvs (n : Nat) (g : Entry → Entry) : (s.updEntry n g).nvs = s.nvs := rfl
@[simp] theorem State.updEntry_thr (n : Nat) (g : Entry → Entry) : (s.updEntry n g).thr = s.thr := rfl
@[simp] theorem State.updEntry_cat (n : Nat) (g : Entry → Entry) : (s.updEntry n g).cat = Tab.upd {} n g s.cat := rfl
@[simp] theorem State.updEntry_train (n : Nat) (g : Entry → Entry) : (s.updEntry n g).train = s.train := rfl
@[simp] theorem State.updEntry_upd (n : Nat) (g : Entry → Entry) : (s.updEntry n g).upd = s.upd := rfl
@[simp] theorem State.updEntry_jobs (n : Nat) (g : Entry → Entry) : (s.updEntry n g).jobs = s.jobs := rfl
@[simp] theorem State.updEntry_insts (n : Nat) (g : Entry → Entry) : (s.updEntry n g).insts = s.insts := rfl
@[simp] theorem State.updEntry_ports (n : Nat) (g : Entry → Entry) : (s.updEntry n g).ports = s.ports := rfl
@[simp] theorem State.updEntry_fetches (n : Nat) (g : Entry → Entry) : (s.updEntry n g).fetches = s.fetches := rfl
@[simp] theorem State.updEntry_nextFetch (n : Nat) (g : Entry → Entry) :
    (s.updEntry n g).nextFetch = s.nextFetch := rfl
@[simp] theorem State.updEntry_links (n : Nat) (g : Entry → Entry) : (s.updEntry n g).links = s.links := rfl
@[simp] theorem State.updEntry_mgt (n : Nat) (g : Entry → Entry) : (s.updEntry n g).mgt = s.mgt := rfl
@[simp] theorem State.updEntry_tb (n : Nat) (g : Entry → Entry) : (s.updEntry n g).tb = s.tb := rfl
@[simp] theorem State.updEntry_adm (n : Nat) (g : Entry → Entry) : (s.updEntry n g).adm = s.adm := rfl
@[simp] theorem State.updEntry_sec (n : Nat) (g : Entry → Entry) : (s.updEntry n g).sec = s.sec := rfl
@[simp] theorem State.updEntry_obs (n : Nat) (g : Entry → Entry) : (s.updEntry n g).obs = s.obs := rfl
@[simp] theorem State.updEntry_halves (n : Nat) (g : Entry → Entry) : (s.updEntry n g).halves = s.halves := rfl

/-! ### updTrain -/

@[simp] theorem State.updTrain_pending (n : Nat) (g : Train → Train) : (s.updTrain n g).pending = s.pending := rfl
@[simp] theorem State.updTrain_readData (n : Nat) (g : Train → Train) : (s.updTrain n g).readData = s.readData := rfl
@[simp] theorem State.updTrain_readBytes (n : Nat) (g : Train → Train) :
    (s.updTrain n g).readBytes = s.readBytes := rfl
@[simp] theorem State.updTrain_freeN (n : Nat) (g : Train → Train) : (s.updTrain n g).freeN = s.freeN := rfl
@[simp] theorem State.updTrain_nextTok (n : Nat) (g : Train → Train) : (s.updTrain n g).nextTok = s.nextTok := rfl
@[simp] theorem State.updTrain_net (n : Nat) (g : Train → Train) : (s.updTrain n g).net = s.net := rfl
@[simp] theorem State.updTrain_cores (n : Nat) (g : Train → Train) : (s.updTrain n g).cores = s.cores := rfl
@[simp] theorem State.updTrain_fields (n : Nat) (g : Train → Train) : (s.updTrain n g).fields = s.fields := rfl
@[simp] theorem State.updTrain_regions (n : Nat) (g : Train → Train) : (s.updTrain n g).regions = s.regions := rfl
@[simp] theorem State.updTrain_fence (n : Nat) (g : Train → Train) : (s.updTrain n g).fence = s.fence := rfl
@[simp] theorem State.updTrain_sem (n : Nat) (g : Train → Train) : (s.updTrain n g).sem = s.sem := rfl
@[simp] theorem State.updTrain_semWaiters (n : Nat) (g : Train → Train) :
    (s.updTrain n g).semWaiters = s.semWaiters := rfl
@[simp] theorem State.updTrain_feWaiters (n : Nat) (g : Train → Train) :
    (s.updTrain n g).feWaiters = s.feWaiters := rfl
@[simp] theorem State.updTrain_tags (n : Nat) (g : Train → Train) : (s.updTrain n g).tags = s.tags := rfl
@[simp] theorem State.updTrain_pan (n : Nat) (g : Train → Train) : (s.updTrain n g).pan = s.pan := rfl
@[simp] theorem State.updTrain_panUe (n : Nat) (g : Train → Train) : (s.updTrain n g).panUe = s.panUe := rfl
@[simp] theorem State.updTrain_panCtl (n : Nat) (g : Train → Train) : (s.updTrain n g).panCtl = s.panCtl := rfl
@[simp] theorem State.updTrain_gran (n : Nat) (g : Train → Train) : (s.updTrain n g).gran = s.gran := rfl
@[simp] theorem State.updTrain_granUe (n : Nat) (g : Train → Train) : (s.updTrain n g).granUe = s.granUe := rfl
@[simp] theorem State.updTrain_granCtl (n : Nat) (g : Train → Train) : (s.updTrain n g).granCtl = s.granCtl := rfl
@[simp] theorem State.updTrain_zen (n : Nat) (g : Train → Train) : (s.updTrain n g).zen = s.zen := rfl
@[simp] theorem State.updTrain_nvs (n : Nat) (g : Train → Train) : (s.updTrain n g).nvs = s.nvs := rfl
@[simp] theorem State.updTrain_thr (n : Nat) (g : Train → Train) : (s.updTrain n g).thr = s.thr := rfl
@[simp] theorem State.updTrain_cat (n : Nat) (g : Train → Train) : (s.updTrain n g).cat = s.cat := rfl
@[simp] theorem State.updTrain_train (n : Nat) (g : Train → Train) :
    (s.updTrain n g).train = Tab.upd {} n g s.train := rfl
@[simp] theorem State.updTrain_upd (n : Nat) (g : Train → Train) : (s.updTrain n g).upd = s.upd := rfl
@[simp] theorem State.updTrain_jobs (n : Nat) (g : Train → Train) : (s.updTrain n g).jobs = s.jobs := rfl
@[simp] theorem State.updTrain_insts (n : Nat) (g : Train → Train) : (s.updTrain n g).insts = s.insts := rfl
@[simp] theorem State.updTrain_ports (n : Nat) (g : Train → Train) : (s.updTrain n g).ports = s.ports := rfl
@[simp] theorem State.updTrain_fetches (n : Nat) (g : Train → Train) : (s.updTrain n g).fetches = s.fetches := rfl
@[simp] theorem State.updTrain_nextFetch (n : Nat) (g : Train → Train) :
    (s.updTrain n g).nextFetch = s.nextFetch := rfl
@[simp] theorem State.updTrain_links (n : Nat) (g : Train → Train) : (s.updTrain n g).links = s.links := rfl
@[simp] theorem State.updTrain_mgt (n : Nat) (g : Train → Train) : (s.updTrain n g).mgt = s.mgt := rfl
@[simp] theorem State.updTrain_tb (n : Nat) (g : Train → Train) : (s.updTrain n g).tb = s.tb := rfl
@[simp] theorem State.updTrain_adm (n : Nat) (g : Train → Train) : (s.updTrain n g).adm = s.adm := rfl
@[simp] theorem State.updTrain_sec (n : Nat) (g : Train → Train) : (s.updTrain n g).sec = s.sec := rfl
@[simp] theorem State.updTrain_obs (n : Nat) (g : Train → Train) : (s.updTrain n g).obs = s.obs := rfl
@[simp] theorem State.updTrain_halves (n : Nat) (g : Train → Train) : (s.updTrain n g).halves = s.halves := rfl

/-! ### updJob -/

@[simp] theorem State.updJob_pending (i q : Nat) (g : Job → Job) : (s.updJob i q g).pending = s.pending := rfl
@[simp] theorem State.updJob_readData (i q : Nat) (g : Job → Job) : (s.updJob i q g).readData = s.readData := rfl
@[simp] theorem State.updJob_readBytes (i q : Nat) (g : Job → Job) : (s.updJob i q g).readBytes = s.readBytes := rfl
@[simp] theorem State.updJob_freeN (i q : Nat) (g : Job → Job) : (s.updJob i q g).freeN = s.freeN := rfl
@[simp] theorem State.updJob_nextTok (i q : Nat) (g : Job → Job) : (s.updJob i q g).nextTok = s.nextTok := rfl
@[simp] theorem State.updJob_net (i q : Nat) (g : Job → Job) : (s.updJob i q g).net = s.net := rfl
@[simp] theorem State.updJob_cores (i q : Nat) (g : Job → Job) : (s.updJob i q g).cores = s.cores := rfl
@[simp] theorem State.updJob_fields (i q : Nat) (g : Job → Job) : (s.updJob i q g).fields = s.fields := rfl
@[simp] theorem State.updJob_regions (i q : Nat) (g : Job → Job) : (s.updJob i q g).regions = s.regions := rfl
@[simp] theorem State.updJob_fence (i q : Nat) (g : Job → Job) : (s.updJob i q g).fence = s.fence := rfl
@[simp] theorem State.updJob_sem (i q : Nat) (g : Job → Job) : (s.updJob i q g).sem = s.sem := rfl
@[simp] theorem State.updJob_semWaiters (i q : Nat) (g : Job → Job) :
    (s.updJob i q g).semWaiters = s.semWaiters := rfl
@[simp] theorem State.updJob_feWaiters (i q : Nat) (g : Job → Job) : (s.updJob i q g).feWaiters = s.feWaiters := rfl
@[simp] theorem State.updJob_tags (i q : Nat) (g : Job → Job) : (s.updJob i q g).tags = s.tags := rfl
@[simp] theorem State.updJob_pan (i q : Nat) (g : Job → Job) : (s.updJob i q g).pan = s.pan := rfl
@[simp] theorem State.updJob_panUe (i q : Nat) (g : Job → Job) : (s.updJob i q g).panUe = s.panUe := rfl
@[simp] theorem State.updJob_panCtl (i q : Nat) (g : Job → Job) : (s.updJob i q g).panCtl = s.panCtl := rfl
@[simp] theorem State.updJob_gran (i q : Nat) (g : Job → Job) : (s.updJob i q g).gran = s.gran := rfl
@[simp] theorem State.updJob_granUe (i q : Nat) (g : Job → Job) : (s.updJob i q g).granUe = s.granUe := rfl
@[simp] theorem State.updJob_granCtl (i q : Nat) (g : Job → Job) : (s.updJob i q g).granCtl = s.granCtl := rfl
@[simp] theorem State.updJob_zen (i q : Nat) (g : Job → Job) : (s.updJob i q g).zen = s.zen := rfl
@[simp] theorem State.updJob_nvs (i q : Nat) (g : Job → Job) : (s.updJob i q g).nvs = s.nvs := rfl
@[simp] theorem State.updJob_thr (i q : Nat) (g : Job → Job) : (s.updJob i q g).thr = s.thr := rfl
@[simp] theorem State.updJob_cat (i q : Nat) (g : Job → Job) : (s.updJob i q g).cat = s.cat := rfl
@[simp] theorem State.updJob_train (i q : Nat) (g : Job → Job) : (s.updJob i q g).train = s.train := rfl
@[simp] theorem State.updJob_upd (i q : Nat) (g : Job → Job) : (s.updJob i q g).upd = s.upd := rfl
@[simp] theorem State.updJob_jobs (i q : Nat) (g : Job → Job) :
    (s.updJob i q g).jobs = mapIf (fun j => j.inst = i && j.seq = q) g s.jobs := rfl
@[simp] theorem State.updJob_insts (i q : Nat) (g : Job → Job) : (s.updJob i q g).insts = s.insts := rfl
@[simp] theorem State.updJob_ports (i q : Nat) (g : Job → Job) : (s.updJob i q g).ports = s.ports := rfl
@[simp] theorem State.updJob_fetches (i q : Nat) (g : Job → Job) : (s.updJob i q g).fetches = s.fetches := rfl
@[simp] theorem State.updJob_nextFetch (i q : Nat) (g : Job → Job) : (s.updJob i q g).nextFetch = s.nextFetch := rfl
@[simp] theorem State.updJob_links (i q : Nat) (g : Job → Job) : (s.updJob i q g).links = s.links := rfl
@[simp] theorem State.updJob_mgt (i q : Nat) (g : Job → Job) : (s.updJob i q g).mgt = s.mgt := rfl
@[simp] theorem State.updJob_tb (i q : Nat) (g : Job → Job) : (s.updJob i q g).tb = s.tb := rfl
@[simp] theorem State.updJob_adm (i q : Nat) (g : Job → Job) : (s.updJob i q g).adm = s.adm := rfl
@[simp] theorem State.updJob_sec (i q : Nat) (g : Job → Job) : (s.updJob i q g).sec = s.sec := rfl
@[simp] theorem State.updJob_obs (i q : Nat) (g : Job → Job) : (s.updJob i q g).obs = s.obs := rfl
@[simp] theorem State.updJob_halves (i q : Nat) (g : Job → Job) : (s.updJob i q g).halves = s.halves := rfl

/-! ### updSlot -/

@[simp] theorem State.updSlot_pending (n : Nat) (g : Slot → Slot) : (s.updSlot n g).pending = s.pending := rfl
@[simp] theorem State.updSlot_readData (n : Nat) (g : Slot → Slot) : (s.updSlot n g).readData = s.readData := rfl
@[simp] theorem State.updSlot_readBytes (n : Nat) (g : Slot → Slot) : (s.updSlot n g).readBytes = s.readBytes := rfl
@[simp] theorem State.updSlot_freeN (n : Nat) (g : Slot → Slot) : (s.updSlot n g).freeN = s.freeN := rfl
@[simp] theorem State.updSlot_nextTok (n : Nat) (g : Slot → Slot) : (s.updSlot n g).nextTok = s.nextTok := rfl
@[simp] theorem State.updSlot_net (n : Nat) (g : Slot → Slot) : (s.updSlot n g).net = s.net := rfl
@[simp] theorem State.updSlot_cores (n : Nat) (g : Slot → Slot) : (s.updSlot n g).cores = s.cores := rfl
@[simp] theorem State.updSlot_fields (n : Nat) (g : Slot → Slot) : (s.updSlot n g).fields = s.fields := rfl
@[simp] theorem State.updSlot_regions (n : Nat) (g : Slot → Slot) : (s.updSlot n g).regions = s.regions := rfl
@[simp] theorem State.updSlot_fence (n : Nat) (g : Slot → Slot) : (s.updSlot n g).fence = s.fence := rfl
@[simp] theorem State.updSlot_sem (n : Nat) (g : Slot → Slot) : (s.updSlot n g).sem = s.sem := rfl
@[simp] theorem State.updSlot_semWaiters (n : Nat) (g : Slot → Slot) :
    (s.updSlot n g).semWaiters = s.semWaiters := rfl
@[simp] theorem State.updSlot_feWaiters (n : Nat) (g : Slot → Slot) : (s.updSlot n g).feWaiters = s.feWaiters := rfl
@[simp] theorem State.updSlot_tags (n : Nat) (g : Slot → Slot) : (s.updSlot n g).tags = s.tags := rfl
@[simp] theorem State.updSlot_pan (n : Nat) (g : Slot → Slot) : (s.updSlot n g).pan = s.pan := rfl
@[simp] theorem State.updSlot_panUe (n : Nat) (g : Slot → Slot) : (s.updSlot n g).panUe = s.panUe := rfl
@[simp] theorem State.updSlot_panCtl (n : Nat) (g : Slot → Slot) : (s.updSlot n g).panCtl = s.panCtl := rfl
@[simp] theorem State.updSlot_gran (n : Nat) (g : Slot → Slot) : (s.updSlot n g).gran = s.gran := rfl
@[simp] theorem State.updSlot_granUe (n : Nat) (g : Slot → Slot) : (s.updSlot n g).granUe = s.granUe := rfl
@[simp] theorem State.updSlot_granCtl (n : Nat) (g : Slot → Slot) : (s.updSlot n g).granCtl = s.granCtl := rfl
@[simp] theorem State.updSlot_zen (n : Nat) (g : Slot → Slot) : (s.updSlot n g).zen = s.zen := rfl
@[simp] theorem State.updSlot_nvs (n : Nat) (g : Slot → Slot) : (s.updSlot n g).nvs = s.nvs := rfl
@[simp] theorem State.updSlot_thr (n : Nat) (g : Slot → Slot) :
    (s.updSlot n g).thr = { s.thr with slots := Tab.upd {} n g s.thr.slots } := rfl
@[simp] theorem State.updSlot_cat (n : Nat) (g : Slot → Slot) : (s.updSlot n g).cat = s.cat := rfl
@[simp] theorem State.updSlot_train (n : Nat) (g : Slot → Slot) : (s.updSlot n g).train = s.train := rfl
@[simp] theorem State.updSlot_upd (n : Nat) (g : Slot → Slot) : (s.updSlot n g).upd = s.upd := rfl
@[simp] theorem State.updSlot_jobs (n : Nat) (g : Slot → Slot) : (s.updSlot n g).jobs = s.jobs := rfl
@[simp] theorem State.updSlot_insts (n : Nat) (g : Slot → Slot) : (s.updSlot n g).insts = s.insts := rfl
@[simp] theorem State.updSlot_ports (n : Nat) (g : Slot → Slot) : (s.updSlot n g).ports = s.ports := rfl
@[simp] theorem State.updSlot_fetches (n : Nat) (g : Slot → Slot) : (s.updSlot n g).fetches = s.fetches := rfl
@[simp] theorem State.updSlot_nextFetch (n : Nat) (g : Slot → Slot) : (s.updSlot n g).nextFetch = s.nextFetch := rfl
@[simp] theorem State.updSlot_links (n : Nat) (g : Slot → Slot) : (s.updSlot n g).links = s.links := rfl
@[simp] theorem State.updSlot_mgt (n : Nat) (g : Slot → Slot) : (s.updSlot n g).mgt = s.mgt := rfl
@[simp] theorem State.updSlot_tb (n : Nat) (g : Slot → Slot) : (s.updSlot n g).tb = s.tb := rfl
@[simp] theorem State.updSlot_adm (n : Nat) (g : Slot → Slot) : (s.updSlot n g).adm = s.adm := rfl
@[simp] theorem State.updSlot_sec (n : Nat) (g : Slot → Slot) : (s.updSlot n g).sec = s.sec := rfl
@[simp] theorem State.updSlot_obs (n : Nat) (g : Slot → Slot) : (s.updSlot n g).obs = s.obs := rfl
@[simp] theorem State.updSlot_halves (n : Nat) (g : Slot → Slot) : (s.updSlot n g).halves = s.halves := rfl

/-! ### count -/

@[simp] theorem State.count_pending (u n k : Nat) : (s.count u n k).pending = s.pending := rfl
@[simp] theorem State.count_readData (u n k : Nat) : (s.count u n k).readData = s.readData := rfl
@[simp] theorem State.count_readBytes (u n k : Nat) : (s.count u n k).readBytes = s.readBytes := rfl
@[simp] theorem State.count_freeN (u n k : Nat) : (s.count u n k).freeN = s.freeN := rfl
@[simp] theorem State.count_nextTok (u n k : Nat) : (s.count u n k).nextTok = s.nextTok := rfl
@[simp] theorem State.count_net (u n k : Nat) : (s.count u n k).net = s.net := rfl
@[simp] theorem State.count_cores (u n k : Nat) : (s.count u n k).cores = s.cores := rfl
@[simp] theorem State.count_fields (u n k : Nat) : (s.count u n k).fields = s.fields := rfl
@[simp] theorem State.count_regions (u n k : Nat) : (s.count u n k).regions = s.regions := rfl
@[simp] theorem State.count_fence (u n k : Nat) : (s.count u n k).fence = s.fence := rfl
@[simp] theorem State.count_sem (u n k : Nat) : (s.count u n k).sem = s.sem := rfl
@[simp] theorem State.count_semWaiters (u n k : Nat) : (s.count u n k).semWaiters = s.semWaiters := rfl
@[simp] theorem State.count_feWaiters (u n k : Nat) : (s.count u n k).feWaiters = s.feWaiters := rfl
@[simp] theorem State.count_tags (u n k : Nat) : (s.count u n k).tags = s.tags := rfl
@[simp] theorem State.count_pan (u n k : Nat) : (s.count u n k).pan = s.pan := rfl
@[simp] theorem State.count_panUe (u n k : Nat) : (s.count u n k).panUe = s.panUe := rfl
@[simp] theorem State.count_panCtl (u n k : Nat) : (s.count u n k).panCtl = s.panCtl := rfl
@[simp] theorem State.count_gran (u n k : Nat) : (s.count u n k).gran = s.gran := rfl
@[simp] theorem State.count_granUe (u n k : Nat) : (s.count u n k).granUe = s.granUe := rfl
@[simp] theorem State.count_granCtl (u n k : Nat) : (s.count u n k).granCtl = s.granCtl := rfl
@[simp] theorem State.count_zen (u n k : Nat) : (s.count u n k).zen = s.zen := rfl
@[simp] theorem State.count_nvs (u n k : Nat) : (s.count u n k).nvs = s.nvs := rfl
@[simp] theorem State.count_thr (u n k : Nat) : (s.count u n k).thr = s.thr := rfl
@[simp] theorem State.count_cat (u n k : Nat) : (s.count u n k).cat = s.cat := rfl
@[simp] theorem State.count_train (u n k : Nat) : (s.count u n k).train = s.train := rfl
@[simp] theorem State.count_upd (u n k : Nat) : (s.count u n k).upd = s.upd := rfl
@[simp] theorem State.count_jobs (u n k : Nat) : (s.count u n k).jobs = s.jobs := rfl
@[simp] theorem State.count_insts (u n k : Nat) : (s.count u n k).insts = s.insts := rfl
@[simp] theorem State.count_ports (u n k : Nat) : (s.count u n k).ports = s.ports := rfl
@[simp] theorem State.count_fetches (u n k : Nat) : (s.count u n k).fetches = s.fetches := rfl
@[simp] theorem State.count_nextFetch (u n k : Nat) : (s.count u n k).nextFetch = s.nextFetch := rfl
@[simp] theorem State.count_links (u n k : Nat) : (s.count u n k).links = s.links := rfl
@[simp] theorem State.count_mgt (u n k : Nat) : (s.count u n k).mgt = s.mgt := rfl
@[simp] theorem State.count_tb (u n k : Nat) : (s.count u n k).tb = s.tb := rfl
@[simp] theorem State.count_adm (u n k : Nat) : (s.count u n k).adm = s.adm := rfl
@[simp] theorem State.count_sec (u n k : Nat) : (s.count u n k).sec = s.sec := rfl
@[simp] theorem State.count_obs (u n k : Nat) :
    (s.count u n k).obs = { s.obs with cnt := Tab.upd 0 (cntKey u n) (fun v => v + BitVec.ofNat 64 k) s.obs.cnt } := rfl
@[simp] theorem State.count_halves (u n k : Nat) : (s.count u n k).halves = s.halves := rfl

/-! ### Reading back -/

/-- A core reads what was stored for it. -/
theorem State.core_setCore {s : State} {p : Nat} {c : Core} (h : Tab.sorted s.cores = true) :
    (s.setCore p c).core p = c := Tab.get_put_self h

/-- A core reads what an update makes of it. -/
theorem State.core_updCore {s : State} {p : Nat} {f : Core → Core} (h : Tab.sorted s.cores = true) :
    (s.updCore p f).core p = f (s.core p) := Tab.get_put_self h

/-- The other cores are unchanged. -/
theorem State.core_setCore_ne {s : State} {p q : Nat} {c : Core} (h : Tab.sorted s.cores = true) (hq : q ≠ p) :
    (s.setCore p c).core q = s.core q := Tab.get_put_ne h hq

end Sys2Proof.Machine
end

