-- ==== Sys2Proof/Laws/Ops.lean ====
section
/-! SUPPORT. What each shared operation of Machine/Ops.lean does, said once. -/

namespace Sys2Proof.Machine

/-! ### Bit fields of an instruction word (R123) -/

/-- The class field of a word is its class. -/
theorem bits_word_class {cls op n : Nat} (hc : cls < 16) (ho : op < 16) (hn : n < 2 ^ 56) :
    bits (cls * 2 ^ 60 + op * 2 ^ 56 + n) 63 60 = cls := by
  unfold bits; rw [Nat.shiftRight_eq_div_pow]; omega

/-- The operation field of a word is its operation. -/
theorem bits_word_op {cls op n : Nat} (ho : op < 16) (hn : n < 2 ^ 56) :
    bits (cls * 2 ^ 60 + op * 2 ^ 56 + n) 59 56 = op := by
  unfold bits; rw [Nat.shiftRight_eq_div_pow]; omega

/-- What ISSUE does with the instruction that stands at the program index: its body, or the fault the body names. -/
theorem issue_at {s : State} {p cls op : Nat} {ops : BitVec 56} {body : State → Core → Except IFault State}
    (h : s.atInstr p cls op ops) (hc : cls < 16) (ho : op < 16) (hd : opDefined cls op = true) :
    issue s p cls op ops body =
      match body s (s.core p) with
      | .ok t => t
      | .error f => s.coreFault p f.cause f.unit (s.core p).pi f.detail := by
  have hn : ops.toNat < 2 ^ 56 := ops.isLt
  cases hb : body s (s.core p) <;>
    simp only [issue, h.1, h.2, bits_word_class hc ho hn, bits_word_op ho hn, hd, hb, Bool.not_true, Bool.false_eq_true,
      if_false, ne_eq, not_true_eq_false]

/-- The same for an instruction that changes its core alone. -/
theorem issueCore_at {s : State} {p cls op : Nat} {ops : BitVec 56} {body : Core → Except IFault Core} {c : Core}
    (h : s.atInstr p cls op ops) (hc : cls < 16) (ho : op < 16) (hd : opDefined cls op = true)
    (hb : body (s.core p) = .ok c) : issueCore s p cls op ops body = s.setCore p c := by
  rw [issueCore, issue_at h hc ho hd, hb]; rfl

/-- A body that names a fault takes it. -/
theorem issueCore_fault {s : State} {p cls op : Nat} {ops : BitVec 56} {body : Core → Except IFault Core} {f : IFault}
    (h : s.atInstr p cls op ops) (hc : cls < 16) (ho : op < 16) (hd : opDefined cls op = true)
    (hb : body (s.core p) = .error f) :
    issueCore s p cls op ops body = s.coreFault p f.cause f.unit (s.core p).pi f.detail := by
  rw [issueCore, issue_at h hc ho hd, hb]; rfl

/-- An address register reads what was set, and a0 stays zero (R118). -/
theorem Core.areg_zero (c : Core) : c.areg 0 = 0 := rfl
theorem Core.setA_zero (c : Core) (v : Word) : c.setA 0 v = c := rfl

/-! ### What the operations on counters, events and hosts leave alone -/

/-- A record for the management ring changes the observation state alone. -/
theorem State.mgtRecord_frame (s : State) (bs : List Byte) : { s.mgtRecord bs with obs := s.obs } = s := by
  unfold State.mgtRecord; split <;> rfl

/-- An event changes the observation state alone. -/
theorem State.event_frame (s : State) (u c d : Nat) (conf : Bool) : { s.event u c d conf with obs := s.obs } = s := by
  unfold State.event State.eventAt State.mgtRecord
  dsimp only
  by_cases h : s.mgt.ringFrozen = true <;> simp only [h, if_true, if_false, Bool.false_eq_true]

/-- Passing through regions changes counters alone. -/
theorem State.passes_frame (s : State) (rs : List Nat) : { s.passes rs with obs := s.obs } = s := by
  unfold State.passes
  induction rs generalizing s with
  | nil => rfl
  | cons r rs ih => rw [List.foldl_cons]; simpa [State.enter, State.leave, State.count] using congrArg (fun t => { t with obs := s.obs }) (ih ((s.enter r).leave r))

/-- A delivered token leaves its channel; besides, only counters change. -/
theorem State.take_frame (s : State) (t : Token) :
    { s.take t with net := s.net, obs := s.obs } = s := by
  unfold State.take; dsimp only; split
  · rfl
  · split
    · rfl
    · exact congrArg (fun u => { u with net := s.net }) (State.passes_frame { s with net := s.net.filter (·.id ≠ t.id) } t.path.dropLast)

/-- A token that is sent joins its channel with the next number; besides, only counters change. -/
theorem State.send_frame (s : State) (t : Token) :
    { s.send t with net := s.net, nextTok := s.nextTok, obs := s.obs } = s ∧
    (s.send t).net = s.net ++ [{ t with id := s.nextTok, path := (route (Config.spineVia s.nextTok)
      (unitRegion t.srcUnit) (unitRegion t.dstUnit)) }] := by
  unfold State.send; dsimp only; split <;> exact ⟨rfl, rfl⟩

/-- A message posted to a host changes the mailboxes and ports alone. -/
theorem State.post_frame (s : State) (i typ status tag : Nat) (body : List Byte) :
    { s.post i typ status tag body with insts := s.insts, ports := s.ports } = s := by
  unfold State.post; dsimp only; split
  · rfl
  · split
    · rfl
    · split
      · rfl
      · split <;> rfl

/-- A reply changes the mailboxes and ports alone. -/
theorem State.reply_frame (s : State) (i status tag : Nat) (body : List Byte) :
    { s.reply i status tag body with insts := s.insts, ports := s.ports } = s :=
  State.post_frame s i 1 status tag body

/-! ### Messages -/

/-- A message of a link that is in order is accepted, and its meaning follows when it is of the kind asked for. -/
theorem State.receive_incoming {s : State} {n vc i key : Nat} {b plain : List Byte} (h : s.incoming n vc i key b plain)
    (mine : List Byte → Bool) (waits : Nat → Option State) (body : State → Nat → State) :
    s.receive n vc mine key plain waits body =
      if mine plain = true then (waits i).getD (body (s.accepted n vc i key b) i) else s := by
  obtain ⟨h1, h2, h3, h4, h5, h6, h7, h8, h9, h10, h11, h12, h13, h14, h15⟩ := h
  have hv : ¬(vc = 0 ∧ clearForm b = true) := fun h => by simp [h4 h.1] at h
  have hk : ¬(msgKind plain = 6 ∧ msgArg plain ≤ 2) := fun h => Nat.not_le.2 (h15 h.1) h.2
  have hf : ¬(plain.length < 28 ∨ 4124 < plain.length ∨ False ∨ 64 ≤ i ∧ i ≠ 0xFF) := by
    rintro (h | h | h | ⟨h, h2⟩) <;> first | exact h.elim | omega
  simp only [State.receive, h5, h2, h3, h6, h9, h10, h12, h13, h14, State.accepted, show ¬ 6 ≤ n by omega, ne_eq, not_true_eq_false,
    Bool.true_eq_false, or_self, if_false, Bool.not_true, Bool.false_eq_true, hv]
  rw [if_neg (by simpa using hf), if_neg (by simpa using hk)]
  by_cases hm : mine plain = true
  · simp only [hm, if_true, if_false, Bool.not_true, Bool.false_eq_true]; cases waits i <;> rfl
  · simp only [Bool.not_eq_true] at hm; simp [hm]

/-- A mailbox message that is taken costs a credit, and its meaning follows. -/
theorem State.message_taken {s : State} {port i code : Nat} {ide : Bool} {msg : List Byte} (h : s.fromMailbox port i ide code msg)
    (body : State → State) : s.message port i ide code msg body = body (s.debited i) := by
  obtain ⟨h1, h2, h3, h4, h5, h6, h6', h7, h8⟩ := h
  have hr : ¬((s.inst i).tdi = 2 ∧ ide = false) := fun h => by simp [h6' h.1] at h
  simp only [State.message, State.debited, h1, h2, h3, h5, h6, h8, hr, show ¬ 2 ≤ port by omega, ne_eq, not_true_eq_false,
    Bool.true_eq_false, or_self, if_false, Bool.not_true, Bool.false_eq_true, false_or]
  rw [if_neg (by rcases h7 with h | h <;> simp [h])]

/-- A byte written to a scratchpad keeps its canonical form. -/
theorem Core.scratchWf_putByte {c : Core} {a : Nat} {b : Byte} (h : c.scratchWf) : (c.putByte a b).scratchWf :=
  Tab.wf_put (d := c.scratchDefault) h

/-- A write to a scratchpad keeps its canonical form, with or without uncorrectable words (R109). -/
theorem Core.scratchWf_write {c : Core} {a : Nat} {bs : List Byte} (h : c.scratchWf) : (c.write a bs).scratchWf := by
  have fold : ∀ (l : List Nat) (lost : List Nat) (c : Core), c.scratchWf →
      (l.foldl (fun (c : Core) k => if lost.contains ((a + k) / 8) then c else c.putByte (a + k) (bs.getD k 0)) c).scratchWf := by
    intro l lost
    induction l with
    | nil => exact fun _ h => h
    | cons k l ih =>
      intro c h
      rw [List.foldl_cons]
      refine ih _ ?_
      split
      · exact h
      · exact scratchWf_putByte h
  unfold Core.write
  dsimp only
  split
  · exact fold _ _ c h
  · exact fold _ _ c h

end Sys2Proof.Machine
end

