-- ==== Sys2Proof/Tests/Slice0.lean ====
section
/-! SUPPORT. Tests of the model on small states: ill-formed commands, states that meet the hypotheses of every
statement, and results worked out by hand from the rules. -/

namespace Sys2Proof.Tests

open Sys2Proof.Machine

set_option Elab.async false

/-! ### Small states -/

/-- Operand bits from values and the lowest bit each stands at. -/
def ops (fs : List (Nat × Nat)) : BitVec 56 := BitVec.ofNat 56 ((fs.map fun x => x.1 * 2 ^ x.2).sum)

/-- An instance record: instance i on port i % 2, one granary granule, class A. -/
def instRec (i : Nat) (conf : Bool := false) : InstRec :=
  { inst := i, confidential := conf, port := i % 2, classA := 0, pasid := 7, granBase := i, granSize := 1, quota := 100, drainMs := 5 }

/-- The records of the small states: instance 0 has fields 0 and 1, which may reach each other, columns 0 to 21 with a tagged
ACTIVATION, a TRAINING, a VARIANT and a RESERVE region, a base slot and a fork, 16 semaphores and link 0. Regions hold 1 MiB granules. -/
def cfg : Zcfg :=
  { insts := [instRec 0]
    fields := [{ field := 0, inst := 0, routes := 3 }, { field := 1, inst := 0, routes := 3 }]
    carves := [{ first := 0, last := 10, kind := 3, owner := 0, tagged := true, offset := 0, size := 0x100000 },
               { first := 0, last := 10, kind := 2, owner := 0, tagged := false, offset := 0x100000, size := 0x100000 },
               { first := 0, last := 0, kind := 1, owner := 0, tagged := false, offset := 0x200000, size := 0x100000 },
               { first := 0, last := 10, kind := 0, owner := 0, tagged := false, offset := 0x300000, size := 0x100000 },
               { first := 0, last := 10, kind := 0, owner := 1, tagged := false, offset := 0x400000, size := 0x100000 }]
    slots := [{ slot := 0, fork := false, owner := 0, readers := 1 }, { slot := 1, fork := true, owner := 0, readers := 1 },
              { slot := 2, fork := false, owner := 0, readers := 1 }]
    sems := [{ inst := 0, field := 0, vbase := 0, pbase := 0, count := 16 }]
    rates := [{ region := 0, target := 1000, vTarget := 700, vCeiling := 800 }]
    links := [{ link := 0, enabled := true, upstream := true, downstream := true, spreadOk := true, partner := 9, insts := 1 }] }

/-- A READY module at tick 5 * 10^9 with those records and instance 0 active. -/
def up : State :=
  { mgt := { powered := true, stage := 9, inputMv := 4800 }
    tb := { count := 5000000000, running := true, locked := true }
    zen := cfg
    insts := [(0, { state := .active })] }

/-- The core at position 0 runs a task of instance 0 whose instruction at index 0 has this class, operation and operands. -/
def issuing (cls op : Nat) (o : BitVec 56) (c : Core := {}) : State :=
  up.setCore 0 { c with act := .running, semCount := 16, store := [(0, BitVec.ofNat 64 (cls * 2 ^ 60 + op * 2 ^ 56 + o.toNat))] }

/-- A tile descriptor. -/
def tileBits (base fmt rows cols stride : Nat) (scale : Nat := 0xFFFFF) : BitVec 128 :=
  BitVec.ofNat 128 (base + fmt * 2 ^ 20 + rows * 2 ^ 24 + cols * 2 ^ 40 + (stride + scale * 2 ^ 40) * 2 ^ 64)

/-- Whether a command answers a next state that meets a test. -/
def after (c : Instr) (s : State) (p : State → Bool) : Bool :=
  match exec c s with
  | .next t => p t
  | _ => false

/-- A token number 0 alone on a channel. -/
def withToken (s : State) (t : Token) : State := { s with net := [t], nextTok := 1 }

/-- A token of instance 0 from core 0's sequencer to a unit. -/
def token (kind : TokKind) (dst : Nat) (addr n : Nat) (data : List Byte := []) : Token :=
  { id := 0, kind := kind, origin := .seq 0, inst := 0, srcUnit := posUnit 0 0, dstUnit := dst, addr := BitVec.ofNat 64 addr, n := n, data := data }

/-! ### The queue and the step -/

theorem test_hyp_StepRunsFrontCommand : ({ up with pending := [.freeze, .resume 0] } : State).pending = .freeze :: [.resume 0] := rfl

theorem test_hyp_IdleStepIsOneTick : up.pending = [] ∧ up.tb.running = true ∧
    (match step up with | .next t => t.tb.count | _ => 0) = 5000000001 := by decide +kernel

/-- The next state of a command that answers one. -/
def nextOf (c : Instr) (s : State) : State :=
  match exec c s with
  | .next t => t
  | _ => s

theorem exec_nextOf (c : Instr) (s : State) (h : after c s (fun _ => true) = true) : exec c s = .next (nextOf c s) := by
  unfold after at h; unfold nextOf; split <;> simp_all

/-- A write of 64 bytes on its way to column 0. -/
def panToken : Token := token .write (posUnit 0 7) 0x1000000000000000 64 (List.replicate 64 9)
def panWriting : State := withToken up panToken

theorem test_hyp_StepKeepsMemoriesCanonical :
    ({ panWriting with pending := [.panWrite 0] } : State).canonical ∧
    step { panWriting with pending := [.panWrite 0] } = .next (nextOf (.panWrite 0) { panWriting with pending := [] }) :=
  ⟨by unfold State.canonical; decide +kernel,
   show exec _ _ = _ from exec_nextOf (.panWrite 0) { panWriting with pending := [] } (by decide +kernel)⟩

theorem test_hyp_ExecLeavesQueue :
    exec (.panWrite 0) { panWriting with pending := [.freeze] } = .next (nextOf (.panWrite 0) { panWriting with pending := [.freeze] }) :=
  exec_nextOf _ _ (by decide +kernel)

theorem test_hyp_MemoryReadsBack : Memory.wf [(3, (7 : Byte)), (9, 255)] = true := by decide

theorem test_hyp_ScratchReadsBack : ({ scratch := [(0, 1), (0xFFFFF, 2)] } : Core).scratchWf ∧
    ({ scratch := [(0, 1), (0xFFFFF, 2)] } : Core).ueWords = [] := by
  unfold Core.scratchWf; decide

/-! ### The control class -/

theorem test_hyp_AddressAndCounterWrites :
    (let o := ops [(31, 51), (1, 50), (0xFFFFFFFF, 0)]
     (issuing 7 5 o).atInstr 0 7 5 o ∧ onlyFields o.toNat [(55, 51), (50, 50), (31, 0)] = true) ∧
    (let o := ops [(31, 51), (31, 46), (0x80000000, 0)]
     (issuing 7 6 o).atInstr 0 7 6 o ∧ onlyFields o.toNat [(55, 51), (50, 46), (31, 0)] = true) ∧
    (let o := ops [(1, 51), (31, 46), (31, 41)]
     (issuing 7 7 o).atInstr 0 7 7 o ∧ onlyFields o.toNat [(55, 51), (50, 46), (45, 41)] = true) ∧
    (let o := ops [(15, 52), (0xFFFFFFFF, 0)]
     (issuing 7 8 o).atInstr 0 7 8 o ∧ onlyFields o.toNat [(55, 52), (31, 0)] = true) ∧
    (1 : Nat) ≠ 0 ∧ Tab.sorted (issuing 7 5 0).cores = true := by
  unfold State.atInstr; decide +kernel

/-- SETA with H = 1 keeps bits 31:0 (R141). -/
theorem test_seta_high : after (.seta 0 (ops [(2, 51), (1, 50), (0xAB, 0)])) (issuing 7 5 (ops [(2, 51), (1, 50), (0xAB, 0)]) { a := [(2, 5)] })
    (fun t => (t.core 0).areg 2 = 0xAB00000005 && (t.core 0).pi = 1) = true := by decide +kernel

/-- ADDA sign-extends its immediate and wraps (R118, R141). -/
theorem test_adda_wraps : after (.adda 0 (ops [(1, 51), (1, 46), (0xFFFFFFFF, 0)])) (issuing 7 6 (ops [(1, 51), (1, 46), (0xFFFFFFFF, 0)]))
    (fun t => (t.core 0).areg 1 = 0xFFFFFFFFFFFFFFFF) = true := by decide +kernel

theorem test_hyp_BranchesCallsAndStops :
    (let o := ops [(3, 54), (15, 50), (8191, 0)]
     (issuing 7 0 o).atInstr 0 7 0 o ∧ onlyFields o.toNat [(55, 54), (53, 50), (19, 0)] = true ∧ fld o 19 0 < 8192 ∧
       (fld o 55 54 = 0 ∨ fld o 55 54 = 3 ∨ fld o 53 50 ≤ 7)) ∧
    (let o := ops [(1, 54), (7, 50)]
     (issuing 7 0 o).atInstr 0 7 0 o ∧ onlyFields o.toNat [(55, 54), (53, 50), (19, 0)] = true ∧ fld o 19 0 < 8192 ∧
       (fld o 55 54 = 0 ∨ fld o 55 54 = 3 ∨ fld o 53 50 ≤ 7)) ∧
    (let o := ops [(15, 52), (8191, 0)]
     (issuing 7 1 o).atInstr 0 7 1 o ∧ onlyFields o.toNat [(55, 52), (19, 0)] = true ∧ fld o 19 0 < 8192) ∧
    (let o := ops [(8191, 0)]
     (issuing 7 2 o).atInstr 0 7 2 o ∧ onlyFields o.toNat [(19, 0)] = true ∧ fld o 19 0 < 8192) ∧
    ((issuing 7 3 0 { stack := [4, 5] }).atInstr 0 7 3 0 ∧ ((issuing 7 3 0 { stack := [4, 5] }).core 0).stack = [4] ++ [5]) ∧
    ((issuing 7 3 0).atInstr 0 7 3 0 ∧ ((issuing 7 3 0).core 0).stack = []) ∧
    (issuing 7 4 0).atInstr 0 7 4 0 ∧
    (let o := ops [(0xFFFF, 40)]
     (issuing 8 0 o).atInstr 0 8 0 o ∧ onlyFields o.toNat [(55, 40)] = true) := by
  unfold State.atInstr; decide +kernel

/-- LOOP of a counter that holds 1 goes on, and the counter holds 0 (R141). -/
theorem test_loop_ends : after (.loop 0 (ops [(9, 0)])) (issuing 7 1 (ops [(9, 0)]) { c := [(0, 1)] })
    (fun t => (t.core 0).pi = 1 && (t.core 0).creg 0 = 0) = true := by decide +kernel

theorem test_hyp_DescriptorAndPredicateMoves :
    (let o := ops [(15, 52), (0xFFFF0, 0)]
     let s := issuing 7 9 o
     s.atInstr 0 7 9 o ∧ onlyFields o.toNat [(55, 52), (50, 46), (19, 0)] = true ∧
       0xFFFF0 = ((s.core 0).areg (fld o 50 46) + BitVec.ofNat 64 (fld o 19 0)).toNat ∧ 0xFFFF0 + 16 ≤ 0x100000 ∧ 0xFFFF0 % 16 = 0 ∧
       (s.core 0).readUe 0xFFFF0 16 = false) ∧
    (let o := ops [(1, 46), (16, 0)]
     let s := issuing 7 12 o { a := [(1, 0xFFFE0)] }
     s.atInstr 0 7 12 o ∧ onlyFields o.toNat [(50, 46), (19, 0)] = true ∧
       0xFFFF0 = ((s.core 0).areg (fld o 50 46) + BitVec.ofNat 64 (fld o 19 0)).toNat ∧ (s.core 0).readUe 0xFFFF0 16 = false) ∧
    (let o := ops [(7, 53), (0xFFFFF, 0)]
     let s := issuing 7 13 o
     s.atInstr 0 7 13 o ∧ onlyFields o.toNat [(55, 53), (50, 46), (19, 0)] = true ∧ 0xFFFFF + 1 ≤ 0x100000 ∧
       0xFFFFF = ((s.core 0).areg (fld o 50 46) + BitVec.ofNat 64 (fld o 19 0)).toNat ∧ (s.core 0).readUe 0xFFFFF 1 = false) ∧
    (let o := ops [(15, 52), (0xFFFF0, 0)]
     let s := issuing 7 10 o
     s.atInstr 0 7 10 o ∧ onlyFields o.toNat [(55, 52), (50, 46), (19, 0)] = true ∧
       0xFFFF0 = ((s.core 0).areg (fld o 50 46) + BitVec.ofNat 64 (fld o 19 0)).toNat) ∧
    (let o := ops [(15, 52), (15, 48), (31, 43), (0xFFFFF, 0)]
     (issuing 7 11 o).atInstr 0 7 11 o ∧ onlyFields o.toNat [(55, 52), (51, 48), (47, 43), (19, 0)] = true) ∧
    (let o := ops [(7, 53), (1, 51), (15, 0)]
     (issuing 7 14 o).atInstr 0 7 14 o ∧ onlyFields o.toNat [(55, 53), (52, 52), (51, 51), (3, 0)] = true) := by
  unfold State.atInstr; decide +kernel

theorem test_hyp_UndefinedWordFaults : (issuing 9 0 0).canIssue 0 = true ∧ (issuing 7 15 0).canIssue 0 = true ∧
    opDefined (bits ((issuing 9 0 0).core 0).word 63 60) (bits ((issuing 9 0 0).core 0).word 59 56) = false ∧
    opDefined (bits ((issuing 7 15 0).core 0).word 63 60) (bits ((issuing 7 15 0).core 0).word 59 56) = false := by decide +kernel

theorem test_hyp_CoreFaultIsTaken : Tab.sorted (issuing 7 4 0).cores = true ∧ (3 : Nat) ≠ 4 := by decide


/-! ### The engines -/

/-- A core with F32 tiles of one element in t0 (at 0), t1 (at 64) and t2 (a packed MX8 tile at 128 with its exponent), and a program in
slot 0 that loads IN0, doubles it and stores it to OUT0. Scratch holds 1.5 at 0. -/
def eltCore : Core :=
  { t := [(0, tileBits 0 0 1 1 4), (1, tileBits 64 0 1 1 4), (2, tileBits 128 3 1 1 65), (3, tileBits 256 0 1 32 128),
          (4, tileBits 512 0 1 32 128)]
    slots := [(0, [BitVec.ofNat 32 (1 * 2 ^ 26), BitVec.ofNat 32 (8 * 2 ^ 26), BitVec.ofNat 32 (2 * 2 ^ 26)])]
    scratch := [(2, 0xC0), (3, 0x3F)] }

def runOps : BitVec 56 := ops [(0x1F, 43), (1, 38), (0x1F, 33), (0x1F, 28)]
def cvtOps : BitVec 56 := ops [(0, 52), (0, 44), (1, 39), (0x1F, 34)]
def packOps : BitVec 56 := ops [(0, 51), (2, 47), (0x1F, 38)]
def rotOps : BitVec 56 := ops [(3, 51), (4, 46)]

/-- Whether the checks at issue, or the effect at completion, answer without a fault. -/
def passes {α : Type} (r : Except IFault α) : Bool := match r with | .ok _ => true | .error _ => false

theorem test_hyp_EngineInstructionsIssue :
    ((issuing 2 0 runOps eltCore).atInstr 0 2 0 runOps ∧ passes (eltFoot false runOps ((issuing 2 0 runOps eltCore).core 0)) = true) ∧
    ((issuing 2 1 runOps eltCore).atInstr 0 2 1 runOps ∧ passes (eltFoot true runOps ((issuing 2 1 runOps eltCore).core 0)) = true) ∧
    (let o := ops [(7, 53), (63, 47), (0xFFF00, 0)]
     (issuing 2 2 o).atInstr 0 2 2 o ∧ passes (loadpFoot o ((issuing 2 2 o).core 0)) = true) ∧
    ((issuing 3 0 cvtOps eltCore).atInstr 0 3 0 cvtOps ∧ passes (cvtFoot cvtOps ((issuing 3 0 cvtOps eltCore).core 0)) = true) ∧
    (let o := ops [(1, 52), (3, 50)]
     (issuing 4 0 o eltCore).atInstr 0 4 0 o ∧ passes (maxabsFoot o ((issuing 4 0 o eltCore).core 0)) = true) ∧
    ((issuing 4 1 packOps eltCore).atInstr 0 4 1 packOps ∧ passes (packFoot packOps ((issuing 4 1 packOps eltCore).core 0)) = true) ∧
    ((issuing 4 2 rotOps eltCore).atInstr 0 4 2 rotOps ∧ passes (rotFoot rotOps ((issuing 4 2 rotOps eltCore).core 0)) = true) ∧
    ((issuing 2 0 runOps eltCore).core 0).queueRoom 1 = true := by
  unfold State.atInstr; decide +kernel

/-- The state after an instruction of engine e has been issued and has completed. -/
def completed (e : Nat) (c : Instr) (s : State) : State := nextOf (.engineInstructionComplete 0 e [] []) (nextOf c s)

/-- ELT.RUN of a program that adds 1.5 to itself stores 3.0, F32 0x4040_0000, when it completes and not at its issue (R79, R92, R163). -/
theorem test_eltRun_adds :
    (let s := nextOf (.eltRun 0 runOps) (issuing 2 0 runOps eltCore)
     leNat ((s.core 0).bytes 64 4) = 0 ∧ (s.core 0).pi = 1 ∧ (s.core 0).inflight.length = 1) ∧
    (let s := completed 1 (.eltRun 0 runOps) (issuing 2 0 runOps eltCore)
     leNat ((s.core 0).bytes 64 4) = 0x40400000 ∧ (s.core 0).inflight = []) := by decide +kernel

/-- XTL.PACK of 1.5 alone in its block: the code is read back as 1.5 with its exponent byte (R190). -/
theorem test_pack_one : (match ((completed 1 (.xtlPack 0 packOps) (issuing 4 1 packOps eltCore)).core 0).getNum 3
      (((issuing 4 1 packOps eltCore).core 0).tile 2) 0 0 with
    | .ok v => v.eq (.fin false 3 (-1))
    | .error _ => false) = true := by decide +kernel

def mmaOps : BitVec 56 := ops [(0, 52), (1, 48)]

/-- Ones in two F16 tiles, 8 by 16 at 0 and 4 by 16 at 256 (0x3C00 is 1.0). -/
def mmaCore (fmt : Nat) : Core :=
  { t := [(0, tileBits 0 fmt 8 16 65), (1, tileBits 1024 fmt 4 16 65)] }

def mmaOnes : Core :=
  { t := [(0, tileBits 0 1 8 16 32), (1, tileBits 256 1 4 16 32)], scratch := (List.range 192).map fun k => (2 * k + 1, 0x3C) }

theorem test_hyp_MatrixInstructionsIssue :
    (let s := issuing 1 0 mmaOps (mmaCore 3)
     s.atInstr 0 1 0 mmaOps ∧ passes (matrixFoot true false mmaOps (s.core 0)) = true ∧ (s.core 0).queueRoom 0 = true) ∧
    (let s := issuing 1 1 mmaOps mmaOnes
     s.atInstr 0 1 1 mmaOps ∧ passes (matrixFoot false false mmaOps (s.core 0)) = true) ∧
    (let s := issuing 1 2 mmaOps (mmaCore 3)
     s.atInstr 0 1 2 mmaOps ∧ passes (matrixFoot true true mmaOps (s.core 0)) = true) ∧
    (let s := issuing 1 3 mmaOps mmaOnes
     s.atInstr 0 1 3 mmaOps ∧ passes (matrixFoot false true mmaOps (s.core 0)) = true) := by
  unfold State.atInstr; decide +kernel

/-- MMA.W of ones over depth 16 leaves 16 in every accumulator of the block (R86, R126). -/
theorem test_mmaW_ones : (let s := completed 0 (.mmaW 0 mmaOps) (issuing 1 1 mmaOps mmaOnes)
    (List.range 32).all fun k => (decodeNum fA40 ((s.core 0).accAt k).toNat).eq (.fin false 16 0)) = true := by decide +kernel

theorem test_hyp_MatrixBlockIsDotProducts : Tab.sorted ({ acc := [(0, 1), (2047, 5)] } : Core).acc = true := by decide

/-- An element instruction in flight, with its word and destination t3. -/
def flying (word : Nat) : InFlight :=
  { id := 5, eng := 1, idx := 2, word := word, t := [], a := [], v0 := 0, mask := none, descs := [3], blocksRead := [], blocksWritten := [] }

theorem test_hyp_ElementProgramAndMask :
    (let o := ops [(7, 53), (63, 47), (0xFFF00, 0)]
     let x := flying (2 * 2 ^ 60 + 2 * 2 ^ 56 + o.toNat)
     let s := issuing 7 4 0 { inflight := [x] }
     s.working = true ∧ (s.core 0).headStarted 1 = true ∧ ((s.core 0).inflight.find? fun y => decide (y.eng = 1)) = some x ∧
       64 = fld o 52 47 + 1 ∧ 0xFFF00 = (((s.core 0).seenBy x).areg (fld o 46 42) + BitVec.ofNat 64 (fld o 19 0)).toNat ∧
       0xFFF00 + 4 * 64 ≤ 0x100000 ∧ 0xFFF00 % 4 = 0 ∧ (s.core 0).readUe 0xFFF00 256 = false) ∧
    (let o := ops [(1, 50), (0xFFF, 0)]
     (issuing 2 3 o).atInstr 0 2 3 o ∧ fld o 49 48 = 0 ∧ fld o 51 51 = 0) ∧
    (let o := ops [(15, 52), (1, 51)]
     let s := issuing 2 3 o { t := [(15, tileBits 0 13 1 8 8)] }
     s.atInstr 0 2 3 o ∧ fld o 49 48 = 0 ∧ ((s.core 0).tile (fld o 55 52)).valid = true ∧ ((s.core 0).tile (fld o 55 52)).fmt = fBIT) := by
  unfold State.atInstr; decide +kernel

/-- A CVT in flight: it reads the tile at 0 and writes that at 64. -/
def cvtFlying : InFlight := { flying (3 * 2 ^ 60 + cvtOps.toNat) with t := eltCore.t }

theorem test_hyp_EngineInstructionCompletes :
    (let s := issuing 7 4 0 { eltCore with inflight := [cvtFlying] }
     s.working = true ∧ ((s.core 0).upset []).headStarted 1 = true ∧
       (((s.core 0).upset []).inflight.find? fun y => decide (y.eng = 1)) = some cvtFlying ∧
       passes (engineBody 0 cvtFlying.word (((s.core 0).upset []).seenBy cvtFlying)) = true ∧
       passes (engineBody 0 cvtFlying.word (((s.core 0).upset [0]).seenBy cvtFlying)) = false) ∧ (3 : Nat) < 4 := by decide +kernel

/-- An uncorrectable word that an instruction reads when it completes is a core fault with cause 4 (R109, R114). -/
theorem test_engine_ue : after (.engineInstructionComplete 0 1 [] [0]) (issuing 7 4 0 { eltCore with inflight := [cvtFlying] })
    (fun t => (t.core 0).act = .faulted && (t.core 0).fault.cause = 4 && (t.core 0).fault.idx = 2) = true := by decide +kernel

/-! ### Copies -/

theorem test_hyp_CopyInstructionsQueue :
    (let o := ops [(1, 55), (1, 39), (1, 38), (0xFFFC0, 0)]
     let s := issuing 5 3 o
     s.atInstr 0 5 3 o ∧ fld o 37 20 = 0 ∧ 0xFFFC0 = ((s.core 0).areg (fld o 54 50) + BitVec.ofNat 64 (fld o 19 0)).toNat ∧
       0xFFFC0 + 64 ≤ 0x100000 ∧ 0xFFFC0 % 64 = 0 ∧ (3, Instr.cpyT 0 o) ∈ [(0, Instr.cpy1d 0 o), (1, .cpy2d 0 o), (2, .cpy3d 0 o), (3, .cpyT 0 o)]) := by
  unfold State.atInstr; decide +kernel

/-- A CPY.1D waiting in queue 0, its descriptor at scratch 64: 64 bytes from own scratch 0x100 to pan column 0 at 0x40. -/
def copyEntry (held : Option Desc) : CpyEntry := { id := 0, idx := 3, op := 0, scratch := 64, srcAdd := 0, dstAdd := 0, waits := [], desc := held }
def copyWaiting (held : Option Desc := none) : State :=
  issuing 7 4 0
    { ce0 := { queue := [copyEntry held] }
      scratch := [(65, 1), (71, 0x30), (72, 0x40), (79, 0x10), (80, 64), (84, 1), (86, 1)] }

theorem test_hyp_DescriptorStarts :
    (0 : Nat) < 880 ∧ ((copyWaiting.core 0).busy = true ∧ copyWaiting.held 0 = false ∧ copyWaiting.working = true ∧
      ((copyWaiting.core 0).ce 0).queue = copyEntry none :: [] ∧ ((copyWaiting.core 0).inflight.any fun f => (copyEntry none).waits.contains f.id) = false ∧
      (copyEntry none).desc = none) ∧
    (Desc.ofBytes ((copyWaiting.core 0).bytes 64 64) 0 0).agrees 0 = true ∧
    copyWaiting.descOk 0 (Desc.ofBytes ((copyWaiting.core 0).bytes 64 64) 0 0) = true ∧
    (∃ d, (((copyWaiting (some d)).core 0).ce 0).queue = copyEntry (some d) :: [] ∧ (copyEntry (some d)).desc = some d) := by
  refine ⟨by decide, by decide +kernel, by decide +kernel, by decide +kernel, ⟨Desc.ofBytes [] 0 0, rfl, rfl⟩⟩

/-- The copy started: it has asked for the one piece it reads (R101, R104). -/
theorem test_copy_starts : after (.descriptorStart 0 0 [] []) copyWaiting (fun t => ((t.core 0).ce 0).queue = [] && match ((t.core 0).ce 0).act with
    | [a] => a.reads.map (fun q => (q.src.toNat, q.len)) = [(0x3000000000000100, 64)]
    | _ => false) = true := by decide +kernel

/-- The copy of `copyWaiting` while it runs. -/
def copying : State := nextOf (.descriptorStart 0 0 [] []) copyWaiting

def panRead : Token := { token .readData (posUnit 0 5) 0 64 (List.replicate 64 1) with origin := .ce 0 0 0 }

def panPiece : Piece := { seq := 0, src := 0x1000000000000040, len := 64, plane := 0, row := 0, x := 0 }

def panReader : ActDesc :=
  { id := 0, idx := 0, scratch := 0, desc := Desc.ofBytes [] 0 0, sem := none, cur := none, nextSeq := 1, reads := [panPiece], buf := [],
    bufDst := 0, outq := [], outstanding := 1, flush := 0, stopped := false }

/-- A copy that reads pan column 0 and waits for its data token. -/
def panCopy (t : Token := panRead) : State := withToken (issuing 7 4 0 { ce0 := { act := [panReader] } }) t
def ackToken : Token := { token .ack 0 0 0 with origin := .ce 0 0 0 }

theorem test_hyp_CopyTokensArrive :
    (copying.working = true ∧ ∃ a pc rest, ((copying.core 0).ce 0).find 0 = some a ∧ a.reads = pc :: rest ∧
      copying.place pc.src.toNat = .scratch 0 0x100 ∧ copying.wayHeld 0 0 = false ∧ (copying.core 0).act ≠ .retention) ∧
    (((panCopy.core 0).ce 0).find 0 = some panReader ∧ panReader.reads = panPiece :: [] ∧
      (∀ q off, panCopy.place panPiece.src.toNat ≠ .scratch q off) ∧
      panCopy.net.find? (fun t => t.kind = .readData && t.origin = .ce 0 0 0 && t.seq = panPiece.seq) = some panRead ∧
      panCopy.arriving panRead.id [.readData] = some panRead) ∧
    ((panCopy ackToken).arriving 0 [.ack] = some ackToken ∧ ackToken.origin = .ce 0 0 0 ∧
      ((((panCopy ackToken).take ackToken).core 0).ce 0).find 0 = some panReader) ∧
    (let s := withToken (up.setCore 0 { act := .running, wait := .planAck 3 7 }) (token .ack 0 0 0)
     s.arriving 0 [.ack] = some (token .ack 0 0 0) ∧ (token .ack 0 0 0).origin = .seq 0 ∧
       ((s.take (token .ack 0 0 0)).core 0).wait = .planAck 3 7) ∧
    (∃ t, (withToken up (token .write (posUnit 1 6) 0x30000000100FFFF8 8 (List.replicate 8 3))).arriving 0 [.write] = some t ∧
      up.place t.addr.toNat = .scratch 1 0xFFFF8 ∧ (up.core 1).act ≠ .retention ∧ up.fieldInst 0 = some t.inst ∧ 0xFFFF8 % 8 = 0 ∧
      (0xFFFF8 + t.data.length) % 8 = 0) ∧
    ((up.setCore 1 { act := .retention }).core 1).act = .retention := by
  refine ⟨⟨by decide +kernel, _, _, _, rfl, rfl, by decide +kernel, by decide +kernel, by decide +kernel⟩,
    ⟨rfl, rfl, ?_, by decide +kernel, by decide +kernel⟩, ⟨by decide +kernel, rfl, rfl⟩, by decide +kernel,
    ⟨_, rfl, by decide +kernel, by decide +kernel, by decide +kernel, rfl, rfl⟩, by decide +kernel⟩
  intro q off h
  have : panCopy.place panPiece.src.toNat = .pan 0 0x40 := by decide +kernel
  exact absurd (this.symm.trans h) (by simp)

/-- A write acknowledge takes one from the writes outstanding (R104, R112). -/
theorem test_writeAcknowledge : after (.writeAcknowledge 0) (panCopy ackToken)
    (fun t => t.net = [] && (((t.core 0).ce 0).find 0).any fun a => a.outstanding = 0) = true := by decide +kernel

/-! ### Semaphores and full/empty operations -/

theorem test_hyp_SemaphoreInstructionsLeave :
    (let o := ops [(15, 32), (3, 28), (0xFFFFFF, 0)]
     let s := issuing 6 0 o
     s.atInstr 0 6 0 o ∧ fld o 50 48 = 0 ∧ fld o 27 24 = 0 ∧ 15 = (fld o 47 32 + ((s.core 0).areg (fld o 55 51)).toNat) % 65536 ∧
       (s.core 0).afterDone (fld o 31 28) = true ∧ s.semOfCore (s.core 0) 0 15 = some 15) ∧
    (let o := ops [(16, 32), (1, 0)]
     let s := issuing 6 3 o
     s.atInstr 0 6 3 o ∧ (2 ≤ 3 → fld o 31 28 = 0) ∧ (s.core 0).afterDone (fld o 31 28) = true ∧ s.semOfCore (s.core 0) 0 16 = none) ∧
    (let o := ops [(2, 28), (1, 0)]
     let s := issuing 6 1 o { inflight := [flying 0] }
     s.atInstr 0 6 1 o ∧ fld o 50 48 = 0 ∧ fld o 27 24 = 0 ∧ (s.core 0).afterDone (fld o 31 28) = false) := by
  unfold State.atInstr; decide +kernel

/-- A SEM.ADD token of an amount for semaphore 3 of field 0, whose count is c. -/
def adding (kind : TokKind) (c n : Nat) : State := withToken { up with sem := [(3, BitVec.ofNat 24 c)] } (token kind (semUnit 0) 3 n)

theorem test_hyp_SemaphoreAddAndSub :
    Tab.sorted (adding .semAdd 0xFFFFFF 1).sem = true ∧ Tab.sorted (adding .semAdd 0xFFFFFF 1).fields = true ∧ up.fieldInst (3 / 4096) = some 0 ∧
    (adding .semAdd 0xFFFFFF 1).arriving 0 [.semAdd] = some (token .semAdd (semUnit 0) 3 1) ∧
    (adding .semSub 0 1).arriving 0 [.semSub] = some (token .semSub (semUnit 0) 3 1) ∧
    (∀ w ∈ (adding .semSub 0 1).semWaiters, w.phys ≠ 3) := by decide +kernel

/-- An ADD that would pass 16,777,215 saturates and is counted, and a SUB below zero clamps (R316). -/
theorem test_semaphore_saturates :
    after (.semaphoreAdd 0) (adding .semAdd 0xFFFFFE 5) (fun t => t.semCount 3 = 0xFFFFFF && (t.field 0).saturated = 1) = true ∧
    after (.semaphoreSub 0) (adding .semSub 4 5) (fun t => t.semCount 3 = 0 && (t.field 0).clamped = 1) = true := by decide +kernel

/-- A core in a wait, and its wait token at the semaphore memory. -/
def waitingFor (kind : TokKind) (c n : Nat) : State :=
  withToken { (up.setCore 0 { act := .waiting, wait := .semWait }) with sem := [(3, BitVec.ofNat 24 c)] } (token kind (semUnit 0) 3 n)

theorem test_hyp_WaitsAndWakes :
    (let s := waitingFor .waitge 7 7
     let t := token .waitge (semUnit 0) 3 7
     s.arriving 0 [.waitge] = some t ∧ (s.take t).stillWaits 0 t.seq = true ∧ s.fieldInst 0 = some t.inst) ∧
    (let s := waitingFor .waitsub 7 7
     let t := token .waitsub (semUnit 0) 3 7
     s.arriving 0 [.waitsub] = some t ∧ (s.take t).stillWaits 0 t.seq = true ∧ t.n ≤ ((s.take t).semCounted 3).semCount 3) ∧
    (let s := { waitingFor .waitsub 6 7 with zen := { cfg with insts := [instRec 0 true] } }
     let t := token .waitsub (semUnit 0) 3 7
     s.arriving 0 [.waitsub] = some t ∧ (s.take t).stillWaits 0 t.seq = true ∧ ((s.take t).semCounted 3).semCount 3 < t.n ∧
       s.fieldConfid 0 = true) ∧
    (let s := waitingFor .wake 0 0
     let t := token .wake (semUnit 0) 3 0
     s.arriving 0 [.wake] = some t ∧ t.origin = .seq 0 ∧ (s.take t).stillWaits 0 t.seq = true) := by decide +kernel

/-- WAITSUB of the whole count takes it to zero in one step and sends a wake token (R314, R318). -/
theorem test_waitsub : after (.waitsub 0) (waitingFor .waitsub 7 7)
    (fun t => t.semCount 3 = 0 && t.net.map (·.kind) = [.wake] && t.semWaiters = []) = true := by decide +kernel

/-- FE operands: the pan address is in a1, and the line lies at 0x40. -/
def feOps : BitVec 56 := ops [(1, 51), (0x40, 0)]
def feCore : Core := { a := [(1, 0x1000000000000040)] }

def feToken (load : Bool) : Token :=
  { token .fe (posUnit 0 7) 0x1000000000000040 64 (List.replicate 64 6) with fe := some ⟨load, 0x1000000000000040, 0x40, false⟩ }

/-- An FE operation of core 0 at its column controller. -/
def feWaiting (load : Bool) (full : Bool) : State :=
  withToken { (up.setCore 0 { act := .waiting, wait := .fe ⟨load, 0x1000000000000040, 0x40, false⟩ }) with tags := if full then [(458752, true)] else [] }
    (feToken load)

theorem test_hyp_FullEmptyOperations :
    (let s := issuing 6 4 feOps feCore
     s.atInstr 0 6 4 feOps ∧ fld feOps 44 20 = 0 ∧ 0x40 = ((s.core 0).areg (fld feOps 50 46) + BitVec.ofNat 64 (fld feOps 19 0)).toNat ∧
       s.feTarget 0 (s.core 0) ((s.core 0).areg (fld feOps 55 51)) = some (0, 0x40)) ∧
    (let s := issuing 6 5 feOps feCore
     s.atInstr 0 6 5 feOps ∧ fld feOps 45 45 = 0 ∧ (s.core 0).readUe 0x40 64 = false ∧
       s.feTarget 0 (s.core 0) ((s.core 0).areg (fld feOps 55 51)) = some (0, 0x40)) ∧
    (let s := issuing 6 4 feOps { a := [(1, 0x1000000000100040)] }
     s.atInstr 0 6 4 feOps ∧ s.feTarget 0 (s.core 0) ((s.core 0).areg (fld feOps 55 51)) = none) ∧
    (let s := feWaiting true true
     let t := feToken true
     s.arriving 0 [.fe] = some t ∧ t.origin = .seq 0 ∧ t.fe = some ⟨true, 0x1000000000000040, 0x40, false⟩ ∧
       s.place t.addr.toNat = .pan 0 0x40 ∧ (Tab.get {} s.panCtl 0).retraining = false ∧ s.fieldInst 0 = some t.inst ∧
       (s.take t).stillWaits 0 t.seq = true ∧ s.panKey 0 0x40 = some (64 * 458752) ∧ Tab.get false s.tags 458752 = true ∧
       (∀ x ∈ s.feWaiters, ¬ (x.pos = 0 ∧ x.block = 1))) ∧
    (let s := feWaiting true false
     Tab.get false s.tags 458752 ≠ true ∧ s.arriving 0 [.fe] = some (feToken true) ∧ (s.take (feToken true)).stillWaits 0 0 = true ∧
       (s.feWaiters.filter fun x => x.pos = 0).length < 32) ∧
    (let s := { feWaiting true false with feWaiters := List.replicate 32 ⟨9, 0, 1, 0, 0, ⟨true, 0, 0, false⟩, []⟩ }
     s.arriving 0 [.fe] = some (feToken true) ∧ 32 ≤ (s.feWaiters.filter fun x => x.pos = 0).length) ∧
    (let s := up.setCore 0 { act := .running, wait := .feRetry 5000000000 ⟨true, 0x1000000000000040, 0x40, false⟩ }
     (s.core 0).wait = .feRetry 5000000000 ⟨true, 0x1000000000000040, 0x40, false⟩ ∧ 5000000000 ≤ s.tb.count ∧ s.held 0 = false ∧
       s.working = true ∧ s.feTarget 0 (s.core 0) 0x1000000000000040 = some (0, 0x40)) := by
  unfold State.atInstr; decide +kernel

/-- A store to an empty block writes it, fills its tag and wakes the core (R140). -/
theorem test_feStore : after (.feArrival 0) (feWaiting false false) (fun t =>
    t.panRead 0 0x40 64 = List.replicate 64 6 && Tab.get false t.tags 458752 && t.net.map (·.kind) = [.wake]) = true := by decide +kernel

/-! ### Retention, pan DRAM and the granary -/

theorem test_hyp_RetentionAndMarch :
    (let c := up.core 0
     c.act = .idle ∧ c.retain = true ∧ c.ce0.idle = true ∧ c.ce1.idle = true ∧ up.posCode 0 = 0 ∧ c.march.busy = 0 ∧ up.held 0 = false ∧
       up.working = true) ∧
    (let s := up.setCore 879 { act := .retention, waking := some 5000000000 }
     (s.core 879).waking = some 5000000000 ∧ (s.core 879).act = .retention ∧ 5000000000 ≤ s.tb.count) ∧
    up.regOk = true ∧ bit (1#32).toNat 0 = true ∧ bit (0#32).toNat 0 = false ∧ Tab.sorted up.cores = true ∧
    bits (0xFFFF0001#32).toNat 1 0 = 1 ∧ bits (0xFFFF0002#32).toNat 1 0 = 2 ∧
    (0 : Nat) < 880 ∧ ((up.setCore 0 { march := { busy := 1 } }).core 0).march.busy ≠ 0 ∧ up.marchAllowed 30 1 = true ∧ up.marchAllowed 3 1 = false ∧ up.marchAllowed 3 2 = true := by decide +kernel

/-- A destructive test of bank 0 leaves its bytes zero and the others as they were (R111). -/
theorem test_march_zeroes : after (.marchTestComplete 10 0 0)
    (up.setCore 10 { scratch := [(0, 9), (64, 8)], march := { banks := 1, busy := 1 } })
    (fun t => (t.core 10).byte 0 = 0 && (t.core 10).byte 64 = 8 && (t.core 10).march.done && !(t.core 10).march.fail) = true := by
  decide +kernel

/-- A read, a write and an accumulate at column 0, of the ACTIVATION region and past the fifth region. -/
def reading (addr n : Nat) : Token := token .readReq (posUnit 0 7) addr n

theorem test_hyp_PanReadsAndWrites :
    (let t := reading 0x1000000000000000 64
     let s := withToken up t
     s.place t.addr.toNat = .pan 0 0 ∧ s.panServes 0 = true ∧ s.arriving 0 [.readReq] = some t ∧
       (s.take t).carvesAll ((s.take t).ctlAllows t.inst ((s.take t).basesOf t) .read) 0 225 0 t.n = true ∧ (s.take t).mapped 0 0 t.n = true) ∧
    (let t := reading 0x1000000000500000 64
     let s := withToken up t
     s.place t.addr.toNat = .pan 0 0x500000 ∧ s.arriving 0 [.readReq] = some t ∧
       (s.take t).carvesAll ((s.take t).carveAllows t.inst .read) 0 225 0x500000 t.n = false) ∧
    (panWriting.place 0x1000000000000000 = .pan 0 0 ∧ panWriting.panServes 0 = true ∧ panWriting.arriving 0 [.write] = some panToken ∧
       0 % 64 = 0 ∧ panToken.data.length % 64 = 0) ∧
    (let t := token .write (posUnit 0 7) 0x100000000000003F 2 [1, 2]
     let s := withToken up t
     s.place t.addr.toNat = .pan 0 63 ∧ s.arriving 0 [.write] = some t ∧ ¬ (63 % 64 = 0 ∧ t.data.length % 64 = 0)) := by decide +kernel

/-- A partial write across two blocks changes its two bytes alone (R19). -/
theorem test_pan_partial : after (.panPartialWrite 0 [])
    (withToken { up with pan := [(62, 5), (29360129, 5)] } (token .write (posUnit 0 7) 0x100000000000003F 2 [1, 2]))
    (fun t => t.panRead 0 62 4 = [5, 1, 2, 5]) = true := by decide +kernel

theorem test_hyp_PanWriteFrame :
    Memory.wf up.pan = true ∧ (∀ i < 64, ∃ a ∈ [205537216 + i], up.panKey 0 (0x1FFC0 + i) = some a) ∧
    (∀ i < 64, ∀ j < 64, up.panKey 0 (0x1FFC0 + i) = up.panKey 0 (0x1FFC0 + j) → i = j) := by
  refine ⟨by decide, by decide +kernel, by decide +kernel⟩

/-- A column's last block lies at the end of its layer 7, whatever its column. -/
theorem test_hyp_PanErrorsAreDecoded : up.panKey 879 (0x0DFFFFFF / 64 * 64) = some 206695301056 ∧
    Tab.sorted up.panCtl = true ∧ Tab.get false up.panUe (206695301056 / 64) = false ∧
    symbolErrors (slice [1] 0 72) = 1 ∧ symbolErrors (slice (List.replicate 72 0) 0 72) = 0 ∧ symbolErrors (slice [1, 1, 1, 1, 1] 0 72) = 5 := by
  decide +kernel

/-- One wrong symbol of a block is corrected and counted (R406). -/
theorem test_pan_corrects :
    (let t := up.panDecode 0 0 [7]
     t.pan = [] ∧ t.panUe = [] ∧ (Tab.get {} t.panCtl 0).corrected = 1) := by decide +kernel

/-- Five wrong symbols close to no codeword are uncorrectable, with the data as read (R406). -/
theorem test_code_uncorrectable :
    rsRead (List.replicate 64 0) [1, 2, 3, 4, 5] = .uncorrectable ([1, 2, 3, 4, 5] ++ List.replicate 59 0) := by decide +kernel

/-- An error that is itself a codeword is not noticed (R405, R406). -/
theorem test_code_unnoticed :
    rsRead (List.replicate 64 0) (List.replicate 63 0 ++ [9] ++ checkBytes (List.replicate 63 0 ++ [9])) =
      .wrong false (List.replicate 63 0 ++ [9]) := by decide +kernel

theorem test_hyp_SumpsGranaryAndScrub :
    (let t := token .accumulate (posUnit 0 7) 0x1000000000000000 4 [0x80, 0x3F, 0x80, 0x3F]
     let s := withToken up t
     s.place t.addr.toNat = .pan 0 0 ∧ s.panServes 0 = true ∧ s.arriving 0 [.accumulate] = some t ∧
       (s.take t).carvesAll ((s.take t).ctlAllows t.inst [] .acc) 0 225 0 (2 * t.data.length) = true ∧ (s.take t).mapped 0 0 (2 * t.data.length) = true) ∧
    (let t := token .readReq (granUnit 0) 0x2000000003FFFFC0 64
     let s := withToken up t
     s.granArriving 0 [.readReq] = some (t, 0x3FFFFC0) ∧ 0x3FFFFC0 + t.n ≤ s.granSize t.inst) ∧
    (let t := token .write (granUnit 0) 0x2000000003FFFFC0 64 (List.replicate 64 1)
     let s := withToken up t
     s.granArriving 0 [.write] = some (t, 0x3FFFFC0) ∧ 0x3FFFFC0 + t.data.length ≤ s.granSize t.inst) ∧
    (let t := token .accumulate (granUnit 0) 0x2000000003FFFFF8 4 [0, 0, 0, 0]
     let s := withToken up t
     s.granArriving 0 [.accumulate] = some (t, 0x3FFFFF8) ∧ 0x3FFFFF8 + 2 * t.data.length ≤ s.granSize t.inst) ∧
    up.working = true ∧ 12884901887 < 12884901888 ∧ 879 = 3229614079 * 64 / columnBytes ∧ 879 < 880 ∧ up.fence.retired.contains 879 = false := by decide +kernel

/-- A granary write is read back through the other channel's block as it was (R22). -/
theorem test_granary :
    (let w := nextOf (.granaryWrite 0 []) (withToken up (token .write (granUnit 0) 0x2000000000000200 64 (List.replicate 64 4)))
     w.granBytes 0x200 64 = List.replicate 64 4 ∧ w.granBytes 0x1C0 64 = List.replicate 64 0 ∧ w.net.map (·.kind) = [.ack] ∧
       after (.granaryRead 0 []) (withToken w (token .readReq (granUnit 0) 0x2000000000000200 64))
         (fun t => t.net.map (·.data) = [List.replicate 64 4]) = true) := by decide +kernel

/-- Accumulating 1.0 twice onto zeros leaves F32 1.0 in each target (R177, R292). -/
theorem test_sump : after (.sumpAccumulate 0 [])
    (withToken up (token .accumulate (posUnit 0 7) 0x1000000000000000 4 [0x80, 0x3F, 0x80, 0x3F]))
    (fun t => t.panRead 0 0 8 = [0, 0, 0x80, 0x3F, 0, 0, 0x80, 0x3F]) = true := by decide +kernel


/-! ### The NVS and Zenal images -/

/-- A full image of the smallest kind: 80 unassigned fields, one RESERVE region of 3 MiB in every column, four plain slots, six links. -/
def fullImage : List Byte :=
  leBytes 4 0x4C414E5A ++ leBytes 2 1 ++ leBytes 2 4 ++ leBytes 4 1792 ++ leBytes 4 5 ++ leBytes 2 0xF880 ++ leBytes 14 0 ++
  List.replicate 32 0 ++
  leBytes 2 2 ++ leBytes 2 16 ++ leBytes 4 80 ++ leBytes 4 128 ++ leBytes 4 0 ++
  leBytes 2 3 ++ leBytes 2 16 ++ leBytes 4 1 ++ leBytes 4 1408 ++ leBytes 4 0 ++
  leBytes 2 4 ++ leBytes 2 16 ++ leBytes 4 4 ++ leBytes 4 1472 ++ leBytes 4 0 ++
  leBytes 2 7 ++ leBytes 2 24 ++ leBytes 4 6 ++ leBytes 4 1536 ++ leBytes 4 0 ++
  ((List.range 80).flatMap fun f => leBytes 1 f ++ [0xFF] ++ List.replicate 14 0) ++
  (leBytes 2 0 ++ leBytes 2 879 ++ leBytes 1 4 ++ [0xFF] ++ leBytes 2 0 ++ leBytes 4 0 ++ leBytes 4 0x300000 ++ List.replicate 48 0) ++
  ((List.range 4).flatMap fun k => leBytes 1 k ++ [0, 0xFF] ++ List.replicate 13 0) ++
  ((List.range 6).flatMap fun k => leBytes 1 k ++ List.replicate 23 0) ++ List.replicate 48 0 ++ List.replicate 64 0

/-- A partial image whose scope is field 79, with no record, that extends that full image. -/
def partialImage : List Byte :=
  leBytes 4 0x4C414E5A ++ leBytes 2 1 ++ leBytes 2 1 ++ leBytes 4 256 ++ leBytes 4 6 ++ leBytes 2 0xF880 ++ [0, 1] ++ leBytes 4 5 ++
  List.replicate 8 0 ++ List.replicate 32 0 ++
  leBytes 2 8 ++ leBytes 2 16 ++ leBytes 4 1 ++ leBytes 4 128 ++ leBytes 4 0 ++ List.replicate 48 0 ++
  List.replicate 9 0 ++ [0x80] ++ List.replicate 118 0

def someKey : List Byte := List.replicate 32 0

theorem test_image_lengths : fullImage.length = 1792 ∧ partialImage.length = 256 := by decide +kernel

/-- With a total length of one byte it ends BAD_FORMAT (R57, R69). -/
theorem test_full_image_refused : (zValidateFull (fullImage.set 8 1) (some someKey)).1 = resBadFormat := by decide +kernel

/-- An NVS operation through port 1. -/
def nvsOp (op : Nat) (slot : Nat := 0) (len : Nat := 0) (got : Option (Bool × List Byte) := none) : NvsOp :=
  { op := op, slot := slot, calibration := false, fenceMap := false, port := 1, addr := 0, len := len, got := got }

theorem test_hyp_NvsCommandsStart :
    up.bar0 = true ∧ up.working = true ∧ fld (1#32) 3 0 = 1 ∧ fld (2#32) 3 0 = 2 ∧ fld (0x13#32) 3 0 = 3 ∧ fld (4#32) 3 0 = 4 ∧
    up.nvs.op = none ∧ up.nvs.staged = none ∧ ({ up.nvs with op := some (nvsOp 3) } : Nvs).op.isSome = true ∧
    ({ up.nvs with staged := some [1] } : Nvs).staged ≠ none ∧
    (let s := { up with nvs := { full := [1, 2], cycSlotB := 9999 } }
     let o : NvsOp := { op := 3, slot := fld (0x13#32) 4 4, calibration := bit (0x13#32).toNat 8, fenceMap := bit (0x13#32).toNat 9, port := 1,
                        addr := 0, len := 0 }
     o.slot = 1 ∧ s.storeImages 3 ≠ [] ∧ (packImages (s.storeImages 3)).length ≤ 0x300000 ∧ ∀ a ∈ s.storeAreas o, a.2 < 10000) := by
  decide +kernel

theorem test_hyp_NvsStoreWritesSlot :
    let s := { up with nvs := { full := [1, 2], op := some (nvsOp 3 1) } }
    s.working = true ∧ s.nvs.op = some (nvsOp 3 1) ∧ s.keyPending = false ∧ s.storeImages 3 ≠ [] ∧
      (packImages (s.storeImages 3)).length ≤ 0x300000 ∧ Memory.wf s.nvs.mem = true := by decide +kernel

/-- STORE_EFFECTIVE on slot B puts the image there and counts the cycle (R62, R65). -/
theorem test_store : after .nvsWriteComplete { up with nvs := { full := [1, 2], op := some (nvsOp 3 1) } }
    (fun t => t.nvs.op = none && t.nvs.result = 0 && t.nvs.cycSlotB = 1 && t.nvs.cycSlotA = 0 && Memory.read t.nvs.mem 0x300000 3 = [1, 2, 0]) = true := by
  decide +kernel

/-- A module that has read an image, with the full image in effect and its key as the operator's. -/
def imageReading (op : Nat) (got : Bool × List Byte) : State :=
  { up with
    zen := zFull fullImage
    insts := []
    sec := { opKey := some { key := zSigner fullImage, seq := 1, raw := [], stored := true } }
    nvs := { op := some (nvsOp op 0 got.2.length (some got)), full := fullImage } }

theorem test_hyp_ImagesAreChecked :
    (let s := imageReading 1 (true, fullImage)
     s.nvs.op = some (nvsOp 1 0 1792 (some (true, fullImage))) ∧ s.nvs.relayout = none ∧ s.working = true) ∧
    (let s := imageReading 2 (true, partialImage)
     s.nvs.op = some (nvsOp 2 0 256 (some (true, partialImage))) ∧ s.nvs.full ≠ []) ∧
    (imageReading 1 (false, [])).nvs.op = some (nvsOp 1 0 0 (some (false, []))) ∧
    padTo 1792 fullImage = fullImage ∧ padTo 256 partialImage = partialImage := by decide +kernel

theorem test_full_image_format : zFormatOk fullImage none = true := by decide +kernel

/-- Where its signature verifies, the full image passes every check (R57), and the partial image that extends it too (R73, R74). -/
theorem test_images_pass :
    (zSigned fullImage = true → (zValidateFull fullImage (some (zSigner fullImage))).1 = 0) ∧
    (zSigned partialImage = true → (zValidatePartial (zFull fullImage) partialImage 5 (some (zSigner partialImage))).1 = 0) := by
  constructor
  · intro h
    have h2 : leAt fullImage 0x10 2 = 0xF880 ∧ ¬ leAt fullImage 0x12 1 > 0xB0 ∧ reservedOk fullImage = true ∧ (zFull fullImage).ok = true := by
      decide +kernel
    simp [zValidateFull, zChecks, h, test_full_image_format, h2, resOk]
  · intro h
    have h1 : zFormatOk partialImage (some 5) = true := by decide +kernel
    have h2 : leAt partialImage 0x10 2 = 0xF880 ∧ ¬ leAt partialImage 0x12 1 > 0xB0 ∧ reservedOk partialImage = true := by decide +kernel
    have h3 : ((zFull fullImage).merge partialImage).ok = true ∧ partialInScope (zFull fullImage) ((zFull fullImage).merge partialImage) partialImage = true ∧
        scopeSplit (zFull fullImage) (zScope partialImage) = false ∧
        scopeSplit ((zFull fullImage).merge partialImage) (zScope partialImage) = false := by decide +kernel
    simp [zValidatePartial, zChecks, h, h1, h2, h3, resOk]

/-- Without a key that is the image's, it ends BAD_SIGNATURE; a read that the host failed, HOST_READ_FAULT (R63, R67). -/
theorem test_image_ends : (zValidateFull fullImage none).1 = resBadSignature ∧
    after .imageReadComplete (imageReading 1 (false, [])) (fun t => t.nvs.op = none && t.nvs.result = resHostReadFault) = true := by
  refine ⟨?_, by decide +kernel⟩
  simp [zValidateFull, zChecks, test_full_image_format, resBadSignature]

def layout (full : Bool) : Relayout := { image := [1], cfg := cfg, scope := if full then [] else [79], full := full }

theorem test_hyp_ConfigurationTakesEffect :
    up.working = true ∧ ({ up.nvs with relayout := some (layout true) } : Nvs).relayout = some (layout true) ∧ (layout true).full = true ∧
    (layout false).full = false ∧ (∀ f ∈ (layout false).scope, 2 ∉ (up.region f).held) ∧
    (let s := up.updInst 0 fun x => { x with adopt := some (1, 9), state := .adopting }
     (s.inst 0).adopt = some (1, 9) ∧ (s.inst 0).state = .adopting ∧ s.instBusy 0 = false ∧ s.nvs.relayout = none) := by decide +kernel

/-! ### Power, reset and start-up -/

theorem test_hyp_PowerAndResetStartUp :
    State.reset.mgt.powered = false ∧ 40000 < 40001 ∧ State.reset.mgt.mateClosed = true ∧ State.reset.mgt.disconnected = false ∧
    up.mgt.powered = true ∧ up.mgt.mateClosed = true ∧ up.mgt.disconnected = false ∧ 10000 ≤ 10000 ∧ 9999 < 10000 ∧ 1 < 2 ∧
    ({ up with mgt := { up.mgt with stage := 0 } } : State).mgt.halted = false ∧
    ({ up with mgt := { up.mgt with stage := 0 } } : State).working = true := by
  decide

/-- PERST# released during stage 0 trains its port once that has passed, and a configuration request before BAR0 answers gets Request Retry
Status (R71). -/
theorem test_perst :
    (let s := nextOf (.perstDeassert 1) { up with mgt := { up.mgt with stage := 0 } }
     (s.port 1).perst = true ∧ (s.port 1).training = false ∧
       after (.startupStageComplete true [] []) s (fun t => (t.port 1).training && t.mgt.stage = 1) = true) ∧
    after (.configurationRequest 0 none) { up with mgt := { up.mgt with stage := 2 } } (fun t => (t.port 0).retryStatus = 1) = true ∧
    after (.configurationRequest 0 (some true)) up (fun t => (t.port 0).cfgDone = 1 && (t.port 0).ats) = true := by decide +kernel

/-- An input at exactly 40 V does not start the module (R440). -/
theorem test_start_threshold : after (.startThreshold 40000) State.reset (fun t => !t.mgt.powered) = true ∧
    after (.startThreshold 40001) State.reset (fun t => t.mgt.powered && t.mgt.stage = 0) = true := by decide +kernel

/-- A module in a stage of start-up. -/
def starting (stage : Nat) : State := { mgt := { powered := true, stage := stage } }

theorem test_hyp_StartUpStages :
    (∀ k < 9, (starting k).mgt.powered = true ∧ (starting k).mgt.halted = false ∧ (starting k).working = true) ∧ (8 : Nat) < 9 ∧
    (let s := { starting 2 with sec := { (starting 2).sec with floors := [(0, 1)] } }
     s.mgt.stage = 2 ∧ s.copyPasses [2, 3] 1 (Tab.get 0 s.sec.active 1) = false ∧ s.copyPasses [2, 3] 1 (1 - Tab.get 0 s.sec.active 1) = false) := by
  decide +kernel

/-- A failed stage halts start-up and shows the stage (R72). -/
theorem test_stage_fails : after (.startupStageComplete false [] []) (starting 7)
    (fun t => t.mgt.halted && t.mgt.failedStage = 7 && t.mgt.stage = 7) = true := by decide +kernel

/-! ### Tokens, base slots and streams -/

/-- Two tokens on one channel from region 0 to region 79 (quadrants 0 and 3, diagonal) or from region 0 to region 1 (quadrant 0). -/
def pair (dst : Nat) : List Token :=
  [token .write (posUnit dst 7) 0 0, { token .write (posUnit dst 7) 0 0 with id := 1 }]

theorem test_hyp_TokensKeepOrder_held :
    (let t := { token .write (posUnit 11 7) 0 0 with path := [0, 80, 1] }
     let s := { up.updRegion 80 (fun g => { g with held := [2] }) with net := [t] }
     s.net = [] ++ t :: [] ∧ (∀ u ∈ ([] : List Token), u.id ≠ t.id) ∧ t.path = [0] ++ 80 :: [1] ∧ (∀ x ∈ [0], s.held x = false) ∧ s.held 80 = true ∧
       s.working = true ∧ t.kind ∈ [TokKind.write] ∧ (s.stall 0 [.write]).net.map (·.path) = [[80, 1]]) := by decide +kernel

theorem test_hyp_TokensKeepOrder :
    (let s := { up with net := pair 11 }
     s.net = [token .write (posUnit 11 7) 0 0] ++ { token .write (posUnit 11 7) 0 0 with id := 1 } :: [] ∧
       (∀ u ∈ [token .write (posUnit 11 7) 0 0], u.id ≠ 1) ∧
       diagonal (quadrant (unitRegion (posUnit 0 0))) (quadrant (unitRegion (posUnit 11 7))) = false ∧ s.arriving 1 [.write] = none) ∧
    (let s := { up with net := pair 879 }
     diagonal (quadrant (unitRegion (posUnit 0 0))) (quadrant (unitRegion (posUnit 879 7))) = true ∧ s.working = true ∧ s.held 79 = false ∧
       s.answerWay { token .write (posUnit 879 7) 0 0 with id := 1 } = true ∧ (s.arriving 1 [.write]).isSome = true) := by decide +kernel

/-- A module with base slots in these states, by number. -/
def slots (x : List (Nat × Slot)) (cmd : Option (Nat × Nat × Bool) := none) : State := { up with thr := { slots := x, cmd := cmd } }

theorem test_hyp_BaseSlotCommands :
    up.bar0All = true ∧ up.working = true ∧ up.thr.cmd = none ∧ (up.slotRec? 0).any (fun r => !r.fork) = true ∧
    (up.slotRec? 2).any (fun r => !r.fork) = true ∧ fld (1#32) 2 0 = 1 ∧ fld (2#32) 2 0 = 2 ∧ fld (0x83#32) 2 0 = 3 ∧ fld (0x83#32) 7 6 = 2 ∧
    fld (4#32) 2 0 = 4 ∧ fld (5#32) 2 0 = 5 ∧
    (slots [] (some (1, 0, false))).thr.cmd = some (1, fld (4#32) 5 4, false) ∧ (slots [] (some (4, 0, false))).thr.cmd.isSome = true ∧
    (slots [] (some (4, 0, false))).thr.cmd ≠ some (1, fld (4#32) 5 4, false) ∧
    ((slots [(3, { state := .retiring })]).slot 3).state = .retiring ∧ ((slots [(3, { state := .retiring })]).slot 3).zeroing = false ∧
    ((slots [(3, { state := .retiring, zeroing := true })]).slot 3).zeroing = true ∧
    ((slots [(3, { state := .staging, zeroing := true })]).slot 3).state ≠ .retiring ∧
    ((slots [(1, { state := .staging, copyFrom := some (0, 0, 5), forkEntry := some 3 })]).slot 1).copyFrom = some (0, 0, 5) := by
  decide +kernel

/-- SWITCH from slot 0 to slot 2 tells the reader and retires slot 0 (R204, R205). -/
theorem test_switch : after (.switch 0x83) (slots [(0, { state := .active }), (2, { state := .ready, digest := 5 })])
    (fun t => (t.slot 0).state = .retiring && (t.slot 2).state = .active && (t.inst 0).produced = 1) = true := by decide +kernel

/-- A message from offset 0x04, and as it is received with its tag (R279). -/
def plainMsg (kind addr arg tag : Nat) (payload : List Byte) (status : Nat := 0) : List Byte :=
  leBytes 1 kind ++ leBytes 1 status ++ leBytes 2 0 ++ leBytes 4 tag ++ leBytes 8 addr ++ leBytes 4 arg ++ leBytes 8 0 ++ payload
def frame (i : Nat) (plain : List Byte) : List Byte := leBytes 2 plain.length ++ leBytes 1 i ++ [0] ++ plain ++ List.replicate 16 0

def session (i : Nat) : Session :=
  { inst := i, live := true, txKey := [1], rxKey := [2], tx := [], rx := [], renewing := false, oldKey := none, oldRx := [], oldVcs := [] }

/-- Link 0 up, with a session for instance 0 and the module's, and one message received whole. -/
def receiving (vc i : Nat) (plain : List Byte) (s : State := up) : State :=
  { s with links := [(0, { state := .up, electrical := true, capOk := true, sessions := [session 0, session 0xFF],
                           inStream := [(vc, frame i plain)] })] }

/-- A STREAM_ABORT of slot 0. -/
def abortMsg : List Byte := plainMsg 6 0 5 0 (List.replicate 16 0)

theorem test_hyp_incoming :
    (receiving 2 0xFF (plainMsg 5 0 0 0 [1])).incoming 0 2 0xFF 1 (frame 0xFF (plainMsg 5 0 0 0 [1])) (plainMsg 5 0 0 0 [1]) ∧
    (receiving 2 0 (plainMsg 5 0 0 0 [1])).incoming 0 2 0 1 (frame 0 (plainMsg 5 0 0 0 [1])) (plainMsg 5 0 0 0 [1]) ∧
    (receiving 0 0xFF abortMsg).incoming 0 0 0xFF 1 (frame 0xFF abortMsg) abortMsg ∧
    (receiving 0 0 (plainMsg 1 0x1000000000000000 0 7 [1])).incoming 0 0 0 1 (frame 0 (plainMsg 1 0x1000000000000000 0 7 [1]))
      (plainMsg 1 0x1000000000000000 0 7 [1]) ∧
    (receiving 0 0 (plainMsg 2 0x3000000000000000 4096 7 [])).incoming 0 0 0 1 (frame 0 (plainMsg 2 0x3000000000000000 4096 7 []))
      (plainMsg 2 0x3000000000000000 4096 7 []) ∧
    (receiving 0 0 (plainMsg 3 0x1000000000000000 0 7 [1, 2])).incoming 0 0 0 1 (frame 0 (plainMsg 3 0x1000000000000000 0 7 [1, 2]))
      (plainMsg 3 0x1000000000000000 0 7 [1, 2]) ∧
    (receiving 0 0 (plainMsg 4 0x4000000000000003 9 7 [])).incoming 0 0 0 1 (frame 0 (plainMsg 4 0x4000000000000003 9 7 []))
      (plainMsg 4 0x4000000000000003 9 7 []) ∧
    (receiving 1 0 (plainMsg 9 0 0 7 [])).incoming 0 1 0 1 (frame 0 (plainMsg 9 0 0 7 [])) (plainMsg 9 0 0 7 []) := by
  refine ⟨?_, ?_, ?_, ?_, ?_, ?_, ?_, ?_⟩ <;> (unfold State.incoming; decide +kernel)

/-- A base stream of one tensor of one MX4 code, up to its digest; the digest; and what follows it. -/
def streamHead : List Byte :=
  leBytes 4 0x52465342 ++ leBytes 2 1 ++ leBytes 2 0 ++ leBytes 4 1 ++ leBytes 4 0 ++ leBytes 8 326 ++ leBytes 8 331 ++ List.replicate 32 0
def streamTail : List Byte :=
  List.replicate 128 0 ++ leBytes 4 0 ++ [2, 7, 0, 0] ++ leBytes 4 0 ++ leBytes 4 1 ++ leBytes 4 1 ++ leBytes 8 6 ++ leBytes 8 11 ++
  List.replicate 28 0 ++ leBytes 4 2 ++ [0, 5] ++ [127] ++ leBytes 4 0
def streamBytes (digest : List Byte) : List Byte := streamHead ++ digest ++ streamTail

theorem test_stream_read : (streamRead (streamBytes (List.replicate 64 0))).map (fun ts => ts.map fun x => (x.2.1, x.2.2.1)) = some [([5], [127])] := by
  decide +kernel

/-- What that stream decodes to. -/
def streamSections : List (Tensor × List Nat × List Byte × List Byte) :=
  [({ no := 0, form := 2, fmt := 7, rot := 0, seed := 0, rows := 1, cols := 1, canon := 6, wire := 11 }, [5], [127], [0, 0, 0, 0])]

theorem slice_head (d : List Byte) (a n : Nat) (h : a + n ≤ 64) : slice (streamBytes d) a n = slice streamHead a n := by
  have hl : streamHead.length = 64 := by decide
  have h1 : a - 64 = 0 := by omega
  have h2 : n - (64 - a) = 0 := by omega
  simp [slice, streamBytes, List.drop_append, List.take_append, hl, h1, h2]

theorem slice_tail (d : List Byte) (hd : d.length = 64) (a n : Nat) (h : 128 ≤ a) :
    slice (streamBytes d) a n = slice streamTail (a - 128) n := by
  have hl : streamHead.length = 64 := by decide
  have hlen : (streamHead ++ d).length = 128 := by simp [hl, hd]
  have h1 : (streamHead ++ d).drop a = [] := List.drop_eq_nil_of_le (by omega)
  simp only [slice, streamBytes, List.drop_append, h1, List.nil_append, hlen]

theorem slice_digest (d : List Byte) (hd : d.length = 64) : slice (streamBytes d) 0x40 64 = d := by
  have hl : streamHead.length = 64 := by decide
  simp [slice, streamBytes, hl, hd]

theorem dir_same (d : List Byte) (hd : d.length = 64) : dirTensors (streamBytes d) = [slice streamTail 128 64] ∧ hdrTensors (streamBytes d) = 1 := by
  have h : hdrTensors (streamBytes d) = 1 := by rw [hdrTensors, leAt, slice_head d 8 4 (by decide)]; decide
  refine ⟨?_, h⟩
  rw [dirTensors, h]
  simp only [List.range_one, List.map_cons, List.map_nil]
  rw [slice_tail d hd _ _ (by decide)]

/-- The digest field is left out of what a stream decodes to and of its lineage digest (R203). -/
theorem stream_sections (d : List Byte) (hd : d.length = 64) : streamRead (streamBytes d) = some streamSections := by
  have hl : (streamBytes d).length = 331 := by
    have h1 : streamHead.length = 64 := by decide
    have h2 : streamTail.length = 203 := by decide +kernel
    simp [streamBytes, hd, h1, h2]
  have hh : (streamBytes d).drop 320 = streamTail.drop 192 := by
    have h1 : (streamHead ++ d).length = 128 := by simp [hd, show streamHead.length = 64 by decide]
    rw [streamBytes, List.drop_append, List.drop_eq_nil_of_le (by omega), h1]; rfl
  have hd' := dir_same d hd
  have h0 : headerOk (streamBytes d) = true := by
    simp only [headerOk, hdrSlot, leAt, hd'.2, slice_head d _ _ (show 0 + 4 ≤ 64 by decide), slice_head d _ _ (show 4 + 2 ≤ 64 by decide),
      slice_head d _ _ (show 6 + 1 ≤ 64 by decide), slice_head d _ _ (show 7 + 1 ≤ 64 by decide), slice_head d _ _ (show 0xC + 4 ≤ 64 by decide),
      slice_head d _ _ (show 0x20 + 32 ≤ 64 by decide), slice_tail d hd 0x80 128 (by decide)]
    decide +kernel
  simp only [streamRead, h0, hl, hd'.1, hdrWire, dirEnd, hd'.2, leAt, slice_head d _ _ (show 0x18 + 8 ≤ 64 by decide),
    slice_head d _ _ (show 0x10 + 8 ≤ 64 by decide), hh, Nat.mul_one, Nat.reduceAdd]
  decide +kernel

theorem stream_digest (d e : List Byte) (hd : d.length = 64) (he : e.length = 64) :
    lineageDigest (streamBytes d) streamSections = lineageDigest (streamBytes e) streamSections := by
  simp only [lineageDigest, (dir_same d hd).1, (dir_same e he).1, slice_head _ _ _ (show 0 + 0x18 ≤ 64 by decide),
    slice_head _ _ _ (show 0x20 + 32 ≤ 64 by decide), slice_tail d hd 0x80 128 (by decide), slice_tail e he 0x80 128 (by decide)]

theorem digest_length (v : BitVec 512) : (digestBytes v).length = 64 := by
  have (n m : Nat) : (leBytes n m).length = n := by
    induction n generalizing m with
    | zero => rfl
    | succ n ih => simp [leBytes, ih]
  exact this 64 v.toNat

/-- A stream whose lineage digest is its header's, and one whose is not. -/
theorem test_hyp_stream_digest :
    (∃ b, streamRead b = some streamSections ∧ digestBytes (lineageDigest b streamSections) = slice b 0x40 64) ∧
    (∃ b, streamRead b = some streamSections ∧ digestBytes (lineageDigest b streamSections) ≠ slice b 0x40 64) := by
  have hz : (List.replicate 64 (0 : Byte)).length = 64 := by simp
  have ho : (List.replicate 64 (1 : Byte)).length = 64 := by simp
  have hl := digest_length (lineageDigest (streamBytes (List.replicate 64 0)) streamSections)
  refine ⟨⟨streamBytes _, stream_sections _ hl, ?_⟩, ?_⟩
  · rw [slice_digest _ hl, stream_digest _ _ hl hz]
  · by_cases h : digestBytes (lineageDigest (streamBytes (List.replicate 64 0)) streamSections) = List.replicate 64 0
    · refine ⟨streamBytes (List.replicate 64 1), stream_sections _ ho, ?_⟩
      rw [slice_digest _ ho, stream_digest _ _ ho hz, h]; decide
    · exact ⟨_, stream_sections _ hz, by rwa [slice_digest _ hz]⟩

/-- A stream that has ended at the module. -/
def ended (consuming : Bool) (data : List Byte) : Stream :=
  { source := none, slot := 0, consuming := consuming, data := data, received := data.length, place := some [], ports := 1, remaining := 0 }

theorem test_stream_ended : (ended true (streamBytes (List.replicate 64 0))).ended = true ∧
    (ended false (streamBytes (List.replicate 64 0))).ended = true ∧ streamRead ((streamBytes (List.replicate 64 0)).set 0 0) = none := by decide +kernel

/-- With no port named a stream breaks at once; else its first bytes are asked for, and the rest when they have come (R302). -/
theorem test_start :
    after (.start 0 1) { up with thr := { up.thr with srcLen := 5000 } } (fun t => t.thr.stream.isNone && t.thr.sResult = strHost) = true ∧
    after (.start 0 5) { up with thr := { up.thr with srcLen := 5000 } } (fun t => (t.port 1).reqs.map (·.len) = [4096]) = true := by decide +kernel

/-- A READY slot becomes ACTIVE, an ACTIVE one RETIRING, and CLEAR starts zeroing a READY one (R204). -/
theorem test_slots :
    after (.activate 2) (slots [(0, { state := .ready, digest := 5 })]) (fun t => (t.slot 0).state = .active && t.thr.result = 0) = true ∧
    after (.retire 5) (slots [(0, { state := .active })]) (fun t => (t.slot 0).state = .retiring && t.thr.done) = true ∧
    after (.clear 4) (slots [(0, { state := .ready })]) (fun t => (t.slot 0).zeroing && t.thr.cmd = some (4, 0, false)) = true := by decide +kernel

theorem test_hyp_StreamCommands :
    up.working = true ∧ bit (1#32).toNat 0 = true ∧ up.bar0All = true ∧ up.thr.stream = none ∧ fld (7#32) 2 1 = 3 ∧
    ({ up.thr with srcLen := 5 } : Thr).srcLen.toNat ≠ 0 ∧ ({ up.thr with stream := some (ended false []) } : Thr).stream.isSome = true ∧
    msgKind (plainMsg 5 0 0 0 [1]) = 5 ∧ msgResp (plainMsg 5 0 0 0 [1]) = false ∧
    msgKind abortMsg = 6 ∧ msgResp abortMsg = false ∧ msgArg abortMsg = 5 ∧
    ((receiving 2 0xFF (plainMsg 5 0 0 0 [1])).thr.stream.any fun x => x.source ≠ some 0 || x.ended) = false := by decide +kernel


/-! ### Variants -/

/-- A mailbox message of 64 bytes: its code, TAG 7 and the given fields (value, offset, bytes). -/
def mail (code : Nat) (fs : List (Nat × Nat × Nat)) : List Byte :=
  leBytes 64 (code + 7 * 2 ^ 32 + (fs.map fun x => x.1 % 256 ^ x.2.2 * 256 ^ x.2.1).sum)

/-- A catalogue entry of instance 0 in a state, with generation 1 and an image of one component and 64 payload bytes. -/
def entryIn (st : EntryState) : Entry := { state := st, slot := 0, components := 1, payload := 64, len := 224 }

/-- A plaintext variant image: one component of kind 4 (one code), no lineage, 64 payload bytes. -/
def variantImage : List Byte :=
  leBytes 4 0x46415256 ++ leBytes 2 1 ++ leBytes 2 1 ++ leBytes 4 64 ++ leBytes 2 3 ++ [16, 0] ++ List.replicate 112 0 ++
  [4, 3] ++ leBytes 2 3 ++ leBytes 4 0 ++ leBytes 4 1 ++ leBytes 4 1 ++ leBytes 4 0 ++ leBytes 4 4 ++ leBytes 8 0 ++ List.replicate 64 0

/-- Slot 0 active; entry 5 in a state. -/
def catalogued (e : Entry) : State := { up with thr := { slots := [(0, { state := .active })] }, cat := [(5, e)] }

/-- A sealed image as it was read: the length of its plaintext is in its header (R384). -/
def sealedVariant : List Byte := List.replicate 8 0 ++ leBytes 8 224 ++ List.replicate 320 0

def loadingEntry : Entry := { entryIn .loading with loading := true, loadLen := 336, loadTag := 7, sealed := some (true, sealedVariant) }
def pagingEntry (started : Bool) : Entry := { entryIn .paging with paging := true, started := started, cur := { frames := if started then [128, 129] else [] } }

/-- A catalogue entry, with the VARIANT region alone. -/
def inVariantRegion (e : Entry) : State :=
  { catalogued e with
    zen := { cfg with carves := [{ first := 0, last := 0, kind := 1, owner := 0, tagged := false, offset := 0, size := 0x100000 }] } }

theorem test_hyp_fromMailbox :
    up.fromMailbox 0 0 false 1 (mail 1 []) ∧ up.fromMailbox 0 0 false 2 (mail 2 [(0x00010005, 8, 4)]) ∧ up.fromMailbox 0 0 false 3 (mail 3 []) ∧
    up.fromMailbox 0 0 false 4 (mail 4 []) ∧ up.fromMailbox 0 0 false 5 (mail 5 [(1, 8, 1)]) ∧ up.fromMailbox 0 0 false 0x10 (mail 0x10 []) ∧
    up.fromMailbox 0 0 false 0x11 (mail 0x11 []) ∧ up.fromMailbox 0 0 false 0x12 (mail 0x12 []) ∧ up.fromMailbox 0 0 false 0x13 (mail 0x13 []) ∧
    up.fromMailbox 0 0 false 0x14 (mail 0x14 []) ∧ up.fromMailbox 0 0 false 0x20 (mail 0x20 []) ∧ up.fromMailbox 0 0 false 0x30 (mail 0x30 []) ∧
    up.fromMailbox 0 0 false 0x31 (mail 0x31 []) ∧ up.fromMailbox 0 0 false 0x32 (mail 0x32 []) ∧ up.fromMailbox 0 0 false (leAt (mail 0x77 []) 0 1) (mail 0x77 []) ∧
    leAt (mail 0x77 []) 0 1 ∉ knownCodes := by
  refine ⟨?_, ?_, ?_, ?_, ?_, ?_, ?_, ?_, ?_, ?_, ?_, ?_, ?_, ?_, ?_, ?_⟩ <;> (try unfold State.fromMailbox) <;> decide +kernel

theorem test_hyp_VariantCommands :
    ((up.debited 0).msgEntry 0 (mail 4 [(9, 8, 4)]) = .error stUnknown) ∧
    (((catalogued (entryIn .held)).debited 0).msgEntry 0 (mail 2 [(0x00010005, 8, 4)]) = .ok 5) ∧
    (((catalogued (entryIn .resident)).debited 0).entry 5).state = .resident ∧
    (((catalogued (entryIn .held)).debited 0).entry 5).state = .held := by decide +kernel

theorem test_hyp_VariantCommands_fork :
    (let t := (catalogued (entryIn .held)).debited 0
     t.forkRefusal 1 0 = 0 ∧ t.forkRefusal 2 0 ≠ 0 ∧ (t.slot 0).state = .active ∧ (t.slotRec? 0).any (fun r => !r.fork && bit r.readers 0) = true ∧
       ((t.slotExtents 0).map (·.2.2)).sum ≤ ((t.slotExtents 1).map (·.2.2)).sum ∧ t.freeEntry? = some 0) := by decide +kernel

theorem test_hyp_VariantCommands_load :
    (let s := inVariantRegion loadingEntry
     s.working = true ∧ (s.entry 5).loading = true ∧ s.loadRefusal 5 true sealedVariant (some variantImage) = 0 ∧
       s.loadRefusal 5 false sealedVariant none ≠ 0 ∧ (s.entry 5).sealed = some (true, sealedVariant) ∧
       s.isFork (s.entry 5).slot = false ∧ (s.entry 5).pageIn = false) := by decide +kernel

theorem test_hyp_VariantCommands_pageIn :
    (let s := inVariantRegion (pagingEntry false)
     (s.entry 5).paging = true ∧ (s.entry 5).started = false ∧ (s.entry 5).need ≤ (s.allocFrames 0 5 (s.entry 5).need).length ∧ s.pageInRoom 5 = true) ∧
    (let s := inVariantRegion (pagingEntry true)
     (s.entry 5).paging = true ∧ (s.entry 5).started = true) := by decide +kernel

/-- A load of an image whose lineage is not the slot's active one is refused LINEAGE (R218), and a delete frees an entry without pins (R213). -/
theorem test_variants :
    (catalogued loadingEntry).loadRefusal 5 true sealedVariant (some (variantImage.set 0x40 1)) = stLineage ∧
    after (.variantDelete 0 0 false (mail 2 [(0x00010005, 8, 4)])) (catalogued (entryIn .held))
      (fun t => (t.entry 5).state = .free && (t.entry 5).gen = 2 && (t.inst 0).credits = 16) = true := by decide +kernel

/-! ### Training -/

/-- A training record of one tensor (fast tier, SGD): its table at 0x10_0100, a template at 0x10_0200. -/
def record (slow : Bool) : List Byte :=
  leBytes 4 0x00010005 ++ [0, (if slow then 1 else 0), 0, 1] ++ List.replicate 24 0 ++ [0, 0, 0] ++ List.replicate 33 0 ++ leBytes 2 1 ++ leBytes 2 0 ++
  leBytes 8 0x1000000000100100 ++ leBytes 8 0x4000 ++ leBytes 8 0x1000 ++ leBytes 8 0x1000000000100200 ++ List.replicate 152 0

/-- Its table: one row of one column; on the slow tier the arrays lie in the granary. -/
def table (slow : Bool) : List Byte :=
  let a (k : Nat) : Nat := if slow then 0x2000000000000000 + 0x100 * k else 0x1000000000100400 + 0x100 * k
  leBytes 4 1 ++ leBytes 4 1 ++ leBytes 8 (a 0) ++ leBytes 8 (a 1) ++ leBytes 8 (a 2) ++ leBytes 8 0x1000000000100800 ++
  leBytes 8 (if slow then a 3 else 0) ++ leBytes 8 (if slow then 0 else a 4) ++ List.replicate 40 0

/-- A template for the one tensor: a component of kind 4 in F32. -/
def template : List Byte :=
  leBytes 4 0x46415256 ++ leBytes 2 1 ++ leBytes 2 1 ++ leBytes 4 64 ++ leBytes 2 3 ++ [16, 0] ++ List.replicate 112 0 ++
  [4, 0] ++ leBytes 2 3 ++ leBytes 4 0 ++ leBytes 4 1 ++ leBytes 4 1 ++ leBytes 4 0 ++ leBytes 4 4 ++ leBytes 8 0

/-- Record 0 of instance 0 open at 0x10_0000, with its table and template in memory. -/
def opened (t : Train := {}) (upd : Upd := {}) : State :=
  { ((catalogued (entryIn .held)).panWrite 0 0x100000 (openRecord (record false) ++ table false)).panWrite 0 0x100200 template with
    train := [(0, { t with inst := 0, isOpen := true, addr := 0x1000000000100000 })], upd := upd }

def update : UpdEntry :=
  { index := 0, step := 4, skip := true, scale := 0, lr := 0, beta1 := 0, beta2 := 0, eps := 0, wd := 0, skipped := 0 }

def snapAsked (captured : Option Nat) : Snap :=
  { tag := 9, dest := 0, link := 0, rinst := 0, rslot := 0, addr := 0, key := [], captured := captured, image := [] }

theorem test_hyp_TrainingCommands :
    (let t := (catalogued (entryIn .held)).debited 0
     padTo 256 (record false) = record false ∧ t.recordOk 0 0x1000000000100000 (record false) (table false) = true ∧
       t.recordOk 0 0x1000000000100000 (record true) (table true) = true ∧ t.recordOk 0 0x1000000000100001 (record false) (table false) = false ∧
       t.variantHandle 0 (leAt (record false) 0 4) = .ok 5 ∧ up.variantHandle 0 (leAt (record false) 0 4) = .error stUnknown) ∧
    ((opened { zeroTag := some 3 }).train1 0).zeroTag = some 3 ∧
    (up.debited 0).msgTrain 0 (mail 0x12 []) = none ∧ (opened.debited 0).msgTrain 0 (mail 0x12 []) = some 0 ∧
    (opened.debited 0).tr 0 4 1 = 1 ∧ (snapAsked (some 3)).flushed = none ∧ ({ snapAsked (some 3) with flushed := some true } : Snap).flushed.isSome = true ∧ leAt (mail 0x13 []) 0xE 1 = 0 ∧ ((opened.debited 0).template 0).isSome = true ∧
    leAt (mail 0x13 []) 0xA 1 = 0 ∧ leAt (mail 0x13 []) 0x10 8 < 2 ^ 57 ∧ (opened.debited 0).trainJob 0 = false ∧
    ((opened.debited 0).train1 0).closeTag = none ∧
    ((opened { snaps := [snapAsked (some 3)] }).train1 0).snaps.find? (fun q => q.captured.isSome) = some (snapAsked (some 3)) ∧
    (let s := opened {} { queue := [update] }
     s.upd.run = none ∧ s.upd.queue.find? (fun u => (s.train1 u.index).refreshTo.isNone) = some update) ∧
    (opened {} { run := some update }).upd.run = some update ∧ ((opened { refreshTo := some 3 }).train1 0).refreshTo = some 3 := by decide +kernel

/-- TRAIN_OPEN asks its port for the record; once that and the table are there, index 0 is open, in memory too, and answered (R243, R244). -/
theorem test_trainOpen :
    (let msg := mail 0x10 [(0x1000000000100000, 0x18, 8)]
     after (.trainOpen 0 0 false msg) (catalogued (entryIn .held)) (fun t => (t.port 0).reqs.map (·.len) = [256] && (t.inst 0).credits = 15) = true ∧
     (let t := (catalogued (entryIn .held)).openTrain 0 msg (record false) true (table false)
      (t.train1 0).isOpen = true ∧ t.tr 0 4 1 = 1 ∧ (t.inst 0).produced = 1)) := by decide +kernel

/-- An update entry that is skipped starts, and when it completes its buffer's step is recorded and the skip counted (R262, R263). -/
theorem test_update :
    after .updateEntryStart (opened {} { queue := [update] }) (fun t => t.upd.queue = [] && t.upd.run = some update) = true ∧
    after .updateEntryComplete (opened {} { run := some update }) (fun t => t.upd.run = none && t.upd.skipped = 1 && t.tr 0 0x10 8 = 4) = true := by
  decide +kernel


/-! ### Speed, admission and jobs -/

/-- Field 0 with a report: its rate, supply and the time since which it runs above its target. -/
def rated (rate mv : Nat) (since : Option Nat) (c : Caps := {}) : State :=
  (up.updRegion 0 fun g => { g with rate := rate, mv := mv, aboveSince := since }).updField 0 fun x => { x with caps := c }

theorem test_hyp_RatesRecalibrationReference :
    up.working = true ∧ up.mgt.powered = true ∧ 87 < 88 ∧ (rated 1000 700 none { thermal := some 900 }).capOf 0 = some 900 ∧
    8 ≤ up.mgt.stage ∧ up.zen.rateTarget 0 ≠ 0 ∧
    ((rated 999 799 none).region 0).rate < (rated 999 799 none).capped 0 (up.zen.rateTarget 0) ∧ ((rated 999 799 none).region 0).mv < up.zen.vCeiling 0 ∧
    (let s := rated 1100 701 (some 4900000000)
     ¬ (s.region 0).rate < s.capped 0 (s.zen.rateTarget 0) ∧ (s.region 0).aboveSince = some 4900000000 ∧ 4900000000 + 100000000 ≤ s.tb.count ∧
       s.zen.vTarget 0 < (s.region 0).mv) ∧
    up.bar0All = true ∧ bit (0x80#32).toNat 7 = true ∧ bit (0x80#32).toNat 10 = false ∧ fld (0xD7#32) 6 0 = 87 ∧ bit (0xD7#32).toNat 8 = false ∧
    bit (0x180#32).toNat 8 = true ∧ (∀ x ∈ up.adm.recalRun, x.1 ≠ 0) ∧ up.pauseFits 0 3000000 = true ∧ up.pauseHeld 0 = false ∧
    ({ up.adm with recalQueue := [0, 5] } : Adm).recalQueue = [] ++ 0 :: [5] ∧ ({ up.tb with holdover := true } : TimeBase).holdover = true ∧
    ({ up.adm with recalRun := [(3, 5000000000)] } : Adm).recalRun.find? (fun x => decide (x.2 ≤ up.tb.count)) = some (3, 5000000000) ∧
    up.tb.running = true ∧ up.tb.holdover = false ∧ up.mgt.stopped = false ∧ 5000000000 ≤ 4990000000 + 10000000 := by decide +kernel

/-- A region below its target gains 5 mV, up to V_CEILING; one above it for 100 ms loses 5 mV, down to V_TARGET (R332). -/
theorem test_keeper : after (.rateKeeperStep 0) (rated 999 798 none) (fun t => (t.region 0).mv = 800) = true ∧
    after (.rateKeeperStep 0) (rated 1100 703 (some 4900000000)) (fun t => (t.region 0).mv = 700) = true ∧
    after (.rateKeeperStep 0) (rated 1100 703 (some 4900000001)) (fun t => (t.region 0).mv = 703) = true := by decide +kernel

/-- A recalibration asked for is queued, begins when its pause fits, and has ended 3 ms later (R335); its plans' fields are stopped meanwhile. -/
theorem test_recalibration :
    after (.recalRequest 0x81) up (fun t => t.adm.recalQueue = [1]) = true ∧
    after .recalPauseStart { up with adm := { up.adm with recalQueue := [1] } } (fun t =>
      t.adm.recalQueue = [] && t.adm.recalRun = [(1, 5003000000)] && t.held 1) = true ∧
    after (.recalForce 0x181) up (fun t => t.adm.recalRun = [(1, 5003000000)] && t.held 1) = true ∧
    after .recalPauseEnd { (up.stopRegion 1 1) with adm := { up.adm with recalRun := [(1, 5000000000)] } }
      (fun t => t.adm.recalRun = [] && t.adm.recalDone && !t.held 1) = true := by decide +kernel

/-- Holdover: the reference back within 10 ms ends it, and past that it is a fatal event (R339, R422). -/
theorem test_holdover :
    (let s := nextOf .referenceLost up
     s.tb.holdover = true ∧ s.tb.refLost = true ∧ after .referenceReturn s (fun t => t.tb.locked && !t.tb.holdover) = true ∧
       after .holdoverExpiry { s with tb := { s.tb with count := 5010000000 } } (fun t => t.mgt.stopped && t.mgt.faultPin) = true) := by decide +kernel

/-- A commit chunk with SEQ q. -/
def commitChunk (q : Nat) : List Byte := List.replicate 56 0 ++ leBytes 4 q ++ leBytes 4 0

/-- A job of instance 0 on field 0 with one task, its table at 0x0; `cls` 2 is class B, TRAIN_INDEX none. -/
def rawJob (rows : Nat := 0) : List Byte :=
  leBytes 4 0x55 ++ [2, 0] ++ leBytes 2 1 ++ List.replicate 40 0 ++ leBytes 10 1 ++ leBytes 2 0 ++ leBytes 2 16 ++ leBytes 2 0 ++
  leBytes 8 0x1000000000000000 ++ leBytes 2 1 ++ leBytes 2 rows ++ leBytes 2 0xFFFF ++ List.replicate 54 0 ++ [0xFF] ++ List.replicate 123 0

def job (phase : JobPhase) : Job := { inst := 0, port := 0, seq := 1, raw := rawJob, phase := phase, fields := [0] }

/-- The task-table entry of that task: 2 words of program at 0x1000, its save area at 0x2000, logical core 3. -/
def taskEntry : List Byte :=
  leBytes 8 0x1000000000001000 ++ leBytes 2 2 ++ [0, 3] ++ leBytes 4 0 ++ leBytes 8 0x1000000000002000 ++ List.replicate 104 0

def withJob (j : Job) : State := { up.panWrite 0 0 taskEntry with jobs := [j] }

/-- The core of that task in a wait, and its task. -/
def jobCore (w : SeqWait) : Core :=
  { act := .waiting, inst := 0, seq := 1, taskNo := 0, wait := w, saveArea := 0x1000000000002000, semCount := 16 }
def jobTask (arrived halted : Bool) : Task := { taskOf taskEntry with arrived := arrived, halted := halted }

theorem test_hyp_IntakeAndAdmission :
    up.working = true ∧ up.bar0All = true ∧ up.pageOn 0 0 = true ∧ (up.inst 0).tdi ≠ 3 ∧ (commitChunk 1).length = 64 ∧
    leAt (commitChunk 1) 0x38 4 = (up.inst 0).nextSeq ∧ (up.inst 0).state = .active ∧ (leBytes 8 5).length = 8 ∧
    ({ up with jobs := [job .undecided] } : State).jobs.find? (fun j => j.phase = .undecided) = some (job .undecided) ∧
    ({ up with adm := { refusing := true } } : State).jobRefusal (job .undecided) ≠ 0 ∧ (1 : Nat) ≤ 7 ∧
    (withJob { job .running with dispatchTb := 4998000000 }).job? 0 1 = some { job .running with dispatchTb := 4998000000 } ∧
    (job .running).live = true ∧ (job .running).promised = true ∧ up.explained (job .running) = false ∧ up.suspended 0 = false ∧ (job .running).limit ≤ up.tb.count ∧ (job .running).cls ≠ 1 ∧
    4998000000 + max 2 up.adm.quantum.toNat * 1000000 ≤ up.tb.count := by decide +kernel

/-- A commit with the expected SEQ waits for its decision, and one with another SEQ is refused with a message (R365, R367). -/
theorem test_commit :
    after (.commit 0 0 false (commitChunk 1)) up (fun t => t.jobs.length = 1 && (t.inst 0).nextSeq = 2 && ((t.inst 0).slot 1).use = .pending) = true ∧
    after (.commit 0 0 false (commitChunk 2)) up (fun t => t.jobs = [] && (t.inst 0).nextSeq = 1 && (t.inst 0).produced = 1) = true := by decide +kernel

theorem test_hyp_JobsRunAndComplete :
    (let s := withJob (job .accepted)
     let j := job .accepted
     s.working = true ∧ s.job? 0 1 = some j ∧ j.phase = .accepted ∧ j.endStatus = none ∧ j.start ≤ s.tb.count ∧ s.fieldsFree j = true ∧
       s.neededNow j = false ∧ s.coresReady j [taskOf taskEntry] = true ∧ s.pinsResident j = true ∧ j.allWithdrawn = false ∧
       (let es := (List.range j.nTasks).map fun k => slice (s.panReadG j.taskTable (128 * j.nTasks)) (128 * k) 128
        es = [taskEntry] ∧ es.all (s.taskOk j) = true ∧ s.badG j.taskTable (128 * j.nTasks) = false ∧
          distinct ((es.map taskOf).map fun t => (t.fieldSlot, t.logical)) = true ∧
          ((es.map taskOf).any fun t => s.badG t.prog (8 * t.words)) = false ∧ s.retained j (es.map taskOf) = []) ∧
       (let w := s.setCore 3 { act := .retention }
        w.retained j [taskOf taskEntry] = [3]) ∧
       (let w := { s with zen := {} }
        [taskEntry].all (w.taskOk j) = false)) ∧
    (let c := jobCore .halt
     c.busy = true ∧ c.drained = true ∧ up.held 0 = false ∧ c.wait = .halt) ∧
    (let s := up.setCore 3 (jobCore (.plan 5))
     (s.core 3).wait = .plan 5 ∧ (s.core 3).ueCause = 0 ∧ s.addrOk 0 0 .write (planCopy (s.core 3).saveArea 1) 0x300 = true) ∧
    ((up.setCore 3 { jobCore (.plan 5) with ueCause := 7 }).core 3).ueCause ≠ 0 ∧
    (let s := (withJob { job .running with tasks := [jobTask false false] }).setCore 3 (jobCore (.planAck 0 5))
     (s.core 3).wait = .planAck 0 5 ∧ (s.core 3).busy = true ∧ s.job? (s.core 3).inst (s.core 3).seq = some { job .running with tasks := [jobTask false false] }) ∧
    (let j := { job .running with tasks := [jobTask true false], planId := some 5 }
     let s := withJob j
     s.job? 0 1 = some j ∧ j.phase = .running ∧ j.endStatus = none ∧ j.allArrived = true ∧ (∀ f ∈ j.fields, s.held f = false) ∧ s.refreshDue j = false ∧ s.barrierFree j = true) ∧
    (let j := { job .stopped with tasks := [jobTask false false], restarts := 3 }
     let s := withJob j
     s.job? 0 1 = some j ∧ j.phase = .stopped ∧ j.endStatus = none ∧ j.start ≤ s.tb.count ∧ s.fieldsFree j = true ∧ s.neededNow j = false ∧
       s.coresReady j (j.tasks.filter j.again) = true ∧ 4 ≤ ({ j with restarts := 4 } : Job).restarts ∧ j.ue = none ∧ j.tasks ≠ [] ∧ j.restarts < 4 ∧
       ((j.tasks.filter j.again).any fun t => (s.taskPos j t).any fun p => (s.core p).hungAt.isSome || s.mgt.fenceReq = some p) = false ∧
       ((j.tasks.filter j.again).any fun t => (s.taskPos j t).isNone) = false ∧ s.retained j (j.tasks.filter j.again) = [] ∧ j.train = none ∧
       ((j.tasks.filter j.again).any fun t => s.badG t.prog (8 * t.words) || (j.barrier ≠ 0 && s.badG (planCopy t.save j.barrier) 0x300)) = false) ∧
    (let j := { job .running with tasks := [jobTask false true] }
     let s := withJob j
     s.job? 0 1 = some j ∧ (j.phase = .running ∧ j.tasks.all (·.halted) = true) ∧ s.jobDrained 0 1 = true) := by decide +kernel

/-- DISPATCH starts the task on logical core 3 of field 0 with fresh registers (R113, R116, R366). -/
theorem test_dispatch : after (.dispatch 0 1) ((withJob (job .accepted)).setCore 3 { a := [(5, 9)] })
    (fun t => (t.core 3).act = .running && (t.core 3).a = [] && (t.core 3).saveArea = 0x1000000000002000 &&
      (t.core 3).semCount = 16) = true := by decide +kernel

/-- A task that halts is IDLE and halted; a plan's record leaves as twelve writes of 64 bytes; once they are acknowledged the task arrives, and with
every task there the barrier completes and the task goes on after its PLAN (R144 to R147). -/
theorem test_barrier :
    after (.taskEnd 3) ((withJob { job .running with tasks := [jobTask false false] }).setCore 3 (jobCore .halt))
      (fun t => (t.core 3).act = .idle && (t.jobs.map fun j => j.tasks.map (·.halted)) = [[true]]) = true ∧
    after (.planRecordWrite 3) (up.setCore 3 (jobCore (.plan 5)))
      (fun t => t.net.length = 12 && (t.core 3).wait = .planAck 12 5 && (t.core 3).planCount = 1) = true ∧
    after (.barrierArrival 3) ((withJob { job .running with tasks := [jobTask false false] }).setCore 3 { jobCore (.planAck 0 5) with planCount := 1 })
      (fun t => (t.core 3).wait = .planBarrier 1 && (t.jobs.map (·.planId)) = [some 5]) = true ∧
    after (.barrierComplete 0 1)
      ((withJob { job .running with tasks := [jobTask true false], planId := some 5 }).setCore 3 { jobCore (.planBarrier 1) with planCount := 1 })
      (fun t => (t.core 3).act = .running && (t.core 3).pi = 1 && (t.jobs.map (·.barrier)) = [1]) = true := by decide +kernel

/-- A stopped job restarts its task from its beginning, one restart more; the fifth ends it with TASK_FAULT (R414). -/
theorem test_restart :
    after (.taskRestart 0 1) (withJob { job .stopped with tasks := [jobTask false false], restarts := 3 })
      (fun t => (t.core 3).act = .running && (t.jobs.map fun j => (j.phase, j.restarts)) = [(.running, 4)]) = true ∧
    after (.taskRestart 0 1) (withJob { job .stopped with tasks := [jobTask false false], restarts := 4 })
      (fun t => (t.jobs.map (·.endStatus)) = [some stTaskFault]) = true := by decide +kernel

/-- JOB_COMPLETE of a job whose task has halted leaves its slot done with STATUS 0 (R370). -/
theorem test_jobComplete : after (.jobComplete 0 1) (withJob { job .running with tasks := [jobTask false true] })
    (fun t => t.jobs = [] && ((t.inst 0).slot 1).use = .done && leAt ((t.inst 0).slot 1).record 0 2 = 0) = true := by decide +kernel


/-! ### Tiller links -/

/-- A flit of kind k (0 DATA, 1 IDLE, 2 REPLAY) on VC 0 with sequence number q and a zero body, its CRC right when `good`. -/
def flit (k q : Nat) (good : Bool := true) : List Byte :=
  let b := leBytes 1 (k * 4) ++ [0] ++ leBytes 2 q ++ List.replicate 244 (0 : Byte)
  b ++ leBytes 8 (crc64 b + b2n (!good))

/-- Link 0 in a state, with copper in its cage. -/
def linked (l : Link) : State := { up with links := [(0, l)], mgt := { up.mgt with cages := [(0, some (1, 100))] } }

theorem test_hyp_FlitsReceived :
    (linked { electrical := true }).linkRuns 0 = true ∧ flitGood (flit 0 0 false) = false ∧ flitGood (flit 0 0) = true ∧ flitGood (flit 0 7) = true ∧
    flitKind (flit 0 0) = 0 ∧ flitSeq (flit 0 0) = (((linked { electrical := true }).link 0).rxSeq + 1) % 65536 ∧
    flitSeq (flit 0 7) ≠ (((linked { electrical := true }).link 0).rxSeq + 1) % 65536 ∧
    flitGood (flit 1 0) = true ∧ flitKind (flit 1 0) = 1 ∧ flitGood (flit 2 0) = true ∧ flitKind (flit 2 0) = 2 := by decide +kernel

/-- CRC-64 of "123456789" with the polynomial and the reflected form of R276. -/
theorem test_crc64 : crc64 [0x31, 0x32, 0x33, 0x34, 0x35, 0x36, 0x37, 0x38, 0x39] = 0x995DC9BBDF1939FA := by decide +kernel

/-- A flit replayed eight times takes its link down with cause 3 (R277, R290). -/
theorem test_replay_down : after (.replayFlit 0 0 (flit 2 0)) (linked { state := .up, electrical := true, replay := [⟨5, [], 8⟩] })
    (fun t => (t.link 0).state = .training && (t.link 0).cause = 3) = true := by decide +kernel

/-- The partner's CAPABILITY: its serial number 9, UPSTREAM and DOWNSTREAM set, instance 0. -/
def capability : List Byte :=
  leBytes 2 0xF880 ++ [0, 1, 0, 3] ++ leBytes 2 0 ++ leBytes 8 9 ++ leBytes 8 1 ++ leBytes 8 0
/-- A SESSION with a certificate of one byte. -/
def sessionMsg : List Byte := [0, 0xFF] ++ leBytes 2 1 ++ leBytes 4 0 ++ List.replicate 97 0

def clear (sub : Nat) (payload : List Byte) (l : Link) : State :=
  linked { l with electrical := true, inStream := [(0, frame 0xFF (plainMsg 6 0 sub 0 payload))] }

theorem test_hyp_LinksComeUp :
    (let s := linked { state := .training }
     s.working = true ∧ (s.link 0).state = .training ∧ (s.link 0).electrical = false ∧ s.media 0 = 1) ∧
    (let m := plainMsg 6 0 1 0 capability
     let s := clear 1 capability { state := .training }
     (clear 1 capability { state := .up }).clearMsg 0 1 = some (m, 80) ∧ s.clearMsg 0 1 = some (m, 80) ∧ s.linkRuns 0 = true ∧
       msgOk 0 0xFF m = true ∧ msgResp m = false ∧ capability = msgPayload m ∧ ((s.dropMsg 0 0 80).link 0).state = .training ∧
       (((clear 1 capability { state := .up }).dropMsg 0 0 80).link 0).state = .up ∧ (s.dropMsg 0 0 80).capCause 0 (capability.set 8 8) = 5 ∧
       (s.dropMsg 0 0 80).capCause 0 capability = 0) ∧
    (let m := plainMsg 6 5 1 0 capability
     let s := linked { electrical := true, inStream := [(0, frame 0xFF m)] }
     s.clearMsg 0 1 = some (m, 80) ∧ msgOk 0 0xFF m = false) ∧
    (let m := plainMsg 6 0 2 0 sessionMsg
     let s := clear 2 sessionMsg { state := .training, capOk := true, ephs := [(255, some 4)] }
     s.clearMsg 0 2 = some (m, 153) ∧ s.linkRuns 0 = true ∧ msgOk 0 0xFF m = true ∧ msgResp m = false ∧
       ((s.dropMsg 0 0 153).link 0).state = .training ∧ ((s.dropMsg 0 0 153).link 0).capOk = true ∧
       Tab.get none ((s.dropMsg 0 0 153).link 0).ephs 0xFF = some 4) ∧
    (let x : Session := { session 0 with tx := [(0, 2 ^ 55)] }
     let s := linked { state := .up, sessions := [x] }
     s.working = true ∧ (s.link 0).state = .up ∧ x ∈ (s.link 0).sessions ∧ x.inst = 0 ∧ x.live = true ∧ x.renewing = false ∧
       2 ^ 55 ≤ Tab.get 0 x.tx 0) := by decide +kernel

/-- A link whose CAPABILITY fits records its partner; one on a link that is up takes it down with cause 8 (R288 to R290). -/
theorem test_linkUp :
    after (.capability 0) (clear 1 capability { state := .training }) (fun t => (t.link 0).capOk && (t.link 0).partnerSerial = 9) = true ∧
    after (.capability 0) (clear 1 capability { state := .up }) (fun t => (t.link 0).cause = 8 && (t.link 0).state = .training) = true := by
  decide +kernel

/-- A running job that spans modules with span 5: its parent on link 0, or its child on link 0. -/
def spanning (child : Bool) : Job :=
  { job .running with raw := (((rawJob.set 5 8).set 0x80 5).set 0x84 (if child then 0xFF else 0)).set 0x85 (if child then 1 else 0) }

/-- An ARRIVE or COMPLETE for the first barrier of span 5. -/
def barrierMsg (sub : Nat) : List Byte := plainMsg 6 0 sub 0 (leBytes 4 5 ++ leBytes 4 1 ++ leBytes 8 1)

theorem test_hyp_PartnerMessages :
    (receiving 0 0 (plainMsg 2 0x1000000000000000 64 7 [])).incoming 0 0 0 1 (frame 0 (plainMsg 2 0x1000000000000000 64 7 []))
      (plainMsg 2 0x1000000000000000 64 7 []) ∧
    (receiving 0 0xFF (barrierMsg 3)).incoming 0 0 0xFF 1 (frame 0xFF (barrierMsg 3)) (barrierMsg 3) ∧
    (receiving 0 0xFF (barrierMsg 4)).incoming 0 0 0xFF 1 (frame 0xFF (barrierMsg 4)) (barrierMsg 4) := by
  refine ⟨?_, ?_, ?_⟩ <;> (unfold State.incoming; decide +kernel)

theorem test_hyp_PartnerMessages_clauses :
    msgResp (plainMsg 1 0x1000000000000000 0 7 [1]) = false ∧ msgKind (plainMsg 1 0x1000000000000000 0 7 [1]) = 1 ∧
    msgKind (plainMsg 3 0x1000000000000000 0 7 [1, 2]) = 3 ∧ msgKind (plainMsg 2 0x3000000000000000 4096 7 []) = 2 ∧
    up.place (msgAddr (plainMsg 2 0x3000000000000000 4096 7 [])) = .scratch 0 0 ∧ (up.core 0).act ≠ .retention ∧
    up.place (msgAddr (plainMsg 2 0x1000000000000000 64 7 [])) = .pan 0 0 ∧ msgKind (plainMsg 4 0x4000000000000003 9 7 []) = 4 ∧
    (let s := receiving 0 0xFF (barrierMsg 3) { up with jobs := [spanning true] }
     let t := s.accepted 0 0 0xFF 1 (frame 0xFF (barrierMsg 3))
     let p := msgPayload (barrierMsg 3)
     msgKind (barrierMsg 3) = 6 ∧ msgArg (barrierMsg 3) = 3 ∧ (s.spanJob p fun j => j.childLinks.contains 0) = some (spanning true) ∧
       (t.spanJob p fun j => j.childLinks.contains 0) = some (spanning true) ∧ leAt p 4 4 = (spanning true).barrier + 1 ∧
       0 ∉ (spanning true).children) ∧
    (let s := receiving 0 0xFF (barrierMsg 4) { up with jobs := [spanning false] }
     let t := s.accepted 0 0 0xFF 1 (frame 0xFF (barrierMsg 4))
     let p := msgPayload (barrierMsg 4)
     msgArg (barrierMsg 4) = 4 ∧ (t.spanJob p fun j => j.parent = 0) = some (spanning false) ∧ leAt p 4 4 = (spanning false).barrier + 1) ∧
    msgResp (plainMsg 9 0 0 7 []) = true ∧
    (let r : LinkReq := { tag := 7, kind := 1, inst := 0, origin := .ce 0 0 0, n := 0, addr := 0, len := 0, sentAt := some 4998000000 }
     (((linked { reqs := [r] }).link 0).reqs.find? fun r => r.tag = 7) = some r ∧ r.sentAt = some 4998000000 ∧
       (linked { reqs := [r] }).answered 0 0 (plainMsg 9 0 0 7 []) = some r ∧ (linked { reqs := [r] }).answerHeld 0 r = false ∧
       ((linked { reqs := [r] }).stopRegion 0 2).answerHeld 0 r = true) ∧
    (receiving 0 0 (plainMsg 2 0x3000000000000000 4096 7 [])).scratchReadWaits 0 0 (plainMsg 2 0x3000000000000000 4096 7 []) = none ∧
    ((receiving 0 0 (plainMsg 2 0x3000000000000000 4096 7 [])).stopRegion 80 2).scratchReadWaits 0 0
      (plainMsg 2 0x3000000000000000 4096 7 []) ≠ none ∧
    (receiving 0 0 (plainMsg 2 0x3000000000000000 4096 7 [])).linkAdmits 0 0 = true ∧
    (receiving 0 0 (plainMsg 2 0x3000000000000000 4096 7 [])).linkAddrOk 0 .read 0x3000000000000000 4096 = true := by decide +kernel

/-- A partner's READ of a scratchpad is answered at its bank (R282). -/
theorem test_linkRead : after (.read 0 1 (plainMsg 2 0x3000000000000000 4 7 [])) (receiving 0 0 (plainMsg 2 0x3000000000000000 4 7 [])
      (up.setCore 0 { scratch := [(1, 9)] }))
    (fun t => (t.link 0).out.map (fun m => (m.vc, m.plain.take 2, m.plain.drop 28)) = [(1, [10, 0], [0, 9, 0, 0])]) = true := by decide +kernel

theorem test_hyp_LinksGoDown :
    ((linked { electrical := true }).link 0).electrical = true ∧
    (((linked { state := .downRetrying }).link 0).state = .downRetrying ∧ (linked { state := .downRetrying }).media 0 ≠ 3) ∧
    up.bar0All = true ∧ bit (1#32).toNat 0 = true ∧ bit (2#32).toNat 0 = false ∧ ((linked {}).link 0).state = .disabled ∧
    ((linked { state := .up, electrical := true }).link 0).state ≠ .disabled ∧
    (let s := linked { state := .training, downSince := some 4000000000 }
     (s.link 0).downSince = some 4000000000 ∧ (s.link 0).lostPosted = false ∧ (s.link 0).state ≠ .up ∧ (s.link 0).state ≠ .disabled ∧
       4000000000 + 1000000000 ≤ s.tb.count) := by decide +kernel

/-- RETRAIN takes a link that is up down with cause 9, and DISABLE keeps its cause (R290, R311). -/
theorem test_retrain :
    after (.retrain 0 1) (linked { state := .up, electrical := true }) (fun t => (t.link 0).cause = 9 && (t.link 0).state = .training) = true ∧
    after (.disable 0 2) (linked { state := .up, electrical := true, cause := 4 })
      (fun t => (t.link 0).cause = 4 && (t.link 0).state = .disabled) = true := by decide +kernel

/-! ### Reports, STAGE_IN and mirrors -/

theorem test_hyp_ReportsAndMailbox :
    up.working = true ∧ fld (1#32) 3 0 = 1 ∧ up.bar0 = true ∧ up.sec.busy = false ∧ up.sec.inLen ≠ 32 ∧ 2 < 3 ∧
    ({ up with sec := { up.sec with inLen := 32 } } : State).sec.inLen = 32 ∧ up.bar0All = true ∧ up.pageOn 0 0 = true ∧
    (up.inst 0).tdi ≠ 3 ∧ (up.inst 0).state = .active ∧
    (let q : StageIn := { id := 3, tag := 7, dst := 0x1000000000100000, len := 64, got := some (true, [5]) }
     ((up.updInst 0 fun x => { x with stageIn := [q] }).inst 0).stageIn.find? (fun q => q.got.isSome) = some q ∧ q.got = some (true, [5]) ∧
       after (.stageInComplete 0) (up.updInst 0 fun x => { x with stageIn := [q] })
         (fun t => t.panRead 0 0x100000 2 = [5, 0] && (t.inst 0).stageIn = [] && (t.inst 0).produced = 1) = true) := by
  decide +kernel

/-- STAGE_IN of 100 bytes is refused, since a length is a multiple of 64 (R372). -/
theorem test_stageIn : after (.stageIn 0 0 false (mail 0x20 [(100, 0x10, 4), (0x1000000000100000, 0x18, 8)])) up
    (fun t => (t.inst 0).stageIn = [] && leAt (Tab.get [] (t.inst 0).ring 0) 2 2 = 0x79) = true := by decide +kernel

/-- Cells of a memory that hold bytes from an address upward. -/
def cells (a : Nat) : List Byte → Tab Byte
  | [] => []
  | b :: bs => (a, b) :: cells (a + 1) bs

theorem byte_skip {n : Nat} {b : Byte} {r : Tab Byte} : ∀ p : Tab Byte, (∀ e ∈ p, e.1 < n) → Memory.byte (p ++ (n, b) :: r) n = b
  | [], _ => by simp [Memory.byte, Tab.get]
  | e :: p, h => by
    have he := h e (by simp)
    have h1 : ¬ n = e.1 := by omega
    have h2 : ¬ n < e.1 := by omega
    have := byte_skip (n := n) (b := b) (r := r) p (fun x hx => h x (by simp [hx]))
    simpa [Memory.byte, Tab.get, h1, h2] using this

theorem read_cells {r : Tab Byte} : ∀ (l : List Byte) (p : Tab Byte) (a : Nat), (∀ e ∈ p, e.1 < a) →
    Memory.read (p ++ cells a l ++ r) a l.length = l
  | [], _, _, _ => rfl
  | b :: bs, p, a, h => by
    have hp : ∀ e ∈ p ++ [(a, b)], e.1 < a + 1 := by
      intro e he
      rcases List.mem_append.mp he with he | he
      · exact Nat.lt_succ_of_lt (h e he)
      · rw [List.mem_singleton.mp he]; exact Nat.lt_succ_self a
    have ih := read_cells (r := r) bs (p ++ [(a, b)]) (a + 1) hp
    simp only [List.length_cons, Memory.read, cells, List.append_assoc, List.cons_append]
    rw [byte_skip p h]
    simpa using ih

/-- A mirror of the record of the tests: the record, its table and its arrays. -/
def mirrored : List Byte := record false ++ table false ++ List.replicate 136 0
def mirroredHeader : List Byte := mirrorHeader 5 (Config.sha512 mirrored)

/-- The last 16 KiB of the granary of instance 0 hold that mirror: its first 512 bytes in channel 0, the rest, which is zero, in channel 1. -/
def mirrorGran : Tab Byte := cells 0x1FFE00 mirroredHeader ++ cells 0x1FFE40 (mirrored.take 448)
def restoring : State := { catalogued (entryIn .held) with gran := mirrorGran }

theorem header_length : mirroredHeader.length = 64 := by
  have := digest_length (Config.sha512 mirrored)
  have h : (leBytes 8 5).length = 8 := by decide
  simp [mirroredHeader, mirrorHeader, this, h]

theorem read_range (m : List (Nat × Byte)) : ∀ n a, Memory.read m a n = (List.range n).map fun k => Memory.byte m (a + k)
  | 0, _ => rfl
  | n + 1, a => by
    rw [Memory.read, read_range m n, List.range_succ_eq_map, List.map_cons, List.map_map]
    exact congrArg _ (List.map_congr_left fun k _ => by simp [Nat.add_comm, Nat.add_left_comm])

/-- Within one granule the bytes of the granary follow one another in their channel. -/
theorem gran_granule {s : State} {a n : Nat} (h : a % 512 + n ≤ 512) : s.granBytes a n = Memory.read s.gran (granCell a) n := by
  rw [read_range, State.granBytes]
  refine List.map_congr_left fun k hk => ?_
  have hk := List.mem_range.mp hk
  have : granCell (a + k) = granCell a + k := by simp only [granCell, bits]; omega
  rw [this]

theorem gran_add (s : State) (a n k : Nat) : s.granBytes a (n + k) = s.granBytes a n ++ s.granBytes (a + n) k := by
  simp only [State.granBytes, List.range_add, List.map_append, List.map_map, Function.comp_def, Nat.add_assoc]

theorem byte_above {n : Nat} : ∀ p : Tab Byte, (∀ e ∈ p, e.1 < n) → Memory.byte p n = 0
  | [], _ => rfl
  | e :: p, h => by
    have he := h e (by simp)
    have h1 : ¬ n = e.1 := by omega
    have h2 : ¬ n < e.1 := by omega
    have := byte_above (n := n) p (fun x hx => h x (by simp [hx]))
    simpa [Memory.byte, Tab.get, h1, h2] using this

theorem gran_base (off n : Nat) : restoring.granRead 0 off n = restoring.granBytes off n := by
  have h : restoring.granBase 0 = 0 := by decide +kernel
  rw [State.granRead, h, Nat.zero_add]

theorem mirror_header : restoring.granRead 0 0x3FFC000 64 = mirroredHeader := by
  have h := read_cells (r := cells 0x1FFE40 (mirrored.take 448)) mirroredHeader [] 0x1FFE00 (by simp)
  rw [header_length] at h
  rw [gran_base, gran_granule (by decide)]; exact h

theorem mirrored_lengths : mirrored.length = 488 ∧ (record false).length = 256 ∧ (table false).length = 96 ∧
    (mirrored.take 448).length = 448 ∧ mirrored = mirrored.take 448 ++ List.replicate 40 0 := by decide +kernel

theorem cells_below : ∀ (l : List Byte) (a : Nat), ∀ e ∈ cells a l, e.1 < a + l.length
  | [], _, _, h => by simp [cells] at h
  | _ :: bs, a, e, h => by
    rcases List.mem_cons.mp h with h | h
    · rw [h, List.length_cons]; simp
    · have := cells_below bs (a + 1) e h
      rw [List.length_cons]; omega

theorem mirror_bytes : restoring.granRead 0 0x3FFC040 488 = mirrored := by
  have h := read_cells (r := []) (mirrored.take 448) (cells 0x1FFE00 mirroredHeader) 0x1FFE40
    (fun e he => by have := cells_below _ _ e he; rw [header_length] at this; omega)
  rw [mirrored_lengths.2.2.2.1, List.append_nil] at h
  have hz : restoring.granBytes 0x3FFC200 40 = List.replicate 40 0 := by
    rw [gran_granule (by decide), read_range]
    refine List.eq_replicate_iff.mpr ⟨by simp, fun b hb => ?_⟩
    obtain ⟨k, -, rfl⟩ := List.mem_map.mp hb
    refine byte_above _ fun e he => ?_
    have hc : granCell 0x3FFC200 = 0x6001FFE00 := by decide
    rw [hc]
    rcases List.mem_append.mp he with he | he
    · have := cells_below _ _ e he; rw [header_length] at this; omega
    · have := cells_below _ _ e he; rw [mirrored_lengths.2.2.2.1] at this; omega
  rw [gran_base, show (488 : Nat) = 448 + 40 from rfl, gran_add, gran_granule (by decide), show (0x3FFC040 + 448 : Nat) = 0x3FFC200 from rfl, hz,
    mirrored_lengths.2.2.2.2]
  exact congrArg (· ++ _) h

theorem mirror_parts : restoring.granRead 0 0x3FFC040 256 = record false ∧ restoring.granRead 0 0x3FFC140 96 = table false := by
  have h := mirror_bytes
  have hs : mirrored = record false ++ (table false ++ List.replicate 136 0) := by rw [mirrored, List.append_assoc]
  rw [gran_base, show (488 : Nat) = 256 + (96 + 136) from rfl, gran_add, gran_add, hs] at h
  have hl : ∀ a n, (restoring.granBytes a n).length = n := by intro a n; simp [State.granBytes]
  have h1 := List.append_inj h (by rw [hl, mirrored_lengths.2.1])
  have h2 := List.append_inj h1.2 (by rw [hl, mirrored_lengths.2.2.1])
  rw [gran_base, gran_base]; exact ⟨h1.1, h2.1⟩

theorem mirror_record : restoring.granRead 0 0x3FFC040 256 = record false := mirror_parts.1
theorem mirror_table : restoring.granRead 0 0x3FFC140 96 = table false := mirror_parts.2

theorem mirror_sizes : recTensors (record false) = 1 ∧
    (((tableEntries 1 (table false)).flatMap (mirrorArrays (record false))).map (·.2)).sum = 136 ∧ leAt mirroredHeader 0 8 = 5 ∧
    restoring.granSize 0 = 0x4000000 := by decide +kernel

theorem mirror_at : restoring.mirrorAt 0 0x3FFC000 = some (5, mirrored) := by
  have hs := mirror_sizes
  simp only [State.mirrorAt, mirror_header, Nat.reduceAdd, mirror_record, hs.1, Nat.mul_one, mirror_table, hs.2.1, hs.2.2.2]
  have hb : restoring.granRead 0 0x3FFC040 488 = mirrored := mirror_bytes
  rw [if_neg (by decide), hb, hs.2.2.1]; exact if_pos rfl

theorem newer_mirror : restoring.newerMirror 0 0x3FFC000 = some (5, mirrored) := by
  have hs := mirror_sizes
  have hl : restoring.mirrorLen 0 0x3FFC000 = 0x4000 := by
    simp only [State.mirrorLen, Nat.reduceAdd, mirror_record, hs.1, Nat.mul_one, mirror_table, hs.2.1]; decide
  have h2 : restoring.mirrorAt 0 (0x3FFC000 + 0x4000) = none := by
    simp only [State.mirrorAt, hs.2.2.2]
    rw [if_pos]; right; omega
  simp only [State.newerMirror, mirror_at, hl, h2]

theorem newer_same {s t : State} (i off : Nat) (h1 : s.gran = t.gran) (h2 : s.zen = t.zen) : s.newerMirror i off = t.newerMirror i off := by
  have hr : ∀ o n, s.granRead i o n = t.granRead i o n := by intro o n; simp only [State.granRead, State.granBytes, State.granBase, State.instRec?, h1, h2]
  have hg : s.granSize i = t.granSize i := by simp only [State.granSize, State.instRec?, h2]
  have ha : ∀ o, s.mirrorAt i o = t.mirrorAt i o := by intro o; unfold State.mirrorAt; simp only [hr, hg]
  have hl : s.mirrorLen i off = t.mirrorLen i off := by unfold State.mirrorLen; simp only [hr]
  simp only [State.newerMirror, ha, hl]

theorem debited_same (s : State) (i j off : Nat) : (s.debited i).newerMirror j off = s.newerMirror j off := newer_same j off rfl rfl

/-- The restore finds that mirror, whose record and handle pass and which no open record meets, and the lowest index is free. -/
theorem test_hyp_mirrorRestore :
    (let t := restoring.debited 0
     let r := mirrored.take 256
     let tb := slice mirrored 256 (96 * recTensors r)
     t.newerMirror 0 0x3FFC000 = some (5, mirrored) ∧ r = record false ∧ t.recordOk 0 0x1000000000100000 r tb = true ∧
       t.recordOk 0 0x1000000000100001 r tb = false ∧ t.variantHandle 0 (leAt r 0 4) = .ok 5 ∧ t.freeTrain (recSlow r) = some 0 ∧
       ((t.recordExtents 0 0x1000000000100000 r (tableEntries (recTensors r) tb)).any fun a => t.openExtents.any (overlaps a)) = false) ∧
    (restoring.debited 0).newerMirror 0 0x4000000 = none := by
  refine ⟨⟨(debited_same _ _ _ _).trans newer_mirror, ?_, ?_, ?_, ?_, ?_, ?_⟩, ?_⟩ <;> decide +kernel

theorem with_same (s : State) (p : Tab Byte) (t : Tab Train) (j off : Nat) :
    ({ s with pan := p, train := t } : State).newerMirror j off = s.newerMirror j off := newer_same j off rfl rfl

/-- The record is open already, so the restored one would meet it. -/
def restoringOpen : State := { restoring with pan := opened.pan, train := opened.train }

theorem restoring_open : restoringOpen.newerMirror 0 0x3FFC000 = some (5, mirrored) :=
  (with_same restoring _ _ _ _).trans newer_mirror

theorem test_hyp_MirrorsOfTrainingState :
    (let t := restoringOpen.debited 0
     let r := mirrored.take 256
     ((t.recordExtents 0 0x1000000000100000 r (tableEntries (recTensors r) (slice mirrored 256 (96 * recTensors r)))).any
       fun a => t.openExtents.any (overlaps a)) = true) ∧
    (up.debited 0).msgTrain 0 (mail 0x31 []) = none ∧ (opened.debited 0).msgTrain 0 (mail 0x31 []) = some 0 ∧
    (let s := opened { mirror := some (0, 0), mirrorDue := true }
     s.working = true ∧ (s.train1 0).mirror = some (0, 0) ∧ (s.train1 0).isOpen = true ∧ (s.train1 0).mirrorDue = true ∧
       (s.train1 0).refreshTo = none ∧ recSlow (s.recBytes 0) = false ∧ s.linkReady 0 (s.train1 0).inst = false) ∧
    (let s := { opened { mirror := some (0, 0), mirrorDue := true } with links := [(0, { state := .up, sessions := [session 0] })] }
     s.linkReady 0 (s.train1 0).inst = true) ∧
    (let s := opened { mirror := some (0, 0), mirrorStep := some 4 }
     (s.train1 0).mirror = some (0, 0) ∧ (s.train1 0).mirrorStep = some 4 ∧ (s.train1 0).mirrorWrites = []) := by decide +kernel

/-- A mirror's header goes out as one write of 64 bytes to the partner's granary (R418, R419). -/
theorem test_mirrorHeader : after (.mirrorHeaderWrite 0)
    { opened { mirror := some (0, 0x4000), mirrorStep := some 4 } with links := [(0, { state := .up, sessions := [session 0] })] }
    (fun t => (t.link 0).out.map (fun m => (m.vc, msgAddr m.plain, m.plain.length)) = [(0, 0x2000000000004000, 92)]) = true := by decide +kernel


/-! ### Instances, host ports and the trust region -/

/-- Instance 0 in a state. -/
def inState (x : Inst) : State := { up with insts := [(0, x)] }

theorem test_hyp_InstanceReset :
    up.working = true ∧ up.bar0All = true ∧ fld (0x40#32) 5 0 = 0 ∧ bit (0x40#32).toNat 8 = false ∧ up.pageOn 0 0 = true ∧ up.inRelayout 0 = false ∧
    fld (0x40#32) 7 6 = 1 ∧ fld (0x80#32) 7 6 = 2 ∧ bit (0x80#32).toNat 8 = false ∧ (up.inst 0).state = .active ∧
    ((inState { state := .draining }).inst 0).state = .draining ∧ ((inState { state := .draining }).inst 0).drainAt ≤ up.tb.count ∧
    ((inState { state := .adopting }).inst 0).state = .adopting ∧ ((inState { state := .retired }).inst 0).state ≠ .active ∧
    ((inState { state := .retired }).inst 0).state ≠ .draining ∧ (inState { state := .squashing }).instQuiet 0 = true ∧
    ((inState { state := .retired }).inst 0).state = .retired ∧ up.sec.rngFail = false ∧ up.sec.unlocking = none ∧ 0 < 2 ∧ up.mgt.powered = true := by decide +kernel

/-- DRAIN sets its limit 5 ms ahead, and SQUASH of an instance that is retired sets REFUSED (R374, R375). -/
theorem test_drain :
    after (.drain 0 0x40) up (fun t => (t.inst 0).state = .draining && (t.inst 0).drainAt = 5005000000) = true ∧
    after (.squash 0 0x80) (inState { state := .retired }) (fun t => (t.port 0).refused) = true := by decide +kernel

/-- Port 0 with these registers. -/
def ported (p : Port) : State := { up with ports := [(0, p)] }

theorem test_hyp_HostPorts :
    up.working = true ∧ up.pageOn 0 0 = true ∧ (up.port 0).spdm = none ∧ ((ported { spdm := some 4 }).port 0).spdm.isSome = true ∧ up.bar0 = true ∧
    2 < 3 ∧ up.sec.rngFail = false ∧ (ported { spdm := some 4 }).pageOn 0 0 = true ∧ 1 ≤ 64 ∧ 64 ≤ 64 - 0 % 64 ∧ 1 ≤ 64 - 0xFFF % 64 ∧
    ((ported { training := true }).port 0).training = true ∧
    (let r : HostReq := { id := 3, pasid := none, addr := 0, len := 0, use := .stream, ats := false }
     ((ported { reqs := [r] }).port 0).reqs.find? (fun r => r.id = 3) = some r ∧ (ported { reqs := [r] }).held 88 = false ∧
       ({ (ported { reqs := [r] }) with regions := [(88, { held := [2] })] } : State).held 88 = true) ∧
    up.bar0All = true ∧ up.pageOn 1 0 = false ∧ ((inState { state := .active, tdi := 3 }).inst 0).tdi = 3 ∧
    ((inState { state := .active, tdi := 2 }).inst 0).tdi = 2 ∧ (up.inst 0).tdi ≠ 3 ∧ (up.inst 0).tdi ≠ 2 := by decide +kernel

/-- The ring's PRODUCED register of an instance page reads through its own port alone (R361), and one read of 64 bytes sees a
record whole (R369). -/
theorem test_pageRead :
    after (.instancePageRead 1 0 0 8 false) up (fun t => t.readData = 0 && (t.port 1).wrongPort = 1) = true ∧
    after (.instancePageRead 0 0 0 64 false) up (fun t => t.readBytes.length = 64 && (t.port 0).wrongPort = 0) = true := by decide +kernel

/-- An unlock token of serial number 0 against challenge 0 for scope 1. -/
def unlockToken : List Byte := leBytes 4 0x4B4C4E55 ++ leBytes 2 1 ++ leBytes 2 1 ++ List.replicate 120 0

theorem test_hyp_TrustRegion :
    fld (2#32) 3 0 = 2 ∧ fld (3#32) 3 0 = 3 ∧ fld (4#32) 3 0 = 4 ∧ up.bar0 = true ∧ up.working = true ∧ up.sec.busy = false ∧
    ({ up.sec with running := some (2, 0) } : Sec).busy = true ∧ up.tokenCause (padTo 128 []) ≠ 0 ∧
    ({ inState { state := .retired } with sec := { up.sec with unlocking := some 1 } } : State).allRetired = true ∧
    up.mgt.powered = true ∧ up.sec.rngFail = false ∧ 2 ^ 20 ≤ ({ up.sec with sinceReseed := 2 ^ 20 } : Sec).sinceReseed := by decide +kernel

/-- Where the service key signed it, a token is accepted, and an unlock is one of sixteen: the seventeenth is refused EXHAUSTED (R400).
Without that signature it is refused. -/
theorem test_unlock_token :
    (serviceSigned (unlockToken.take 64) (slice unlockToken 64 64) = true →
      ({ up with sec := { up.sec with unlocks := 15 } } : State).tokenCause unlockToken = 0 ∧
      ({ up with sec := { up.sec with unlocks := 16 } } : State).tokenCause unlockToken = secExhausted) ∧
    (serviceSigned (unlockToken.take 64) (slice unlockToken 64 64) = false → up.tokenCause unlockToken = secBadSignature) := by
  have h : leAt unlockToken 0 4 = 0x4B4C4E55 ∧ leAt unlockToken 4 2 = 1 ∧ leAt unlockToken 6 2 = 1 ∧ leAt unlockToken 8 8 = 0 ∧
      leAt unlockToken 0x10 32 = 0 ∧ up.nvs.serial.toNat = 0 ∧ up.sec.challenge.toNat = 0 := by decide +kernel
  constructor
  · intro hs; simp [State.tokenCause, hs, h]
  · intro hs; simp [State.tokenCause, hs, h]

/-- A key record that does not come ends the command HOST_READ_FAULT, and a first record for this serial number is taken (R401). -/
theorem test_operatorKey :
    (let t := ({ up with sec := { up.sec with running := some (2, 0) } } : State).secArrived 2 0 false []
     t.sec.result = secHostRead ∧ t.sec.busy = false) ∧
    (let t := ({ up with sec := { up.sec with running := some (2, 0) } } : State).secArrived 2 0 true (List.replicate 32 7)
     t.sec.result = secOk ∧ t.sec.opKey.map (·.key) = some (List.replicate 32 7)) := by decide +kernel

/-- The DRBG is reseeded after 2^20 draws, not before (R380), and a failed generator is fatal (R380). -/
theorem test_drbg :
    after .drbgReseed { up with sec := { up.sec with sinceReseed := 2 ^ 20 } } (fun t => t.sec.sinceReseed = 0 && t.sec.reseeds = 1) = true ∧
    after .drbgReseed { up with sec := { up.sec with sinceReseed := 2 ^ 20 - 1 } } (fun t => t.sec.reseeds = 0) = true ∧
    after .rngFail up (fun t => t.sec.rngFail && t.mgt.faultPin) = true := by decide +kernel

/-- Once every instance is retired an unlock opens the debug port for its scope (R400). -/
theorem test_unlockZeroing : after .unlockZeroingComplete { inState { state := .retired } with sec := { up.sec with unlocking := some 1 } }
    (fun t => t.sec.debugOpen && t.sec.unlocks = 1 && t.sec.scopes = 1) = true := by decide +kernel

/-! ### Recovery and supervision -/

/-- Position 3 fenced, or its column retired. -/
def fencedAt3 : State := { up with fence := { up.fence with code := Tab.put 0 3 2 up.fence.code } }
def recovering (op p : Nat) : State := { up with mgt := { up.mgt with recBusy := [(op, p)] } }

theorem test_hyp_FencingAndRecovery :
    up.working = true ∧
    (let c : Core := { act := .running }
     c.act = .running ∧ c.hungAt = none ∧ up.held 0 = false) ∧
    (let c : Core := { act := .running, hungAt := some 4984000000 }
     c.hungAt = some 4984000000 ∧ c.hangReads = 0 ∧ 4984000000 + 16000000 ≤ up.tb.count) ∧
    (let c : Core := { hungAt := some 4999000000, hangReads := 2 }
     c.hungAt = some 4999000000 ∧ c.hangReads = 2 ∧ 4999000000 + 1000000 ≤ up.tb.count ∧ (up.setCore 3 c).fenceCode 3 = some 3) ∧
    2 ∉ (up.region 0).held ∧ fencedAt3.fenced 3 = true ∧ (fencedAt3.logicalOf 3).isSome = true ∧ up.bar0 = true ∧ up.mgt.mgtFwDown = false ∧
    fld (0x30001#32) 3 0 = 1 ∧ fld (0x30001#32) 25 16 = 3 ∧ fld (2#32) 3 0 = 2 ∧ fld (3#32) 3 0 = 3 ∧ fld (4#32) 3 0 = 4 ∧ fld (5#32) 3 0 = 5 ∧
    fld (6#32) 3 0 = 6 ∧ (3, 7) ∈ (recovering 3 7).mgt.recBusy ∧ (∀ x ∈ up.mgt.recBusy, x.1 ≠ 1) ∧
    (let s := (recovering 3 7).updPan 7 fun m => { m with retraining := true }
     s.mgt.recBusy.find? (fun x => (x.1 = 3 && (Tab.get {} s.panCtl x.2).retraining) || x.1 = 5 || (x.1 = 6 && s.thrIdle)) = some (3, 7)) ∧
    (let s := recovering 5 0
     s.mgt.recBusy.find? (fun x => (x.1 = 3 && (Tab.get {} s.panCtl x.2).retraining) || x.1 = 5 || (x.1 = 6 && s.thrIdle)) = some (5, 0)) ∧
    (let s := recovering 6 0
     s.mgt.recBusy.find? (fun x => (x.1 = 3 && (Tab.get {} s.panCtl x.2).retraining) || x.1 = 5 || (x.1 = 6 && s.thrIdle)) = some (6, 0)) := by
  decide +kernel

/-- A hung core is fenced with code 3, and the spare takes its logical number (R412, R413). -/
theorem test_fence : after (.fence 3) (up.setCore 3 { hungAt := some 0, hangReads := 2 }) (fun t => t.posCode 3 = 3) = true ∧
    after (.rename 3) fencedAt3 (fun t => t.logicalPos 0 3 = some 10 && t.posCode 10 = 0) = true := by decide +kernel

theorem test_hyp_ModuleSupervision :
    up.mgt.powered = true ∧ 37999 < 38000 ∧ 63000 < 63001 ∧ railNominal 1 = some (12000, 5) ∧
    ¬(12000 * (100 - 5) ≤ 100 * 12601 ∧ 100 * 12601 ≤ 12000 * (100 + 5)) ∧ 38000 ≤ 48000 ∧ 40000 ≤ 48000 ∧ 48000 ≤ 60000 ∧ 0 < 6 ∧ 1 ≤ 2 ∧ 2 ≤ 3 ∧
    95 ≤ max 60 95 ∧ up.mgt.stopped = false ∧ up.mgt.tripped = false ∧
    (let s := ({ up with mgt := { up.mgt with dumping := true, causes := 4 } } : State)
     s.mgt.dumping = true ∧ s.writeBox.mgt.disconnected = false ∧ s.writeBox.mgt.mateClosed = true ∧ s.writeBox.mgt.causes % 4 = 0) ∧
    (let s := ({ up with mgt := { up.mgt with dumping := true, causes := 1 } } : State)
     s.writeBox.mgt.disconnected = false ∧ s.writeBox.mgt.mateClosed = true ∧ s.writeBox.mgt.causes % 4 ≠ 0) ∧
    ({ up with mgt := { up.mgt with dumping := true, mateClosed := false } } : State).writeBox.mgt.mateClosed = false ∧
    up.ready = true ∧ up.mgt.disconnected = false ∧ Tab.get none up.mgt.cages 0 = none ∧
    Tab.get none (linked {}).mgt.cages 0 ≠ none ∧ (linked {}).mgt.powered = true := by decide +kernel

/-- A thermal trip of a junction is at 105 °C, and of a column at 95 °C of the hotter of its sensors (R11, R424). -/
theorem test_trip : after (.thermalTrip 0 0 105 0) up (fun t => t.mgt.tripped && t.mgt.faultPin && t.mgt.stopped) = true ∧
    after (.thermalTrip 0 0 104 0) up (fun t => t.mgt.tripped || t.mgt.faultPin) = false ∧
    after (.thermalTrip 1 3 60 95) up (fun t => t.mgt.tripped && (Tab.get {} t.panCtl 3).temp = 95) = true := by decide +kernel

/-- A rebuild of a lost block of base weights puts the bytes the partner sent there, and of a good block does nothing (R407). -/
theorem test_rebuild :
    (let b := ((up.panKey 0 0x300000).getD 0) / 64
     let s := { linked { state := .up, sessions := [session 0] } with panUe := [(b, true)], mgt := { up.mgt with repair := 8 } }
     after (.rebuild false b true (List.replicate 64 7)) s
       (fun t => t.panUe = [] && t.panRead 0 0x300000 2 = [7, 7] && (Tab.get {} t.panCtl 0).rebuilt = 1)) = true ∧
    after (.rebuild true 0 true []) up (fun t => t.gran = []) = true := by decide +kernel

/-- The input's limits (R421, R423): below 38 V the dump begins, above 63 V the hot-swap switch opens, and the bands between alert. -/
theorem test_input :
    after (.inputDroop 37999) up (fun t => t.mgt.dumping && t.mgt.ringFrozen && t.mgt.causes = 4 && !t.mgt.faultPin) = true ∧
    after (.overVoltageDisconnect 63001) up (fun t => !t.mgt.hotSwap && t.mgt.disconnected && t.mgt.faultPin) = true ∧
    after (.inputLow 39999) up (fun t => t.mgt.inputLow && t.mgt.alert = 4) = true ∧
    after (.inputHigh 60001) up (fun t => t.mgt.inputHigh && t.mgt.alert = 4) = true ∧
    after (.inputInOperatingRange 40000) { up with mgt := { up.mgt with inputLow := true } } (fun t => !t.mgt.inputLow) = true := by decide +kernel

/-- The mate loop opens and closes the hot-swap switch (R422), and after a dump that only a droop caused the module goes on (R425). -/
theorem test_mateLoop :
    after .mateLoopBreak up (fun t => !t.mgt.hotSwap && !t.mgt.mateClosed && t.mgt.dumping) = true ∧
    after .mateLoopContinuous { up with mgt := { up.mgt with mateClosed := false } } (fun t => t.mgt.hotSwap && t.mgt.mateClosed) = true ∧
    after (.blackBoxDumpComplete 48000) { up with mgt := { up.mgt with dumping := true, ringFrozen := true, causes := 4 } }
      (fun t => !t.mgt.ringFrozen && !t.mgt.dumping && t.mgt.stage = 9) = true := by decide +kernel

/-- Field 0 with these caps. -/
def capped (c : Caps) : State := up.updField 0 fun x => { x with caps := c }

theorem test_hyp_CapsAndThrottling :
    up.mgt.pin = false ∧ up.mgt.powered = true ∧ up.working = true ∧ 85 < 86 ∧ up.powerLimitW < 1201 ∧
    ((capped { thermal := some 900 }).field 0).caps.thermal ≠ none ∧ (∀ k < 11, (Tab.get {} up.panCtl (0 * 11 + k)).temp < 87) ∧
    100 * 1140 ≤ up.powerLimitW * 95 := by decide +kernel

/-- A cap falls by 25 M beats/s while its cause lasts, rises by as much when it has gone, and is removed at its start (R444). -/
theorem test_capStep :
    after .capStep (capped { thermal := some 900 }) (fun t => (t.field 0).caps.thermal = some 875) = true ∧
    after .capStep (capped { thermal := some 900, rising := true }) (fun t => (t.field 0).caps.thermal = some 925) = true ∧
    after .capStep (capped { thermal := some 980, rising := true }) (fun t => (t.field 0).caps.thermal = none) = true := by decide +kernel

/-! ### Freeze, debug stop, windows and registers -/

/-- The freeze or stop unit in a state. -/
def observed (o : Obs) : State := { up with obs := o }

theorem test_hyp_FreezeStopAndWindows :
    up.obsOk = true ∧ up.obs.armed = false ∧ (observed { armed := true }).obs.armed = true ∧ bit (0x20001#32).toNat 17 = true ∧
    bit (0x20001#32).toNat 18 = false ∧ bit (0x40000#32).toNat 17 = false ∧ bit (0x40000#32).toNat 18 = true ∧
    (observed { stop := .stopping }).obs.stop = .stopping ∧ (observed { armed := true, freezeTb := 5000000000 }).obs.freezeTb.toNat ≤ up.tb.count ∧
    (observed { validAt := some 5 }).obs.validAt = some 5 ∧ 5 ≤ up.tb.count ∧
    Tab.get none ({ up with halves := { writeLo := [(freezeReg, some 7)] } } : State).halves.writeLo freezeReg = some 7 ∧
    up.tb.count + 2000 ≤ 2 % 2 ^ 32 * 2 ^ 32 + (7#32).toNat ∧ (observed { stop := .stopped }).obs.stop = .stopped ∧
    up.anyConfid = false ∧ ({ up with zen := { cfg with insts := [instRec 0 true] } } : State).anyConfid = true ∧
    0 < ({ tempN := 4, tempSum := 280 } : Region).tempN ∧
    (let s := observed { stop := .armed, stopAt := 5000000000, scope := [0] }
     s.obs.stop = .armed ∧ s.obs.stopAt ≤ s.tb.count ∧ s.obs.armed = false) ∧
    (let s := observed { stop := .stopping, scope := [0] }
     s.obs.scope.all s.quiescent = true) ∧
    up.bar0All = true ∧ up.mgt.mgtFwDown = false ∧ up.mgt.powered = true ∧ up.tb.count % 1000000000 = 0 ∧ up.tb.count % 100000000 = 0 := by
  decide +kernel

/-- A freeze 2 µs ahead is armed, and one tick nearer is refused (R433). -/
theorem test_freezeArm :
    after (.freezeArm 8 false 5000002000) up (fun t => t.obs.armed && !t.obs.refused) = true ∧
    after (.freezeArm 8 false 5000001999) up (fun t => !t.obs.armed && t.obs.refused) = true := by decide +kernel

/-- At its time a freeze copies the bank, and the copy is valid 1 µs later (R433). -/
theorem test_freeze :
    after .freeze (observed { armed := true, freezeTb := 5000000000 }) (fun t => t.obs.seq = 1 && !t.obs.valid && t.obs.validAt = some 5000001000) = true ∧
    after .frozenValid (observed { validAt := some 5000000000 }) (fun t => t.obs.valid) = true ∧
    after .frozenValid (observed { validAt := some 5000000001 }) (fun t => t.obs.valid) = false := by decide +kernel

/-- A debug stop armed 2 µs ahead holds its regions at that time, and stops once they are quiet (R434). -/
theorem test_debugStop :
    after (.arm 0x20000) (observed { stopFields := 1, stopTb := 5000002000 }) (fun t => t.obs.stop = .armed && t.obs.scope = [0]) = true ∧
    after .debugStopHold (observed { stop := .armed, stopAt := 5000000000, scope := [0] }) (fun t => t.obs.stop = .stopping && t.held 0) = true ∧
    after .debugStop (observed { stop := .stopping, scope := [0] }) (fun t => t.obs.stop = .stopped && t.obs.residue = []) = true ∧
    after (.resume 0x40000) ((observed { stop := .stopped, scope := [0] }).updRegion 0 fun g => { g with held := [2] })
      (fun t => t.obs.stop = .idle && !t.held 0) = true := by decide +kernel

/-- A read of a ring entry latches its upper half (R437). -/
theorem test_ringRead : after .obsRingLoRead (observed { ringHi := 5 }) (fun t => t.readData = 0 && t.obs.ringHi = 0) = true ∧
    after .obsResidueLoRead (observed { residue := [List.replicate 16 1] })
      (fun t => t.readData = 0x0101010101010101 && t.obs.resHi = 0x0101010101010101) = true := by decide +kernel

/-- A junction temperature shown is the average of the window's readings (R397). -/
theorem test_window : after (.coarsenedWindowEnd true 1000 20 30) (up.updRegion 3 fun g => (g.sense 70).sense 80)
    (fun t => (t.region 3).tempAvg = 75 && t.mgt.hotField = 3 && t.mgt.hotJunction = 75 && t.shownWatts = 1000) = true := by decide +kernel

theorem test_hyp_RegisterAccesses :
    up.answers 0x224 = true ∧ up.answers 0x20018 = true ∧ up.answers 0x90018 = true ∧ up.answers 0xF0000 = true ∧ up.answers 0x1000000 = true ∧
    up.answers 0x2000108 = true ∧ up.answers 0x2000110 = true ∧ up.answers 0x300001C = true ∧ up.mgt.mgtFwDown = false ∧
    up.regAt 0x60010 = some (true, 0) ∧ up.takesWrite 0x220 = true ∧ 0x220 % 4 = 0 ∧ up.reg64 0x220 = none ∧ up.takesWrite 0x60010 = true ∧
    up.reg64 0x60010 = some 0 ∧ up.answers (0x60010 + 4) = true ∧ 0x60010 % 8 = 0 ∧ up.regAt (0x60010 + 4) = none ∧
    Tab.get none ({ up with halves := { readHi := [(0x60010, some 7)] } } : State).halves.readHi 0x60010 = some 7 ∧
    Tab.get none up.halves.readHi 0x60010 = none ∧ ({ up with mgt := {} } : State).answers 0x60010 = false ∧ (imageReading 1 (true, [])).nvs.op.isSome = true ∧ 4 < bits (0xF#64).toNat 3 0 ∧
    up.answers 0x10004 = true ∧ up.answers 0x14100 = true ∧ up.answers 0x40000 = true ∧ up.answers 0xF1008 = true := by decide +kernel

/-- TB_SLEW takes a value beyond 200,000 as 200,000 (R337). -/
theorem test_slew : after (.registerWrite 0 0x60008 4 0x3FFFF) up (fun t => t.tb.slew = 200000) = true := by decide +kernel

/-- The upper half of a 64-bit register read after its lower half is what it was then, once (R5). -/
theorem test_readHalves :
    after (.lowerHalfRead 0x60010) { up with tb := { up.tb with epoch := 0x900000007 } } (fun t => t.readData = 7 &&
      after (.lowerHalfRead 0x60014) { t with tb := { t.tb with epoch := 0 } } (fun u => u.readData = 9 &&
        after (.lowerHalfRead 0x60014) u (fun w => w.readData = 0))) = true := by decide +kernel

/-- A read clears the counts it shows (R5). -/
theorem test_readClear :
    after (.hpErrRead 0) (ported { wrongPort := 3 }) (fun t => t.readData ≠ 0 && (t.port 0).wrongPort = 0) = true ∧
    after (.panErrRead 2) (up.updPan 2 fun m => { m with corrected := 9 }) (fun t => t.readData ≠ 0 && (Tab.get {} t.panCtl 2).corrected = 0) = true ∧
    after .admDecisionsRead { up with adm := { up.adm with accepts := 4 } } (fun t => t.readData ≠ 0 && t.adm.accepts = 0) = true := by decide +kernel

/-- A 64-bit register takes its two halves together (R5). -/
theorem test_halves :
    after (.registerWrite 0 0x60010 4 7) up (fun t => t.tb.epoch = 0 &&
      after (.registerWrite 0 0x60014 4 9) t (fun u => u.tb.epoch = 0x900000007)) = true := by decide +kernel


/-! ### Ill-formed commands -/

/-- A command with its position out of range is not well formed. -/
theorem test_illFormed_position0 : ([
    .mmaN 880 0, .mmaW 880 0, .mmaSegN 880 0, .mmaSegW 880 0, .eltRun 880 0, .eltBcast 880 0, .eltLoadp 880 0, .eltMask 880 0, .cvt 880 0,
    .statMaxabs 880 0, .xtlPack 880 0, .xtlRot 880 0, .cpy1d 880 0, .cpy2d 880 0, .cpy3d 880 0, .cpyT 880 0, .semAdd 880 0, .semSub 880 0,
    .semWaitge 880 0, .semWaitsub 880 0, .feLoad 880 0, .feStore 880 0, .br 880 0, .loop 880 0, .call 880 0, .ret 880 0, .halt 880 0, .seta 880 0,
    .adda 880 0, .addar 880 0] : List Instr).any Instr.wellFormed = false := by decide +kernel

/-- A command with its position out of range is not well formed. -/
theorem test_illFormed_position1 : ([
    .setc 880 0, .ldt 880 0, .stt 880 0, .tadd 880 0, .ldv 880 0, .ldk 880 0, .setk 880 0, .plan 880 0, .descriptorStart 880 0 [] [],
    .readDataArrival 880 0 0 [] [], .taskEnd 880, .planRecordWrite 880, .barrierArrival 880, .feRetry 880, .retentionEntry 880, .retentionWake 880,
    .corCtrlWrite 880 0, .marchDestructive 880 0, .marchContentPreserving 880 0, .marchTestComplete 880 0 0, .columnRetirement 880, .hang 880,
    .hangConfirm 880, .writeDiscardTimeout 880, .fence 880, .rename 880, .corScratchErrRead 880, .panErrRead 880, .columnHot 880 0 0,
    .engineInstructionComplete 880 0 [] []] : List Instr).any Instr.wellFormed = false := by decide +kernel

/-- A command with its engine out of range is not well formed. -/
theorem test_illFormed_engine : ([
    .descriptorStart 0 2 [] [], .readDataArrival 0 2 0 [] [], .engineInstructionComplete 0 2 [] []] : List Instr).any Instr.wellFormed = false := by decide +kernel

/-- A command with its err out of range is not well formed. -/
theorem test_illFormed_err : ([
    .scratchWriteArrival 0 3] : List Instr).any Instr.wellFormed = false := by decide +kernel

/-- A command with its inst out of range is not well formed. -/
theorem test_illFormed_inst0 : ([
    .barrierComplete 64 0, .taskRestart 64 0, .adoption 64, .variantLoad 0 64 false [], .variantDelete 0 64 false [], .variantPageIn 0 64 false [],
    .variantQuery 0 64 false [], .forkFromBase 0 64 false [], .trainOpen 0 64 false [], .trainSet 0 64 false [], .trainQuery 0 64 false [],
    .snapshot 0 64 false [], .trainClose 0 64 false [], .sessionRenew 0 64, .overrun 64 0, .quantumExpiry 64 0, .intakeChunkWrite 0 64 false 0 [],
    .commit 0 64 false [], .dispatch 64 0, .jobComplete 64 0, .release 0 64 false 0 [], .tdispMessage 0 64 0, .stageIn 0 64 false [],
    .mirrorSet 0 64 false [], .mirrorRestore 0 64 false [], .mailboxAttest 0 64 false [], .unknownOperation 0 64 false [],
    .consumedWrite 0 64 false 0, .drainLimitExpiry 64, .instanceRetired 64] : List Instr).any Instr.wellFormed = false := by decide +kernel

/-- A command with its inst out of range is not well formed. -/
theorem test_illFormed_inst1 : ([
    .instanceZeroingComplete 64, .keyProg 0 65 [], .instancePageRead 0 64 0 0 false, .stageInComplete 64] : List Instr).any Instr.wellFormed = false := by decide +kernel

/-- A command with its failBank out of range is not well formed. -/
theorem test_illFormed_failBank : ([
    .marchTestComplete 0 16 0] : List Instr).any Instr.wellFormed = false := by decide +kernel

/-- A command with its port out of range is not well formed. -/
theorem test_illFormed_port0 : ([
    .loadFull 2 0, .applyPartial 2 0, .storeEffective 2 0, .storeStaged 2 0, .perstDeassert 2, .configurationRequest 2 none, .start 2 0,
    .variantLoad 2 0 false [], .variantDelete 2 0 false [], .variantPageIn 2 0 false [], .variantQuery 2 0 false [], .forkFromBase 2 0 false [],
    .trainOpen 2 0 false [], .trainSet 2 0 false [], .trainQuery 2 0 false [], .snapshot 2 0 false [], .trainClose 2 0 false [],
    .intakeChunkWrite 2 0 false 0 [], .commit 2 0 false [], .release 2 0 false 0 [], .functionLevelReset 2, .tdispMessage 2 0 0,
    .atsInvalidation 2, .hostCompletion 2 0 false [], .stageIn 2 0 false [], .mirrorSet 2 0 false [], .mirrorRestore 2 0 false [],
    .mailboxAttest 2 0 false [], .unknownOperation 2 0 false [], .consumedWrite 2 0 false 0] : List Instr).any Instr.wellFormed = false := by decide +kernel

/-- A command with its port out of range is not well formed. -/
theorem test_illFormed_port1 : ([
    .drain 2 0, .squash 2 0, .attest 2 0, .keyProg 2 0 [], .operatorKey 2 0, .unlock 2 0, .raiseFloor 2 0, .fenceCore 2 0, .retireColumn 2 0,
    .retrainColumn 2 0, .readBlackbox 2 0, .switchMgtFw 2 0, .reloadMicrocode 2 0, .hpErrRead 2, .registerWrite 2 0 0 0,
    .instancePageRead 2 0 0 0 false, .hostLinkTrainingComplete 2 0 0 false] : List Instr).any Instr.wellFormed = false := by decide +kernel

/-- A command with its slot out of range is not well formed. -/
theorem test_illFormed_slot : ([
    .slotRelease 4, .baseReleased 4, .slotZeroingComplete 4, .forkCopyComplete 4] : List Instr).any Instr.wellFormed = false := by decide +kernel

/-- A command with its index out of range is not well formed. -/
theorem test_illFormed_index : ([
    .variantLoadComplete 65536, .pageInStart 65536, .pageInComplete 65536, .snapshotDelivered 65536 false, .refreshComplete 65536,
    .mirrorTake 65536, .mirrorHeaderWrite 65536, .trainOpenZeroingComplete 65536] : List Instr).any Instr.wellFormed = false := by decide +kernel

/-- A command with its link out of range is not well formed. -/
theorem test_illFormed_link : ([
    .dataFlit 6 0 [], .idleFlit 6 0 [], .replayFlit 6 0 [], .write 6 0 [], .read 6 0 [], .accumulate 6 0 [], .semaphore 6 0 [], .forward 6 0 [],
    .capability 6, .session 6, .arrive 6 0 [], .complete 6 0 [], .streamAbort 6 0 [], .response 6 0 [], .requestTimeout 6 0, .sessionRenew 6 0,
    .linkTrainingComplete 6 0 0, .lossOfSignal 6 false, .linkRetry 6, .retrain 6 0, .disable 6 0, .partnerLost 6, .tlnErrRead 6,
    .cageInsertion 6 0 0, .cageRemoval 6, .cmisPoll 6 0 0] : List Instr).any Instr.wellFormed = false := by decide +kernel

/-- A command with its key out of range is not well formed. -/
theorem test_illFormed_key : ([
    .write 0 3 [], .read 0 3 [], .accumulate 0 3 [], .semaphore 0 3 [], .forward 0 3 [], .arrive 0 3 [], .complete 0 3 [], .streamAbort 0 3 [],
    .response 0 3 []] : List Instr).any Instr.wellFormed = false := by decide +kernel

/-- A command with its field out of range is not well formed. -/
theorem test_illFormed_field : ([
    .fieldRateReport 88 0 0 0, .fldSemStatusRead 80, .fldSemEventsRead 80, .fieldHot 80 false 0, .supplyStep 80] : List Instr).any Instr.wellFormed = false := by decide +kernel

/-- A command with its region out of range is not well formed. -/
theorem test_illFormed_region : ([
    .rateKeeperStep 100] : List Instr).any Instr.wellFormed = false := by decide +kernel

/-- A command with its endpoint out of range is not well formed. -/
theorem test_illFormed_endpoint : ([
    .getMeasurements 3 [], .spdmSecuredSession 3 false] : List Instr).any Instr.wellFormed = false := by decide +kernel

/-- A command with its ctl out of range is not well formed. -/
theorem test_illFormed_ctl : ([
    .grnErrRead 2, .granaryInterfaceRetrain 2 false] : List Instr).any Instr.wellFormed = false := by decide +kernel

/-- A command with its rail out of range is not well formed. -/
theorem test_illFormed_rail : ([
    .railLimit 16 0] : List Instr).any Instr.wellFormed = false := by decide +kernel

/-- Commands at the ends of their ranges are well formed. -/
theorem test_wellFormed_ends : ([.mmaN 879 0, .descriptorStart 879 1 [] [], .scratchWriteArrival 0 2, .barrierComplete 63 0, .marchTestComplete 0 15 0,
    .perstDeassert 1, .baseReleased 3, .pageInStart 65535, .capability 5, .sessionRenew 5 255, .supplyStep 79, .rateKeeperStep 99, .grnErrRead 1,
    .keyProg 1 64 [], .railLimit 15 0, .write 5 2 [], .spdmSecuredSession 2 false, .fieldRateReport 87 0 0 0] : List Instr).all Instr.wellFormed = true := by
  decide +kernel

end Sys2Proof.Tests
end

/-! PROOFS. What a sparse table and a memory read after each operation, the little-endian fields (R4), and the state
right after reset. -/

namespace Sys2Proof.Machine

section tables
variable {α : Type}

/-- A number that no entry carries reads the default. -/
theorem Tab.get_of_not_mem {d : α} {n : Nat} {t : Tab α} (h : ∀ e ∈ t, e.1 ≠ n) : Tab.get d t n = d := by
  induction t with
  | nil => rfl
  | cons e t ih =>
    obtain ⟨k, v⟩ := e
    have hk : n ≠ k := (h (k, v) (by simp)).symm
    simp [Tab.get, hk, ih fun e he => h e (by simp [he])]

/-- A number reads the value of its entry. -/
theorem Tab.get_of_mem {d v : α} {n : Nat} {t : Tab α} (hs : Tab.sorted t = true) (h : (n, v) ∈ t) :
    Tab.get d t n = v := by
  induction t with
  | nil => simp at h
  | cons e t ih =>
    obtain ⟨k, w⟩ := e
    obtain ⟨habove, hs⟩ := Tab.sorted_cons.1 hs
    rcases List.mem_cons.1 h with he | ht
    · obtain ⟨rfl, rfl⟩ := Prod.mk.inj he
      simp [Tab.get]
    · have hlt : k < n := habove (n, v) ht
      simp [Tab.get, hlt.ne', hlt.le, ih hs ht]

/-- Removing the numbers that meet a test makes them read the default and leaves every other number. -/
theorem Tab.get_clearIf {d : α} {p : Nat → Bool} {t : Tab α} {n : Nat} (hs : Tab.sorted t = true) :
    Tab.get d (Tab.clearIf p t) n = if p n then d else Tab.get d t n := by
  induction t with
  | nil => simp [Tab.clearIf, Tab.get]
  | cons e t ih =>
    obtain ⟨k, v⟩ := e
    obtain ⟨habove, hs⟩ := Tab.sorted_cons.1 hs
    have hbelow (hn : n < k) : Tab.get d t n = d := Tab.get_above fun e he => hn.trans (habove e he)
    have ih := ih hs
    unfold Tab.clearIf at ih ⊢
    by_cases hp : p k = true
    · rw [List.filter_cons_of_neg (by simp [hp]), ih]
      by_cases hnk : n = k
      · simp [hnk, hp]
      · by_cases hn : n < k <;> simp [Tab.get, hnk, hn, hbelow]
    · rw [List.filter_cons_of_pos (by simp [hp])]
      by_cases hnk : n = k
      · simp [Tab.get, hnk, hp]
      · by_cases hn : n < k <;> simp [Tab.get, hnk, hn, ih]

end tables

/-! ### Memories -/

theorem Memory.sorted_of_wf {m : List (Nat × Byte)} (h : Memory.wf m = true) : Tab.sorted m = true :=
  (Tab.wf_iff.1 h).1

/-- A write leaves the bytes outside its range. -/
theorem Memory.byte_write_outside {m : List (Nat × Byte)} {a x : Nat} {bs : List Byte} (h : Memory.wf m = true)
    (hx : x < a ∨ a + bs.length ≤ x) : Memory.byte (Memory.write m a bs) x = Memory.byte m x := by
  induction bs generalizing m a with
  | nil => rfl
  | cons b bs ih =>
    rw [List.length_cons] at hx
    calc Memory.byte (Memory.write (Tab.put 0 a b m) (a + 1) bs) x
        = Memory.byte (Tab.put 0 a b m) x := ih (Memory.wf_put h) (by omega)
      _ = Memory.byte m x := Tab.get_put_ne (Memory.sorted_of_wf h) (by omega)

/-- The written range reads the bytes written: the first is out of the range of the rest. -/
theorem Memory.read_write {m : List (Nat × Byte)} {a : Nat} {bs : List Byte} (h : Memory.wf m = true) :
    Memory.read (Memory.write m a bs) a bs.length = bs := by
  induction bs generalizing m a with
  | nil => rfl
  | cons b bs ih =>
    have hfirst : Memory.byte (Memory.write (Tab.put 0 a b m) (a + 1) bs) a = b :=
      (Memory.byte_write_outside (Memory.wf_put h) (.inl (Nat.lt_succ_self a))).trans
        (Tab.get_put_self (Memory.sorted_of_wf h))
    exact congrArg₂ List.cons hfirst (ih (Memory.wf_put h))

/-- A zeroed range reads zero; every other byte reads as before. -/
theorem Memory.byte_zero {m : List (Nat × Byte)} {a n x : Nat} (h : Memory.wf m = true) :
    Memory.byte (Memory.zero m a n) x = if a ≤ x ∧ x < a + n then 0 else Memory.byte m x := by
  have hclear := Tab.get_clearIf (d := (0 : Byte)) (p := fun k => decide (a ≤ k) && decide (k < a + n)) (n := x)
    (Memory.sorted_of_wf h)
  simp only [Bool.and_eq_true, decide_eq_true_eq] at hclear
  exact hclear

/-! ### Little-endian fields (R4) -/

@[simp] theorem leBytes_length (n v : Nat) : (leBytes n v).length = n := by
  induction n generalizing v with
  | zero => rfl
  | succ n ih => exact congrArg (· + 1) (ih (v / 256))

theorem leNat_leBytes (n v : Nat) : leNat (leBytes n v) = v % 256 ^ n := by
  induction n generalizing v with
  | zero => simp [leBytes, leNat, Nat.mod_one]
  | succ n ih =>
    calc leNat (leBytes (n + 1) v)
        = v % 256 + 256 * (v / 256 % 256 ^ n) := by simp [leBytes, leNat, ih]
      _ = v % 256 ^ (n + 1) := by rw [pow_succ', Nat.mod_mul]

theorem leNat_lt (bs : List Byte) : leNat bs < 256 ^ bs.length := by
  induction bs with
  | nil => simp [leNat]
  | cons b bs ih =>
    have hb : b.toNat < 256 := b.isLt
    rw [leNat, List.length_cons, pow_succ']
    omega

theorem leBytes_leNat (bs : List Byte) : leBytes bs.length (leNat bs) = bs := by
  induction bs with
  | nil => rfl
  | cons b bs ih =>
    have hb : b.toNat < 256 := b.isLt
    have hlow : BitVec.ofNat 8 (b.toNat + 256 * leNat bs) = b := by
      apply BitVec.eq_of_toNat_eq
      rw [BitVec.toNat_ofNat]
      omega
    have hhigh : (b.toNat + 256 * leNat bs) / 256 = leNat bs := by omega
    rw [List.length_cons, leNat, leBytes, hlow, hhigh, ih]

/-! ### The state right after reset -/

@[simp] theorem State.core_reset (p : Nat) : State.reset.core p = {} := rfl
@[simp] theorem State.inst_reset (i : Nat) : State.reset.inst i = {} := rfl

theorem FenceMap.code_sorted : Tab.sorted ({} : FenceMap).code = true := by decide

/-- Position 10 of every field is a spare (R14). -/
theorem State.posCode_reset_spare {f : Nat} (hf : f < 80) : State.reset.posCode (11 * f + 10) = 1 :=
  Tab.get_of_mem FenceMap.code_sorted (List.mem_map.2 ⟨f, List.mem_range.2 hf, rfl⟩)

/-- Positions 0 to 9 of every field are in service. -/
theorem State.posCode_reset_inService {f k : Nat} (hk : k < 10) : State.reset.posCode (11 * f + k) = 0 := by
  refine Tab.get_of_not_mem fun e he => ?_
  obtain ⟨g, -, rfl⟩ := List.mem_map.1 he
  dsimp only
  omega

/-- The search of a field for its spare passes over positions 0 to 9 and ends at position 10. -/
theorem State.spareOf_reset {f : Nat} (hf : f < 80) : State.reset.spareOf f = some (11 * f + 10) := by
  have hbefore : ((List.range 10).map (11 * f + ·)).find? (fun p => State.reset.posCode p = 1) = none := by
    refine List.find?_eq_none.2 fun p hp => ?_
    obtain ⟨k, hk, rfl⟩ := List.mem_map.1 hp
    simp [State.posCode_reset_inService (List.mem_range.1 hk)]
  rw [State.spareOf, List.range_succ, List.map_append, List.find?_append, hbefore]
  simp [State.posCode_reset_spare hf]

theorem State.logicalPos_reset (f k : Nat) : State.reset.logicalPos f k = some (11 * f + k) := rfl

/-! ### The statements -/

/-- Settles O7: each part is what one operation of a memory does, read off its own lemma. -/
theorem memoryReadsBack : Obligations.MemoryReadsBack := fun _ _ h =>
  ⟨fun _ => ⟨Memory.wf_write h, Memory.read_write h, fun _ => Memory.byte_write_outside h⟩,
    fun _ => ⟨Memory.wf_zero h, fun _ => Memory.byte_zero h⟩⟩

/-- Settles O9, by induction on the length and on the byte string. -/
theorem littleEndianRoundTrip : Obligations.LittleEndianRoundTrip :=
  ⟨fun n v => ⟨leBytes_length n v, leNat_leBytes n v⟩, fun bs => ⟨leNat_lt bs, leBytes_leNat bs⟩⟩

/-- Settles O3: the scalar fields hold their defaults, an unlisted core or host interface reads as at reset, and the fence map
lists position 10 of every field alone. -/
theorem resetState : Obligations.ResetState := by
  refine ⟨rfl, rfl, rfl, rfl, rfl, rfl, rfl, rfl, rfl, rfl, rfl, rfl, ?cores, ?insts, ?spares, ?inService⟩
  case cores => intro p; simp
  case insts => intro i; simp
  case spares => exact fun f hf => ⟨State.posCode_reset_spare hf, State.spareOf_reset hf⟩
  case inService => exact fun f _ k hk => ⟨State.posCode_reset_inService hk, State.logicalPos_reset f k⟩

/-- Settles O4: no memory lists a byte at reset. -/
theorem resetMemoriesCanonical : Obligations.ResetMemoriesCanonical :=
  ⟨Memory.wf_nil, Memory.wf_nil, Memory.wf_nil⟩

end Sys2Proof.Machine

/-! PROOFS. What every command leaves of the queue and of the three memories that survive a task. An operation that touches
none of them leaves `State.stored` as it was; one that writes them keeps them in canonical form, whatever the queue. -/

namespace Sys2Proof.Machine

/-! ### What is stored -/

/-- The queue of waiting commands and the three memories that survive a task. -/
structure Stored where
  queue : List Instr
  pan : List Host.Cell
  gran : List Host.Cell
  nvs : List Host.Cell

/-- The queue and the memories of a state. -/
def State.stored (s : State) : Stored := ⟨s.pending, s.pan, s.gran, s.nvs.mem⟩

/-- The queue is a given one, and the memories are in canonical form. -/
structure Stored.Kept (cs : List Instr) (m : Stored) : Prop where
  queue : m.queue = cs
  pan : Memory.wf m.pan = true
  gran : Memory.wf m.gran = true
  nvs : Memory.wf m.nvs = true

@[simp] theorem State.stored_mk (pending readData readBytes freeN nextTok net cores fields regions fence sem semWaiters feWaiters
    tags pan panUe panCtl gran granUe granCtl zen nvs thr cat train upd jobs insts ports fetches nextFetch links mgt tb adm sec
    obs halves) :
    (State.mk pending readData readBytes freeN nextTok net cores fields regions fence sem semWaiters feWaiters
      tags pan panUe panCtl gran granUe granCtl zen nvs thr cat train upd jobs insts ports fetches nextFetch links mgt tb adm sec
      obs halves).stored = ⟨pending, pan, gran, nvs.mem⟩ := rfl

@[simp] theorem State.stored_eta (s : State) : Stored.mk s.pending s.pan s.gran s.nvs.mem = s.stored := rfl

@[simp] theorem State.stored_ite (c : Prop) [Decidable c] (s t : State) :
    (if c then s else t).stored = if c then s.stored else t.stored := apply_ite _ _ _ _

@[simp] theorem State.stored_foldl {α : Type} {f : State → α → State} (hf : ∀ s x, (f s x).stored = s.stored) (l : List α)
    (s : State) : (l.foldl f s).stored = s.stored := by
  induction l generalizing s with
  | nil => rfl
  | cons x l ih => rw [List.foldl_cons, ih, hf]

@[simp] theorem Stored.kept_ite {cs : List Instr} (c : Prop) [Decidable c] (m n : Stored) :
    (if c then m else n).Kept cs ↔ if c then m.Kept cs else n.Kept cs := by
  split_ifs <;> rfl

/-- Both branches of a choice. -/
theorem State.kept_ite {cs : List Instr} {c : Prop} [Decidable c] {s t : State} (hs : s.stored.Kept cs) (ht : t.stored.Kept cs) :
    (if c then s else t).stored.Kept cs := by
  split <;> assumption

/-- A loop each round of which keeps what is stored in order. -/
theorem State.kept_foldl {α : Type} {cs : List Instr} {f : State → α → State}
    (hf : ∀ s x, s.stored.Kept cs → (f s x).stored.Kept cs)
    {s : State} (h : s.stored.Kept cs) (l : List α) : (l.foldl f s).stored.Kept cs := by
  induction l generalizing s with
  | nil => exact h
  | cons x l ih => exact ih (hf s x h)

/-- A loop that carries a number along. -/
theorem State.kept_foldl_fst {α β : Type} {cs : List Instr} {f : State × β → α → State × β}
    (hf : ∀ r x, r.1.stored.Kept cs → (f r x).1.stored.Kept cs) {r : State × β} (h : r.1.stored.Kept cs) (l : List α) :
    (l.foldl f r).1.stored.Kept cs := by
  induction l generalizing r with
  | nil => exact h
  | cons x l ih => exact ih (hf r x h)

/-- Another content of one memory, itself in canonical form. -/
theorem Stored.Kept.withPan {cs : List Instr} {s : State} {m : List Host.Cell} (h : s.stored.Kept cs) (hm : Memory.wf m = true) :
    Stored.Kept cs ⟨s.pending, m, s.gran, s.nvs.mem⟩ := ⟨h.queue, hm, h.gran, h.nvs⟩
theorem Stored.Kept.withGran {cs : List Instr} {s : State} {m : List Host.Cell} (h : s.stored.Kept cs) (hm : Memory.wf m = true) :
    Stored.Kept cs ⟨s.pending, s.pan, m, s.nvs.mem⟩ := ⟨h.queue, h.pan, hm, h.nvs⟩
theorem Stored.Kept.withNvs {cs : List Instr} {s : State} {m : List Host.Cell} (h : s.stored.Kept cs) (hm : Memory.wf m = true) :
    Stored.Kept cs ⟨s.pending, s.pan, s.gran, m⟩ := ⟨h.queue, h.pan, h.gran, hm⟩

/-- A bind that answers a value: both of its parts do. -/
theorem Except.bind_eq_ok {ε α β : Type} {x : Except ε α} {f : α → Except ε β} {b : β} :
    (x >>= f) = .ok b ↔ ∃ a, x = .ok a ∧ f a = .ok b := by
  cases x <;> simp [bind, Except.bind]

/-! ### Operations that store nothing -/

/-! #### Machine/Ops -/

@[simp] theorem State.stored_setCore (s : State) (p : Nat) (c : Core) : (s.setCore p c).stored = s.stored := by
  simp [State.setCore]
@[simp] theorem State.stored_updCore (s : State) (p : Nat) (f : Core → Core) : (s.updCore p f).stored = s.stored := by
  simp [State.updCore]
@[simp] theorem State.stored_updField (s : State) (f : Nat) (g : Field → Field) : (s.updField f g).stored = s.stored := by
  simp [State.updField]
@[simp] theorem State.stored_updRegion (s : State) (r : Nat) (g : Region → Region) : (s.updRegion r g).stored = s.stored := by
  simp [State.updRegion]
@[simp] theorem State.stored_updPan (s : State) (p : Nat) (g : MemCtl → MemCtl) : (s.updPan p g).stored = s.stored := by
  simp [State.updPan]
@[simp] theorem State.stored_updGran (s : State) (c : Nat) (g : MemCtl → MemCtl) : (s.updGran c g).stored = s.stored := by
  simp [State.updGran]
@[simp] theorem State.stored_updInst (s : State) (i : Nat) (g : Inst → Inst) : (s.updInst i g).stored = s.stored := by
  simp [State.updInst]
@[simp] theorem State.stored_updPort (s : State) (n : Nat) (g : Port → Port) : (s.updPort n g).stored = s.stored := by
  simp [State.updPort]
@[simp] theorem State.stored_updLink (s : State) (n : Nat) (g : Link → Link) : (s.updLink n g).stored = s.stored := by
  simp [State.updLink]
@[simp] theorem State.stored_updSlot (s : State) (k : Nat) (g : Slot → Slot) : (s.updSlot k g).stored = s.stored := by
  simp [State.updSlot]
@[simp] theorem State.stored_updEntry (s : State) (x : Nat) (g : Entry → Entry) : (s.updEntry x g).stored = s.stored := by
  simp [State.updEntry]
@[simp] theorem State.stored_updTrain (s : State) (x : Nat) (g : Train → Train) : (s.updTrain x g).stored = s.stored := by
  simp [State.updTrain]
@[simp] theorem State.stored_updJob (s : State) (i q : Nat) (g : Job → Job) : (s.updJob i q g).stored = s.stored := by
  simp [State.updJob]
@[simp] theorem State.stored_count (s : State) (unit n amount : Nat) : (s.count unit n amount).stored = s.stored := by
  simp [State.count]
@[simp] theorem State.stored_mgtRecord (s : State) (bs : List Byte) : (s.mgtRecord bs).stored = s.stored := by
  simp [State.mgtRecord]
@[simp] theorem State.stored_eventAt (s : State) (tb unit code data : Nat) (conf : Bool) :
    (s.eventAt tb unit code data conf).stored = s.stored := by simp [State.eventAt]
@[simp] theorem State.stored_event (s : State) (unit code data : Nat) (conf : Bool) :
    (s.event unit code data conf).stored = s.stored := by simp [State.event]
@[simp] theorem State.stored_stopRegion (s : State) (r cause : Nat) : (s.stopRegion r cause).stored = s.stored := by
  simp [State.stopRegion]
@[simp] theorem State.stored_resumeRegion (s : State) (r cause : Nat) : (s.resumeRegion r cause).stored = s.stored := by
  simp [State.resumeRegion]
@[simp] theorem State.stored_tick (s : State) : (s.tick).stored = s.stored := by simp [State.tick]
@[simp] theorem State.stored_leave (s : State) (r : Nat) : (s.leave r).stored = s.stored := by simp [State.leave]
@[simp] theorem State.stored_enter (s : State) (r : Nat) : (s.enter r).stored = s.stored := by simp [State.enter]
@[simp] theorem State.stored_passes (s : State) (rs : List Nat) : (s.passes rs).stored = s.stored := by simp [State.passes]
@[simp] theorem State.stored_send (s : State) (t : Token) : (s.send t).stored = s.stored := by simp [State.send]
@[simp] theorem State.stored_crossed (s : State) (a b inst : Nat) : (s.crossed a b inst).stored = s.stored := by
  simp [State.crossed]

@[simp] theorem State.stored_take (s : State) (t : Token) : (s.take t).stored = s.stored := by
  unfold State.take
  split <;> simp

@[simp] theorem State.stored_moveUp (s : State) (t : Token) : (s.moveUp t).stored = s.stored := by simp [State.moveUp]

@[simp] theorem State.stored_stall (s : State) (tok : Nat) (kinds : List TokKind) : (s.stall tok kinds).stored = s.stored := by
  unfold State.stall
  split <;> simp

@[simp] theorem State.stored_portBytes (s : State) (port : Nat) (who : Option Nat) (code n : Nat) :
    (s.portBytes port who code n).stored = s.stored := by simp [State.portBytes]
@[simp] theorem State.stored_hostWrite (s : State) (port : Nat) (who : Option Nat) (a : Nat) (bs : List Byte) (relaxed : Bool) :
    (s.hostWrite port who a bs relaxed).stored = s.stored := by simp [State.hostWrite]
@[simp] theorem State.stored_hostAsk (s : State) (port : Nat) (who : Option Nat) (a n : Nat) (use : HostUse) :
    (s.hostAsk port who a n use).stored = s.stored := by simp [State.hostAsk]
@[simp] theorem State.stored_fetch (s : State) (port : Nat) (who : Option Nat) (use : FetchUse) (a n : Nat) :
    (s.fetch port who use a n).stored = s.stored := by simp [State.fetch]
@[simp] theorem State.stored_fire (s : State) (port vector : Nat) : (s.fire port vector).stored = s.stored := by simp [State.fire]

@[simp] theorem State.stored_post (s : State) (i typ status tag : Nat) (body : List Byte) :
    (s.post i typ status tag body).stored = s.stored := by
  simp only [State.post]
  (repeat' split) <;> simp

@[simp] theorem State.stored_reply (s : State) (i status tag : Nat) (body : List Byte) :
    (s.reply i status tag body).stored = s.stored := by simp [State.reply]
@[simp] theorem State.stored_dropWaits (s : State) (stop : Nat → Bool) : (s.dropWaits stop).stored = s.stored := by
  simp [State.dropWaits]
@[simp] theorem State.stored_stopJobTasks (s : State) (i q : Nat) : (s.stopJobTasks i q).stored = s.stored := by
  simp [State.stopJobTasks]
@[simp] theorem State.stored_endJob (s : State) (i q status : Nat) : (s.endJob i q status).stored = s.stored := by
  simp [State.endJob]
@[simp] theorem State.stored_stopJob (s : State) (i q : Nat) : (s.stopJob i q).stored = s.stored := by simp [State.stopJob]
@[simp] theorem State.stored_respondFault (s : State) (p cause detail i q : Nat) :
    (s.respondFault p cause detail i q).stored = s.stored := by simp [State.respondFault]
@[simp] theorem State.stored_corrects (s : State) (p : Nat) (fixed : List Nat) : (s.corrects p fixed).stored = s.stored := by
  simp [State.corrects]
@[simp] theorem State.stored_scratchUe (s : State) (p off : Nat) : (s.scratchUe p off).stored = s.stored := by
  simp [State.scratchUe]
@[simp] theorem State.stored_takeFault (s : State) (p cause unit idx detail : Nat) :
    (s.takeFault p cause unit idx detail).stored = s.stored := by simp [State.takeFault]
@[simp] theorem State.stored_coreFault (s : State) (p cause unit idx detail : Nat) :
    (s.coreFault p cause unit idx detail).stored = s.stored := by simp [State.coreFault]
@[simp] theorem State.stored_discard (s : State) (f a : Nat) : (s.discard f a).stored = s.stored := by simp [State.discard]

@[simp] theorem State.stored_issue (s : State) (p cls op : Nat) (ops : BitVec 56) {body : State → Core → Except IFault State}
    (hb : ∀ t, body s (s.core p) = .ok t → t.stored = s.stored) : (issue s p cls op ops body).stored = s.stored := by
  unfold issue
  dsimp only
  split
  · rfl
  · split
    · simp
    · split
      · rfl
      · split
        · exact hb _ ‹_›
        · simp

@[simp] theorem State.stored_issueCore (s : State) (p cls op : Nat) (ops : BitVec 56) (body : Core → Except IFault Core) :
    (issueCore s p cls op ops body).stored = s.stored := by
  refine State.stored_issue s p cls op ops fun t ht => ?_
  cases hc : body (s.core p) with
  | error f => simp [hc, Except.map] at ht
  | ok c =>
    simp only [hc, Except.map, Except.ok.injEq] at ht
    simp [← ht]

/-! #### Machine/Operands -/

@[simp] theorem State.stored_issueEngine (s : State) (p cls op : Nat) (ops : BitVec 56) (eng : Nat)
    (foot : Core → Except IFault Foot) :
    (issueEngine s p cls op ops eng foot).stored = s.stored := by simp [issueEngine]

/-! #### Machine/Matrix -/

@[simp] theorem State.stored_countBusy (s : State) (p n : Nat) : (s.countBusy p n).stored = s.stored := by simp [State.countBusy]
@[simp] theorem State.stored_doMatrix (narrow seg : Bool) (op p : Nat) (ops : BitVec 56) (s : State) :
    (doMatrix narrow seg op p ops s).stored = s.stored := by simp [doMatrix]

/-! #### Machine/LinkOps -/

@[simp] theorem State.stored_linkPump (s : State) (n : Nat) : (s.linkPump n).stored = s.stored := by simp [State.linkPump]
@[simp] theorem State.stored_linkPut (s : State) (n : Nat) (m : OutMsg) : (s.linkPut n m).stored = s.stored := by
  simp [State.linkPut]
@[simp] theorem State.stored_linkSend (s : State) (n vc i : Nat) (plain : List Byte) :
    (s.linkSend n vc i plain).stored = s.stored := by simp [State.linkSend]

@[simp] theorem State.stored_linkRequest (s : State) (n i kind addr arg : Nat) (payload : List Byte) (origin : Origin)
    (seq : Nat) :
    (s.linkRequest n i kind addr arg payload origin seq).stored = s.stored := by simp [State.linkRequest]

@[simp] theorem State.stored_linkResponse (s : State) (n i kind status tag : Nat) (payload : List Byte) :
    (s.linkResponse n i kind status tag payload).stored = s.stored := by simp [State.linkResponse]
@[simp] theorem State.stored_linkControl (s : State) (n sub : Nat) (payload : List Byte) :
    (s.linkControl n sub payload).stored = s.stored := by simp [State.linkControl]

/-! #### Machine/Copy -/

@[simp] theorem State.stored_putDesc (s : State) (p e : Nat) (a : ActDesc) : (s.putDesc p e a).stored = s.stored := by
  simp [State.putDesc]

theorem State.stored_emitWrite {s t : State} {p e : Nat} {a : ActDesc} {w : CopyWrite} (h : s.emitWrite p e a w = .ok t) :
    t.stored = s.stored := by
  unfold State.emitWrite at h
  dsimp only at h
  repeat' split at h
  all_goals cases h
  all_goals simp

theorem State.stored_askRead {s t : State} {p e : Nat} {a : ActDesc} {k : Nat × Nat × Nat} (h : s.askRead p e a k = .ok t) :
    t.stored = s.stored := by
  unfold State.askRead at h
  dsimp only at h
  repeat' split at h
  all_goals cases h
  all_goals simp

@[simp] theorem State.stored_pump (s : State) (p e d fuel : Nat) : (s.pump p e d fuel).stored = s.stored := by
  induction fuel generalizing s with
  | zero => rfl
  | succ fuel ih =>
    unfold State.pump
    dsimp only
    split
    · rfl
    · next a ha =>
      split
      · rfl
      · simp
      · next t hstep =>
        rw [ih]
        split at hstep
        · split at hstep
          · exact State.stored_emitWrite (Option.some.inj hstep)
          · split at hstep
            · split at hstep
              · exact State.stored_askRead (Option.some.inj hstep)
              · cases hstep
            · cases hstep
        · split at hstep
          · exact State.stored_askRead (Option.some.inj hstep)
          · cases hstep
        · cases hstep

@[simp] theorem State.stored_finish (s : State) (p e d : Nat) : (s.finish p e d).stored = s.stored := by
  simp only [State.finish]
  (repeat' split) <;> simp

@[simp] theorem State.stored_run (s : State) (p e d : Nat) : (s.run p e d).stored = s.stored := by simp [State.run]

@[simp] theorem State.stored_startRead (s : State) (p e : Nat) (q : CpyEntry) (d : Desc) :
    (s.startRead p e q d).stored = s.stored := by
  simp only [State.startRead]
  (repeat' split) <;> simp

@[simp] theorem State.stored_runAll (s : State) : (s.runAll).stored = s.stored := by
  have hcore : ∀ (s : State) (x : Nat × Core), ((List.range 2).foldl
      (fun s e => (x.2.ce e).act.foldl (fun s a => s.run x.1 e a.id) s) s).stored = s.stored := by
    simp
  unfold State.runAll
  exact (State.stored_foldl State.stored_linkPump _ _).trans (State.stored_foldl hcore _ _)

@[simp] theorem State.stored_doDescriptorStart (p e : Nat) (fixed bad : List Nat) (s : State) :
    (doDescriptorStart p e fixed bad s).stored = s.stored := by
  simp only [doDescriptorStart]
  (repeat' split) <;> simp

@[simp] theorem State.stored_wake (s : State) (p : Nat) : (s.wake p).stored = s.stored := by simp [State.wake]

@[simp] theorem State.stored_deliverPiece (s : State) (p e : Nat) (a : ActDesc) (pc : Piece) (data : List Byte) (ue : Nat) :
    (s.deliverPiece p e a pc data ue).stored = s.stored := by
  unfold State.deliverPiece
  split <;> simp

@[simp] theorem State.stored_readScratch (s : State) (p e q off : Nat) (a : ActDesc) (pc : Piece) (fixed bad : List Nat) :
    (s.readScratch p e q off a pc fixed bad).stored = s.stored := by
  simp only [State.readScratch]
  (repeat' split) <;> simp

@[simp] theorem State.stored_doReadDataArrival (p e d : Nat) (fixed bad : List Nat) (s : State) :
    (doReadDataArrival p e d fixed bad s).stored = s.stored := by
  simp only [doReadDataArrival]
  (repeat' split) <;> simp

@[simp] theorem State.stored_ackWrites (s : State) (p e d n : Nat) : (s.ackWrites p e d n).stored = s.stored := by
  unfold State.ackWrites
  split <;> simp

@[simp] theorem State.stored_ackCopy (s : State) (p e d : Nat) : (s.ackCopy p e d).stored = s.stored := by simp [State.ackCopy]

@[simp] theorem State.stored_doWriteAcknowledge (tok : Nat) (s : State) : (doWriteAcknowledge tok s).stored = s.stored := by
  unfold doWriteAcknowledge
  (repeat' split) <;> simp

@[simp] theorem State.stored_acknowledge (s : State) (t : Token) : (s.acknowledge t).stored = s.stored := by
  unfold State.acknowledge
  split <;> simp

@[simp] theorem State.stored_refuseAt (s : State) (f : Nat) (t : Token) : (s.refuseAt f t).stored = s.stored := by
  unfold State.refuseAt
  split <;> simp

@[simp] theorem State.stored_doScratchWriteArrival (tok err : Nat) (s : State) :
    (doScratchWriteArrival tok err s).stored = s.stored := by
  unfold doScratchWriteArrival
  (repeat' split) <;> simp

/-! #### Machine/Semaphore -/

theorem State.stored_semBody {s t : State} {p o : Nat} {kind : TokKind} {c : Core} (h : semBody p kind o s c = .ok t) :
    t.stored = s.stored := by
  unfold semBody at h
  obtain ⟨-, -, h⟩ := Except.bind_eq_ok.1 h
  split at h
  · cases h; rfl
  · dsimp only at h
    split at h
    · cases h
    · split at h
      · cases h; simp
      · cases h; simp

theorem State.stored_feSend {s t : State} {p : Nat} {c : Core} {op : FeOp} (h : s.feSend p c op = .ok t) :
    t.stored = s.stored := by
  unfold State.feSend at h
  split at h
  · cases h
  · dsimp only at h
    split at h
    · cases h
      simp
    · obtain ⟨_, -, h⟩ := Except.bind_eq_ok.1 h
      cases h
      simp

theorem State.stored_feBody {s t : State} {p o : Nat} {load : Bool} {c : Core} (h : feBody p load o s c = .ok t) :
    t.stored = s.stored := by
  unfold feBody at h
  obtain ⟨_, -, h⟩ := Except.bind_eq_ok.1 h
  obtain ⟨_, -, h⟩ := Except.bind_eq_ok.1 h
  exact State.stored_feSend h

@[simp] theorem State.stored_wakeCore (s : State) (unit p inst taskId : Nat) :
    (s.wakeCore unit p inst taskId).stored = s.stored := by simp [State.wakeCore]
@[simp] theorem State.stored_semChange (s : State) (k c : Nat) : (s.semChange k c).stored = s.stored := by simp [State.semChange]
@[simp] theorem State.stored_semCounted (s : State) (k : Nat) : (s.semCounted k).stored = s.stored := by simp [State.semCounted]
@[simp] theorem State.stored_semAddTo (s : State) (k n : Nat) : (s.semAddTo k n).stored = s.stored := by simp [State.semAddTo]
@[simp] theorem State.stored_semSubFrom (s : State) (k n : Nat) : (s.semSubFrom k n).stored = s.stored := by
  simp [State.semSubFrom]

@[simp] theorem State.stored_semRetire (s : State) (t : Token) : (s.semRetire t).stored = s.stored := by
  unfold State.semRetire
  split <;> simp

@[simp] theorem State.stored_doSemaphoreAdd (tok : Nat) (s : State) : (doSemaphoreAdd tok s).stored = s.stored := by
  unfold doSemaphoreAdd
  (repeat' split) <;> simp

@[simp] theorem State.stored_doSemaphoreSub (tok : Nat) (s : State) : (doSemaphoreSub tok s).stored = s.stored := by
  unfold doSemaphoreSub
  split <;> simp

@[simp] theorem State.stored_doSemWait (sub : Bool) (tok : Nat) (s : State) : (doSemWait sub tok s).stored = s.stored := by
  unfold doSemWait
  (repeat' split) <;> simp

@[simp] theorem State.stored_doWakeToken (tok : Nat) (s : State) : (doWakeToken tok s).stored = s.stored := by
  unfold doWakeToken
  (repeat' split) <;> simp

@[simp] theorem State.stored_semClear (s : State) (hit : Nat → Bool) : (s.semClear hit).stored = s.stored := by
  simp [State.semClear]

@[simp] theorem State.stored_doFeRetry (p : Nat) (s : State) : (doFeRetry p s).stored = s.stored := by
  unfold doFeRetry
  dsimp only
  split
  · split
    · rfl
    · split
      · exact State.stored_feSend ‹_›
      · simp
  · rfl

/-! #### Machine/Control -/

@[simp] theorem State.stored_countBeats (s : State) (p word : Nat) (c : Core) : (s.countBeats p word c).stored = s.stored := by
  simp [State.countBeats]

@[simp] theorem State.stored_doEngineComplete (p eng : Nat) (fixed bad : List Nat) (s : State) :
    (doEngineComplete p eng fixed bad s).stored = s.stored := by
  simp only [doEngineComplete]
  (repeat' split) <;> simp

/-! #### Machine/Memory -/

@[simp] theorem State.stored_doRetentionEntry (p : Nat) (s : State) : (doRetentionEntry p s).stored = s.stored := by
  simp [doRetentionEntry]

@[simp] theorem State.stored_doRetentionWake (p : Nat) (s : State) : (doRetentionWake p s).stored = s.stored := by
  simp only [doRetentionWake]
  (repeat' split) <;> simp

@[simp] theorem State.stored_doCorCtrlWrite (p : Nat) (v : BitVec 32) (s : State) : (doCorCtrlWrite p v s).stored = s.stored := by
  simp [doCorCtrlWrite]
@[simp] theorem State.stored_doMarch (p mode : Nat) (v : BitVec 32) (s : State) : (doMarch p mode v s).stored = s.stored := by
  simp [doMarch]
@[simp] theorem State.stored_doMarchTestComplete (p failBank failLines : Nat) (s : State) :
    (doMarchTestComplete p failBank failLines s).stored = s.stored := by simp [doMarchTestComplete]

@[simp] theorem State.stored_faultOrigin (s : State) (t : Token) : (s.faultOrigin t).stored = s.stored := by
  unfold State.faultOrigin
  (repeat' split) <;> simp

@[simp] theorem State.stored_panCorrected (s : State) (p : Nat) : (s.panCorrected p).stored = s.stored := by
  simp [State.panCorrected]

@[simp] theorem State.stored_panHeal (s : State) (p off n : Nat) : (s.panHeal p off n).stored = s.stored := by
  refine State.stored_foldl (fun s x => ?_) _ _
  dsimp only
  split
  · split <;> simp
  · rfl

@[simp] theorem State.stored_deliverRead (s : State) (t : Token) (bs : List Byte) (ue : Nat) :
    (s.deliverRead t bs ue).stored = s.stored := by
  unfold State.deliverRead
  split <;> simp

@[simp] theorem State.stored_countAccess (s : State) (unit n amount inst : Nat) :
    (s.countAccess unit n amount inst).stored = s.stored := by simp [State.countAccess]
@[simp] theorem State.stored_panRefuse (s : State) (u : Use) (q off n : Nat) (t : Token) :
    (s.panRefuse u q off n t).stored = s.stored := by simp [State.panRefuse]
@[simp] theorem State.stored_accRest (s : State) (t : Token) (done : List Byte) : (s.accRest t done).stored = s.stored := by
  simp [State.accRest]
@[simp] theorem State.stored_granCorrected (s : State) (c : Nat) : (s.granCorrected c).stored = s.stored := by
  simp [State.granCorrected]
@[simp] theorem State.stored_granHeal (s : State) (a n : Nat) : (s.granHeal a n).stored = s.stored := by simp [State.granHeal]

/-! #### Machine/Fence -/

@[simp] theorem State.stored_renameCore (s : State) (p : Nat) : (s.renameCore p).stored = s.stored := by
  simp only [State.renameCore]
  (repeat' split) <;> simp

@[simp] theorem State.stored_fencePos (s : State) (p code : Nat) : (s.fencePos p code).stored = s.stored := by
  simp [State.fencePos]
@[simp] theorem State.stored_unbuilt (s : State) (g : Nat) : (s.unbuilt g).stored = s.stored := State.stored_mk ..

@[simp] theorem State.stored_remapGranule (s : State) (p : Nat) (x : Nat × Option Nat) :
    (s.remapGranule p x).stored = s.stored := by
  unfold State.remapGranule
  split <;> simp

@[simp] theorem State.stored_alert (s : State) (b : Nat) : (s.alert b).stored = s.stored := by simp [State.alert]

@[simp] theorem State.stored_blackBox (s : State) (causes fatal : Nat) : (s.blackBox causes fatal).stored = s.stored := by
  unfold State.blackBox
  (repeat' split) <;> simp

/-! #### Machine/Nvs -/

@[simp] theorem State.stored_applyRates (s : State) (regions : List Nat) (values : List Nat) :
    (s.applyRates regions values).stored = s.stored := by simp [State.applyRates]
@[simp] theorem State.stored_changeRates (s : State) (regions : List Nat) : (s.changeRates regions).stored = s.stored := by
  simp [State.changeRates]
@[simp] theorem State.stored_firstFloors (s : State) : (s.firstFloors).stored = s.stored := by simp [State.firstFloors]
@[simp] theorem State.stored_drawn (s : State) (n : Nat) : (s.drawn n).stored = s.stored := by simp [State.drawn]
@[simp] theorem State.stored_newKeys (s : State) (i : Nat) : (s.newKeys i).stored = s.stored := by simp [State.newKeys]
@[simp] theorem State.stored_endSessions (s : State) (i : Nat) : (s.endSessions i).stored = s.stored := by
  simp [State.endSessions]
@[simp] theorem State.stored_createInst (s : State) (i : Nat) : (s.createInst i).stored = s.stored := by simp [State.createInst]
@[simp] theorem State.stored_removeInst (s : State) (i : Nat) : (s.removeInst i).stored = s.stored := by simp [State.removeInst]
@[simp] theorem State.stored_startLinks (s : State) : (s.startLinks).stored = s.stored := by simp [State.startLinks]
@[simp] theorem State.stored_nvsStart (s : State) (o : NvsOp) : (s.nvsStart o).stored = s.stored := by simp [State.nvsStart]
@[simp] theorem State.stored_nvsEnd (s : State) (r : Nat) : (s.nvsEnd r).stored = s.stored := by simp [State.nvsEnd]
@[simp] theorem State.stored_doNvsRead (op port : Nat) (v : BitVec 32) (s : State) :
    (doNvsRead op port v s).stored = s.stored := by simp [doNvsRead]

@[simp] theorem State.stored_wear (s : State) (a : Nat × Nat) : (s.wear a).stored = s.stored := by
  unfold State.wear
  (repeat' split) <;> simp

@[simp] theorem State.stored_applyPartial (s : State) (b : List Byte) (z : Zcfg) : (s.applyPartial b z).stored = s.stored := by
  simp [State.applyPartial]

@[simp] theorem State.stored_doFullImageApplyComplete (s : State) : (doFullImageApplyComplete s).stored = s.stored := by
  unfold doFullImageApplyComplete
  split
  · rfl
  · split
    · rfl
    · rw [State.stored_nvsEnd, State.stored_alert]
      refine Eq.trans (State.stored_mk ..) ?_
      rw [State.stored_eta, State.stored_startLinks, State.stored_firstFloors, State.stored_changeRates,
        State.stored_foldl State.stored_createInst, State.stored_event, State.stored_mk, State.stored_eta]

@[simp] theorem State.stored_doAdoption (i : Nat) (s : State) : (doAdoption i s).stored = s.stored := by
  simp only [doAdoption]
  (repeat' split) <;> simp

/-! #### Machine/Startup -/

@[simp] theorem State.stored_selectSlot (s : State) : (s.selectSlot).stored = s.stored := by simp [State.selectSlot]

@[simp] theorem State.stored_applyBoot (s : State) : (s.applyBoot).stored = s.stored := by
  unfold State.applyBoot
  dsimp only
  refine (State.stored_foldl State.stored_createInst _ _).trans ?_
  split <;> split <;> exact State.stored_mk ..

@[simp] theorem State.stored_marchAll (s : State) (bad values : List Nat) : (s.marchAll bad values).stored = s.stored := by
  simp [State.marchAll]
@[simp] theorem State.stored_acceptCopy (s : State) (k c : Nat) : (s.acceptCopy k c).stored = s.stored := by
  simp [State.acceptCopy]

theorem State.stored_acceptFirmware {s t : State} {bad : List Nat} (h : s.acceptFirmware bad = some t) :
    t.stored = s.stored := by
  simp only [State.acceptFirmware, List.foldl_cons, List.foldl_nil, Option.bind_some, Option.bind_eq_some_iff,
    Option.map_eq_some_iff] at h
  obtain ⟨_, ⟨_, ⟨_, -, rfl⟩, _, -, rfl⟩, _, -, rfl⟩ := h
  simp

@[simp] theorem State.stored_halt (s : State) : (s.halt).stored = s.stored := by simp [State.halt]
@[simp] theorem State.stored_railsGood (s : State) : (s.railsGood).stored = s.stored := by simp [State.railsGood]
@[simp] theorem State.stored_doPerstDeassert (port : Nat) (s : State) : (doPerstDeassert port s).stored = s.stored := by
  simp [doPerstDeassert]
@[simp] theorem State.stored_doConfigurationRequest (port : Nat) (ats : Option Bool) (s : State) :
    (doConfigurationRequest port ats s).stored = s.stored := by simp [doConfigurationRequest]

/-! #### Machine/Catalogue -/

@[simp] theorem State.stored_book (s : State) (units : List Nat) (t0 len : Nat) (entries : List Nat) :
    (s.book units t0 len entries).stored = s.stored := by simp [State.book]
@[simp] theorem State.stored_rebook (s : State) : (s.rebook).stored = s.stored := by simp [State.rebook]
@[simp] theorem State.stored_pinEntry (s : State) (x : Nat) : (s.pinEntry x).stored = s.stored := by simp [State.pinEntry]
@[simp] theorem State.stored_unpin (s : State) (q : Pin) : (s.unpin q).stored = s.stored := by simp [State.unpin]
@[simp] theorem State.stored_countEviction (s : State) (i : Nat) : (s.countEviction i).stored = s.stored := by
  simp [State.countEviction]
@[simp] theorem State.stored_evictNow (s : State) (x : Nat) : (s.evictNow x).stored = s.stored := by simp [State.evictNow]

theorem State.stored_makeRoom {i f fuel : Nat} {named : List Nat} {s t : State} (h : makeRoom i f named fuel s = some t) :
    t.stored = s.stored := by
  induction fuel generalizing s with
  | zero => cases h
  | succ fuel ih =>
    unfold makeRoom at h
    split at h
    · cases h; rfl
    · dsimp only at h
      split at h
      · simpa using ih h
      · split at h
        · cases h; rfl
        · split at h
          · simpa using ih h
          · cases h

theorem State.stored_askPageIn {s t : State} {x : Nat} {named : List Nat} (h : s.askPageIn x named = some t) :
    t.stored = s.stored := by
  simp only [State.askPageIn, Option.map_eq_some_iff] at h
  obtain ⟨u, hu, rfl⟩ := h
  simpa using State.stored_makeRoom hu

@[simp] theorem State.stored_withdrawPins (s : State) (x : Nat) : (s.withdrawPins x).stored = s.stored := by
  simp [State.withdrawPins]

@[simp] theorem State.stored_dropRows (s : State) (i q : Nat) (rows : List Nat) : (s.dropRows i q rows).stored = s.stored := by
  unfold State.dropRows
  split <;> simp

@[simp] theorem State.stored_answerWaiters (s : State) (x status : Nat) : (s.answerWaiters x status).stored = s.stored := by
  simp [State.answerWaiters]
@[simp] theorem State.stored_abandonPageIn (s : State) (x status : Nat) : (s.abandonPageIn x status).stored = s.stored := by
  simp [State.abandonPageIn]
@[simp] theorem State.stored_drainEntry (s : State) (x : Nat) : (s.drainEntry x).stored = s.stored := by simp [State.drainEntry]
@[simp] theorem State.stored_wrongPort (s : State) (port : Nat) : (s.wrongPort port).stored = s.stored := by
  simp [State.wrongPort]
@[simp] theorem State.stored_tdiError (s : State) (i : Nat) : (s.tdiError i).stored = s.stored := by simp [State.tdiError]

@[simp] theorem State.stored_message (s : State) (port i : Nat) (ide : Bool) (code : Nat) (msg : List Byte) {body : State → State}
    (hb : ∀ s, (body s).stored = s.stored) : (s.message port i ide code msg body).stored = s.stored := by
  simp [State.message, hb]

/-! #### Machine/Slots -/

@[simp] theorem State.stored_thrDone (s : State) (r : Nat) : (s.thrDone r).stored = s.stored := by simp [State.thrDone]

@[simp] theorem State.stored_slotCmd (s : State) (op : Nat) (v : BitVec 32) {body : State → Nat → Nat → State}
    (hb : ∀ s k o, (body s k o).stored = s.stored) : (s.slotCmd op v body).stored = s.stored := by
  simp [State.slotCmd, hb]

@[simp] theorem State.stored_doStage (v : BitVec 32) (s : State) : (doStage v s).stored = s.stored := by
  refine State.stored_slotCmd s _ v fun s k _ => ?_
  split <;> simp

@[simp] theorem State.stored_doActivate (v : BitVec 32) (s : State) : (doActivate v s).stored = s.stored := by
  refine State.stored_slotCmd s _ v fun s k _ => ?_
  split <;> simp

@[simp] theorem State.stored_makeStale (s : State) (x : Nat) : (s.makeStale x).stored = s.stored := by simp [State.makeStale]

@[simp] theorem State.stored_retireSlot (s : State) (old : Nat) (new : Option Nat) :
    (s.retireSlot old new).stored = s.stored := by
  unfold State.retireSlot
  (repeat' split) <;> simp

@[simp] theorem State.stored_doSwitch (v : BitVec 32) (s : State) : (doSwitch v s).stored = s.stored := by simp [doSwitch]

@[simp] theorem State.stored_doRetire (v : BitVec 32) (s : State) : (doRetire v s).stored = s.stored := by
  refine State.stored_slotCmd s _ v fun s k _ => ?_
  split <;> simp

@[simp] theorem State.stored_stopConsuming (s : State) (k : Nat) : (s.stopConsuming k).stored = s.stored := by
  simp [State.stopConsuming]

@[simp] theorem State.stored_doClear (v : BitVec 32) (s : State) : (doClear v s).stored = s.stored := by
  unfold doClear
  dsimp only
  split_ifs
  · simp
  · refine State.stored_slotCmd s _ v fun s k _ => ?_
    split <;> simp

@[simp] theorem State.stored_doSlotRelease (k : Nat) (s : State) : (doSlotRelease k s).stored = s.stored := by
  simp [doSlotRelease]

@[simp] theorem State.stored_doForkCopyComplete (k : Nat) (s : State) : (doForkCopyComplete k s).stored = s.stored := by
  simp only [doForkCopyComplete]
  (repeat' split) <;> simp

/-! #### Machine/Receive -/

@[simp] theorem State.stored_stageDone (s : State) (k r : Nat) : (s.stageDone k r).stored = s.stored := by simp [State.stageDone]
@[simp] theorem State.stored_failConsuming (s : State) (k r : Nat) : (s.failConsuming k r).stored = s.stored := by
  simp [State.failConsuming]
@[simp] theorem State.stored_streamDone (s : State) : (s.streamDone).stored = s.stored := by simp [State.streamDone]

@[simp] theorem State.stored_breakStream (s : State) (r : Nat) : (s.breakStream r).stored = s.stored := by
  unfold State.breakStream
  split <;> simp

@[simp] theorem State.stored_copyFault (s : State) (p e d cause addr k : Nat) :
    (s.copyFault p e d cause addr k).stored = s.stored := by
  unfold State.copyFault
  split <;> simp

@[simp] theorem State.stored_endRequest (s : State) (n : Nat) (r : LinkReq) : (s.endRequest n r).stored = s.stored := by
  unfold State.endRequest
  split <;> simp

@[simp] theorem State.stored_endRequests (s : State) (n : Nat) (test : LinkReq → Bool) :
    (s.endRequests n test).stored = s.stored := by simp [State.endRequests]
@[simp] theorem State.stored_linkDown (s : State) (n cause : Nat) : (s.linkDown n cause).stored = s.stored := by
  simp [State.linkDown]
@[simp] theorem State.stored_stayDown (s : State) (n cause : Nat) : (s.stayDown n cause).stored = s.stored := by
  simp [State.stayDown]
@[simp] theorem State.stored_sendSession (s : State) (n phase inst : Nat) : (s.sendSession n phase inst).stored = s.stored := by
  simp [State.sendSession]
@[simp] theorem State.stored_renewSession (s : State) (n i : Nat) : (s.renewSession n i).stored = s.stored := by
  simp [State.renewSession]
@[simp] theorem State.stored_dropMsg (s : State) (n vc len : Nat) : (s.dropMsg n vc len).stored = s.stored := by
  simp [State.dropMsg]
@[simp] theorem State.stored_authFail (s : State) (n : Nat) : (s.authFail n).stored = s.stored := by simp [State.authFail]
@[simp] theorem State.stored_tagFailure (s : State) (n i : Nat) : (s.tagFailure n i).stored = s.stored := by
  simp [State.tagFailure]
@[simp] theorem State.stored_received (s : State) (n vc i len : Nat) (old : Bool) :
    (s.received n vc i len old).stored = s.stored := by simp [State.received]

@[simp] theorem State.stored_receive (s : State) (n vc : Nat) (mine : List Byte → Bool) (key : Nat) (plain : List Byte)
    {waits : Nat → Option State} {body : State → Nat → State} (hw : ∀ i t, waits i = some t → t.stored = s.stored)
    (hb : ∀ s i, (body s i).stored = s.stored) : (s.receive n vc mine key plain waits body).stored = s.stored := by
  unfold State.receive
  split
  · rfl
  · dsimp only
    split_ifs
    · rfl
    · simp
    · simp
    · simp
    · rfl
    · simp
    · rfl
    · split
      · exact hw _ _ ‹_›
      · simp [hb]

@[simp] theorem noWait_eq_none (i : Nat) : noWait i = none := rfl

/-! #### Machine/Stream -/

@[simp] theorem State.stored_updStream (s : State) (g : Stream → Stream) : (s.updStream g).stored = s.stored := by
  simp [State.updStream]

@[simp] theorem State.stored_checkPlacement (s : State) (tab : List Byte) : (s.checkPlacement tab).stored = s.stored := by
  unfold State.checkPlacement
  split <;> simp

@[simp] theorem State.stored_streamChecks (s : State) (before arg : Nat) : (s.streamChecks before arg).stored = s.stored := by
  unfold State.streamChecks
  split <;> simp

@[simp] theorem State.stored_passStream (s : State) (source : Option Nat) (off arg : Nat) (payload : List Byte) :
    (s.passStream source off arg payload).stored = s.stored := by
  simp only [State.passStream]
  (repeat' split) <;> simp

@[simp] theorem State.stored_headNext (s : State) : (s.headNext).stored = s.stored := by
  unfold State.headNext
  split <;> simp

@[simp] theorem State.stored_doStart (_port : Nat) (v : BitVec 32) (s : State) : (doStart _port v s).stored = s.stored := by
  simp [doStart]

@[simp] theorem State.stored_headData (s : State) (ok : Bool) (data : List Byte) (len : Nat) :
    (s.headData ok data len).stored = s.stored := by
  unfold State.headData
  split <;> simp

@[simp] theorem State.stored_sealedArrived (s : State) (x : Nat) (ok : Bool) (bytes : List Byte) :
    (s.sealedArrived x ok bytes).stored = s.stored := by
  simp only [State.sealedArrived]
  (repeat' split) <;> simp

@[simp] theorem State.stored_streamLoad (s : State) (n i : Nat) (all : List Byte) : (s.streamLoad n i all).stored = s.stored := by
  unfold State.streamLoad
  dsimp only
  split
  · simp
  · exact (State.stored_sealedArrived ..).trans (State.stored_updEntry ..)

@[simp] theorem State.stored_instForward (s : State) (n i off : Nat) (payload : List Byte) :
    (s.instForward n i off payload).stored = s.stored := by simp [State.instForward]
@[simp] theorem State.stored_doForward (n key : Nat) (plain : List Byte) (s : State) :
    (doForward n key plain s).stored = s.stored := by simp [doForward]
@[simp] theorem State.stored_doStreamAbort (n key : Nat) (plain : List Byte) (s : State) :
    (doStreamAbort n key plain s).stored = s.stored := State.stored_receive s n 0 _ key plain (by simp) (by simp)

/-! #### Machine/Variants -/

@[simp] theorem State.stored_doVariantLoad (port i : Nat) (ide : Bool) (msg : List Byte) (s : State) :
    (doVariantLoad port i ide msg s).stored = s.stored := by
  refine State.stored_message s port i ide _ msg fun s => ?_
  split <;> simp

@[simp] theorem State.stored_loadAnswer (s : State) (e : Entry) (status handle : Nat) :
    (s.loadAnswer e status handle).stored = s.stored := by
  unfold State.loadAnswer
  split <;> simp

@[simp] theorem State.stored_loadRefused (s : State) (x status : Nat) : (s.loadRefused x status).stored = s.stored := by
  simp [State.loadRefused]
@[simp] theorem State.stored_retireFork (s : State) (x : Nat) : (s.retireFork x).stored = s.stored := by simp [State.retireFork]

@[simp] theorem State.stored_doVariantDelete (port i : Nat) (ide : Bool) (msg : List Byte) (s : State) :
    (doVariantDelete port i ide msg s).stored = s.stored := by
  refine State.stored_message s port i ide _ msg fun s => ?_
  dsimp only
  split <;> simp

@[simp] theorem State.stored_doVariantPageIn (port i : Nat) (ide : Bool) (msg : List Byte) (s : State) :
    (doVariantPageIn port i ide msg s).stored = s.stored := by
  refine State.stored_message s port i ide _ msg fun s => ?_
  dsimp only
  split
  · simp
  · split_ifs
    · simp
    · simp
    · simp
    · simp
    · split
      · simp
      · next h => simpa using State.stored_askPageIn h

@[simp] theorem State.stored_doVariantQuery (port i : Nat) (ide : Bool) (msg : List Byte) (s : State) :
    (doVariantQuery port i ide msg s).stored = s.stored := by
  refine State.stored_message s port i ide _ msg fun s => ?_
  dsimp only
  split <;> simp

@[simp] theorem State.stored_doPageInStart (x : Nat) (s : State) : (doPageInStart x s).stored = s.stored := by
  simp [doPageInStart]

/-! #### Machine/Training -/

@[simp] theorem State.stored_doTrainOpen (port i : Nat) (ide : Bool) (msg : List Byte) (s : State) :
    (doTrainOpen port i ide msg s).stored = s.stored := by simp [doTrainOpen]
@[simp] theorem State.stored_recordArrived (s : State) (i : Nat) (msg : List Byte) (ok : Bool) (record : List Byte) :
    (s.recordArrived i msg ok record).stored = s.stored := by simp [State.recordArrived]

@[simp] theorem State.stored_doTrainQuery (port i : Nat) (ide : Bool) (msg : List Byte) (s : State) :
    (doTrainQuery port i ide msg s).stored = s.stored := by
  refine State.stored_message s port i ide _ msg fun s => ?_
  split <;> simp

@[simp] theorem State.stored_sendSnap (s : State) (x i : Nat) (q : Snap) (plain : List Byte) :
    (s.sendSnap x i q plain).stored = s.stored := by simp [State.sendSnap]

@[simp] theorem State.stored_captureNow (s : State) (x : Nat) : (s.captureNow x).stored = s.stored := by
  unfold State.captureNow
  dsimp only
  refine (State.stored_foldl (fun s q => ?_) _ _).trans (State.stored_updTrain ..)
  split
  · rfl
  · split <;> simp

@[simp] theorem State.stored_capture (s : State) (x : Nat) : (s.capture x).stored = s.stored := by simp [State.capture]
@[simp] theorem State.stored_captureDue (s : State) (x : Nat) : (s.captureDue x).stored = s.stored := by simp [State.captureDue]
@[simp] theorem State.stored_bookSnap (s : State) (x : Nat) (q : Snap) : (s.bookSnap x q).stored = s.stored := by
  simp [State.bookSnap]

@[simp] theorem State.stored_doSnapshot (port i : Nat) (ide : Bool) (msg : List Byte) (s : State) :
    (doSnapshot port i ide msg s).stored = s.stored := by
  refine State.stored_message s port i ide _ msg fun s => ?_
  dsimp only
  split <;> simp

@[simp] theorem State.stored_doSnapshotDelivered (x : Nat) (ok : Bool) (s : State) :
    (doSnapshotDelivered x ok s).stored = s.stored := by
  simp only [doSnapshotDelivered]
  (repeat' split) <;> simp

@[simp] theorem State.stored_closeTrain (s : State) (x tag : Nat) : (s.closeTrain x tag).stored = s.stored := by
  simp [State.closeTrain]

@[simp] theorem State.stored_doTrainClose (port i : Nat) (ide : Bool) (msg : List Byte) (s : State) :
    (doTrainClose port i ide msg s).stored = s.stored := by
  refine State.stored_message s port i ide _ msg fun s => ?_
  split <;> simp

@[simp] theorem State.stored_doUpdateEntryStart (s : State) : (doUpdateEntryStart s).stored = s.stored := by
  unfold doUpdateEntryStart
  split <;> simp

@[simp] theorem State.stored_startRefresh (s : State) (x : Nat) : (s.startRefresh x).stored = s.stored := by
  simp [State.startRefresh]

/-! #### Machine/Rates -/

@[simp] theorem State.stored_measure (s : State) (r rate mv temp : Nat) : (s.measure r rate mv temp).stored = s.stored := by
  simp [State.measure]
@[simp] theorem State.stored_doFloorRecompute (s : State) : (doFloorRecompute s).stored = s.stored := by simp [doFloorRecompute]
@[simp] theorem State.stored_doRateKeeperStep (r : Nat) (s : State) : (doRateKeeperStep r s).stored = s.stored := by
  simp [doRateKeeperStep]

@[simp] theorem State.stored_doSupplyStep (f : Nat) (s : State) : (doSupplyStep f s).stored = s.stored := by
  unfold doSupplyStep
  split <;> simp

@[simp] theorem State.stored_movePlans (s : State) (r n : Nat) : (s.movePlans r n).stored = s.stored := by simp [State.movePlans]
@[simp] theorem State.stored_startRecal (s : State) (r : Nat) : (s.startRecal r).stored = s.stored := by simp [State.startRecal]

@[simp] theorem State.stored_recalWrite (s : State) (v : BitVec 32) (force : Bool) {body : State → Nat → State}
    (hb : ∀ s r, (body s r).stored = s.stored) : (s.recalWrite v force body).stored = s.stored := by
  simp [State.recalWrite, hb]

@[simp] theorem State.stored_doRecalRequest (v : BitVec 32) (s : State) : (doRecalRequest v s).stored = s.stored := by
  simp [doRecalRequest]
@[simp] theorem State.stored_startRetrain (s : State) (p : Nat) : (s.startRetrain p).stored = s.stored := by
  simp [State.startRetrain]

@[simp] theorem State.stored_doRecalPauseStart (s : State) : (doRecalPauseStart s).stored = s.stored := by
  unfold doRecalPauseStart
  (repeat' split) <;> simp

@[simp] theorem State.stored_doRecalPauseEnd (s : State) : (doRecalPauseEnd s).stored = s.stored := by
  unfold doRecalPauseEnd
  split <;> simp

@[simp] theorem State.stored_doReferenceLost (s : State) : (doReferenceLost s).stored = s.stored := by simp [doReferenceLost]
@[simp] theorem State.stored_doReferenceReturn (s : State) : (doReferenceReturn s).stored = s.stored := by
  simp [doReferenceReturn]
@[simp] theorem State.stored_doHoldoverExpiry (s : State) : (doHoldoverExpiry s).stored = s.stored := by simp [doHoldoverExpiry]

/-! #### Machine/Planner -/

@[simp] theorem State.stored_bookMirror (s : State) (j : Job) (at' : Nat) : (s.bookMirror j at').stored = s.stored := by
  unfold State.bookMirror
  (repeat' split) <;> simp

@[simp] theorem State.stored_clockOf (s : State) (i : Nat) : (s.clockOf i).stored = s.stored := by simp [State.clockOf]
@[simp] theorem State.stored_breach (s : State) (j : Job) (cause : Nat) : (s.breach j cause).stored = s.stored := by
  simp [State.breach]

@[simp] theorem State.stored_resolveFrom (s : State) (old : List Job) (cause : Nat) (touched : Job → Bool) :
    (s.resolveFrom old cause touched).stored = s.stored := by
  unfold State.resolveFrom
  dsimp only
  refine (State.stored_foldl (fun s k => ?_) _ _).trans (State.stored_mk ..)
  (repeat' split) <;> simp

@[simp] theorem State.stored_resolve (s : State) (cause : Nat) (touched : Job → Bool) :
    (s.resolve cause touched).stored = s.stored := by simp [State.resolve]
@[simp] theorem State.stored_doResolve (cause : Nat) (regions : List Nat) (s : State) :
    (doResolve cause regions s).stored = s.stored := by simp [doResolve]
@[simp] theorem State.stored_doFieldRateReport (r rate mv temp : Nat) (s : State) :
    (doFieldRateReport r rate mv temp s).stored = s.stored := by simp [doFieldRateReport]
@[simp] theorem State.stored_doRecalForce (v : BitVec 32) (s : State) : (doRecalForce v s).stored = s.stored := by
  simp [doRecalForce]

@[simp] theorem State.stored_doOverrun (i q : Nat) (s : State) : (doOverrun i q s).stored = s.stored := by
  unfold doOverrun
  split <;> simp

@[simp] theorem State.stored_doQuantumExpiry (i q : Nat) (s : State) : (doQuantumExpiry i q s).stored = s.stored := by
  unfold doQuantumExpiry
  split <;> simp

/-! #### Machine/Admission -/

@[simp] theorem State.stored_writeRecord (s : State) (j : Job) (use : SlotUse) (head : List Byte) :
    (s.writeRecord j use head).stored = s.stored := by simp [State.writeRecord]

@[simp] theorem State.stored_pageWrite (s : State) (port i : Nat) (ide : Bool) {body : State → State}
    (hb : ∀ s, (body s).stored = s.stored) : (s.pageWrite port i ide body).stored = s.stored := by
  simp [State.pageWrite, hb]

@[simp] theorem State.stored_badIntake (s : State) (port i : Nat) : (s.badIntake port i).stored = s.stored := by
  simp [State.badIntake]
@[simp] theorem State.stored_doIntakeChunkWrite (port i : Nat) (ide : Bool) (off : Nat) (data : List Byte) (s : State) :
    (doIntakeChunkWrite port i ide off data s).stored = s.stored := by simp [doIntakeChunkWrite]
@[simp] theorem State.stored_refuseIntake (s : State) (i q status : Nat) : (s.refuseIntake i q status).stored = s.stored := by
  simp [State.refuseIntake]
@[simp] theorem State.stored_doCommit (port i : Nat) (ide : Bool) (data : List Byte) (s : State) :
    (doCommit port i ide data s).stored = s.stored := by simp [doCommit]
@[simp] theorem State.stored_doRelease (port i : Nat) (ide : Bool) (off : Nat) (data : List Byte) (s : State) :
    (doRelease port i ide off data s).stored = s.stored := by simp [doRelease]

theorem State.stored_askAll {s t : State} {named xs : List Nat} (h : s.askAll named xs = some t) : t.stored = s.stored := by
  induction xs generalizing s with
  | nil => cases h; rfl
  | cons x xs ih =>
    unfold State.askAll at h
    split at h
    · obtain ⟨u, hu, h⟩ := Option.bind_eq_some_iff.1 h
      rw [ih h, State.stored_askPageIn hu]
    · exact ih h

@[simp] theorem State.stored_countDecision (s : State) (i : Nat) (ok : Bool) : (s.countDecision i ok).stored = s.stored := by
  simp [State.countDecision]
@[simp] theorem State.stored_postDecision (s : State) (j : Job) (status planned : Nat) :
    (s.postDecision j status planned).stored = s.stored := by simp [State.postDecision]
@[simp] theorem State.stored_refuseJob (s : State) (j : Job) (status planned : Nat) :
    (s.refuseJob j status planned).stored = s.stored := by simp [State.refuseJob]

theorem State.stored_of_decideJob {s t : State} {j : Job} {slot : Nat} {rows : List (Nat × Nat × Option Nat)}
    {p : Placing} {led : List Promised}    (h : s.decideJob j = .accept t slot rows p led) : t.stored = s.stored := by
  unfold State.decideJob at h
  dsimp only at h
  split at h
  · cases h
  · split at h
    · cases h
    · split at h
      · injection h with h1
        rw [← h1]
        exact State.stored_askAll ‹_›
      · cases h

@[simp] theorem State.stored_acceptJob (s : State) (j : Job) (slot : Nat) (rows : List (Nat × Nat × Option Nat)) (p : Placing) :
    (s.acceptJob j slot rows p).stored = s.stored := by simp [State.acceptJob]

@[simp] theorem State.stored_doAdmissionDecision (s : State) : (doAdmissionDecision s).stored = s.stored := by
  unfold doAdmissionDecision
  split
  · rfl
  · split
    · rfl
    · dsimp only
      split
      · simp
      · next h => simpa using State.stored_of_decideJob h

/-! #### Machine/Jobs -/

@[simp] theorem State.stored_startTasks (s : State) (j : Job) (ts : List Task) : (s.startTasks j ts).stored = s.stored := by
  refine State.stored_foldl (fun s x => ?_) _ _
  split <;> simp

/-! #### Machine/Plan -/

@[simp] theorem State.stored_doPlanRecordWrite (p : Nat) (s : State) : (doPlanRecordWrite p s).stored = s.stored := by
  unfold doPlanRecordWrite
  dsimp only
  split
  · split_ifs
    · rfl
    · simp
    · simp
    · refine (State.stored_foldl (fun s w => ?_) _ _).trans (by simp)
      split <;> simp
  · rfl

@[simp] theorem State.stored_spanArrive (s : State) (i q : Nat) : (s.spanArrive i q).stored = s.stored := by
  unfold State.spanArrive
  split <;> simp

@[simp] theorem State.stored_queueUpdate (s : State) (j : Job) : (s.queueUpdate j).stored = s.stored := by
  unfold State.queueUpdate
  split <;> simp

@[simp] theorem State.stored_afterArrival (s : State) (i q : Nat) : (s.afterArrival i q).stored = s.stored := by
  unfold State.afterArrival
  split <;> simp

@[simp] theorem State.stored_doTaskEnd (p : Nat) (s : State) : (doTaskEnd p s).stored = s.stored := by simp [doTaskEnd]

@[simp] theorem State.stored_doBarrierArrival (p : Nat) (s : State) : (doBarrierArrival p s).stored = s.stored := by
  simp only [doBarrierArrival]
  (repeat' split) <;> simp

@[simp] theorem State.stored_leaveFields (s : State) (j : Job) : (s.leaveFields j).stored = s.stored := by
  simp [State.leaveFields]
@[simp] theorem State.stored_sliceJob (s : State) (j k : Job) : (s.sliceJob j k).stored = s.stored := by simp [State.sliceJob]
@[simp] theorem State.stored_continueTasks (s : State) (j : Job) (n : Nat) : (s.continueTasks j n).stored = s.stored := by
  simp [State.continueTasks]

@[simp] theorem State.stored_nextStep (s : State) (i q : Nat) : (s.nextStep i q).stored = s.stored := by
  unfold State.nextStep
  split <;> simp

@[simp] theorem State.stored_restartTask (s : State) (j : Job) (k : Nat) (t : Task) :
    (s.restartTask j k t).stored = s.stored := by
  unfold State.restartTask
  split <;> simp

/-! #### Machine/Links -/

@[simp] theorem State.stored_flitGap (s : State) (n : Nat) : (s.flitGap n).stored = s.stored := by simp [State.flitGap]

@[simp] theorem State.stored_flitArrives (s : State) (n kind fec : Nat) (f : List Byte) {body : State → State}
    (hb : ∀ s, (body s).stored = s.stored) : (s.flitArrives n kind fec f body).stored = s.stored := by
  simp [State.flitArrives, hb]

@[simp] theorem State.stored_doDataFlit (n fec : Nat) (f : List Byte) (s : State) : (doDataFlit n fec f s).stored = s.stored := by
  simp [doDataFlit]
@[simp] theorem State.stored_doIdleFlit (n fec : Nat) (f : List Byte) (s : State) : (doIdleFlit n fec f s).stored = s.stored := by
  simp [doIdleFlit]
@[simp] theorem State.stored_doReplayFlit (n fec : Nat) (f : List Byte) (s : State) :
    (doReplayFlit n fec f s).stored = s.stored := by simp [doReplayFlit]

@[simp] theorem State.stored_linkAccess (s : State) (n i k : Nat) (kind : TokKind) (u : Use) (m : List Byte) (len : Nat) :
    (s.linkAccess n i k kind u m len).stored = s.stored := by
  unfold State.linkAccess
  (repeat' split) <;> simp

@[simp] theorem State.stored_doWrite (n key : Nat) (plain : List Byte) (s : State) :
    (doWrite n key plain s).stored = s.stored := State.stored_receive s n 0 _ key plain (by simp) (by simp)

@[simp] theorem State.stored_linkScratchRead (s : State) (n i q off : Nat) (m : List Byte) :
    (s.linkScratchRead n i q off m).stored = s.stored := by
  simp only [State.linkScratchRead]
  (repeat' split) <;> simp

theorem State.stored_scratchReadWaits {s t : State} {n i : Nat} {m : List Byte} (h : s.scratchReadWaits n i m = some t) :
    t.stored = s.stored := by
  unfold State.scratchReadWaits at h
  repeat' split at h
  all_goals cases h
  all_goals simp

@[simp] theorem State.stored_doRead (n key : Nat) (plain : List Byte) (s : State) : (doRead n key plain s).stored = s.stored := by
  refine State.stored_receive s n 0 _ key plain (fun i t h => State.stored_scratchReadWaits h) fun s i => ?_
  split <;> simp

@[simp] theorem State.stored_doAccumulate (n key : Nat) (plain : List Byte) (s : State) :
    (doAccumulate n key plain s).stored = s.stored := State.stored_receive s n 0 _ key plain (by simp) (by simp)

@[simp] theorem State.stored_doSemaphore (n key : Nat) (plain : List Byte) (s : State) :
    (doSemaphore n key plain s).stored = s.stored := by
  refine State.stored_receive s n 0 _ key plain (by simp) fun s i => ?_
  (repeat' split) <;> simp

@[simp] theorem State.stored_answer (s : State) (n : Nat) (r : LinkReq) (status : Nat) (data : List Byte) :
    (s.answer n r status data).stored = s.stored := by
  unfold State.answer
  split <;> simp

@[simp] theorem State.stored_doResponse (n key : Nat) (plain : List Byte) (s : State) :
    (doResponse n key plain s).stored = s.stored := by
  refine State.stored_receive s n 1 _ key plain (by simp) fun s i => ?_
  split <;> simp

@[simp] theorem State.stored_doRequestTimeout (n tag : Nat) (s : State) : (doRequestTimeout n tag s).stored = s.stored := by
  unfold doRequestTimeout
  split <;> simp

@[simp] theorem State.stored_doLinkTrainingComplete (n lengthCm delayNs : Nat) (s : State) :
    (doLinkTrainingComplete n lengthCm delayNs s).stored = s.stored := by simp [doLinkTrainingComplete]

@[simp] theorem State.stored_receiveClear (s : State) (n sub : Nat) {body : State → List Byte → State}
    (hb : ∀ s m, (body s m).stored = s.stored) : (s.receiveClear n sub body).stored = s.stored := by
  unfold State.receiveClear
  split
  · rfl
  · simp [hb]

@[simp] theorem State.stored_doCapability (n : Nat) (s : State) : (doCapability n s).stored = s.stored := by simp [doCapability]

@[simp] theorem State.stored_renewArrived (s : State) (n i : Nat) (peer : List Byte) :
    (s.renewArrived n i peer).stored = s.stored := by
  simp only [State.renewArrived]
  (repeat' split) <;> simp

@[simp] theorem State.stored_doSession (n : Nat) (s : State) : (doSession n s).stored = s.stored := by
  refine State.stored_receiveClear s n 2 fun s m => ?_
  dsimp only
  (repeat' split) <;> simp

@[simp] theorem State.stored_doSessionRenew (n i : Nat) (s : State) : (doSessionRenew n i s).stored = s.stored := by
  simp [doSessionRenew]
@[simp] theorem State.stored_doLossOfSignal (n : Nat) (fecLost : Bool) (s : State) :
    (doLossOfSignal n fecLost s).stored = s.stored := by simp [doLossOfSignal]
@[simp] theorem State.stored_doLinkRetry (n : Nat) (s : State) : (doLinkRetry n s).stored = s.stored := by simp [doLinkRetry]
@[simp] theorem State.stored_setDisable (s : State) (n : Nat) (v : Bool) : (s.setDisable n v).stored = s.stored := by
  simp [State.setDisable]
@[simp] theorem State.stored_doRetrain (n : Nat) (v : BitVec 32) (s : State) : (doRetrain n v s).stored = s.stored := by
  simp [doRetrain]
@[simp] theorem State.stored_doDisable (n : Nat) (v : BitVec 32) (s : State) : (doDisable n v s).stored = s.stored := by
  simp [doDisable]

@[simp] theorem State.stored_doPartnerLost (n : Nat) (s : State) : (doPartnerLost n s).stored = s.stored := by
  simp only [doPartnerLost]
  (repeat' split) <;> simp

@[simp] theorem State.stored_doArrive (n key : Nat) (plain : List Byte) (s : State) :
    (doArrive n key plain s).stored = s.stored := by
  refine State.stored_receive s n 0 _ key plain (by simp) fun s i => ?_
  split <;> simp

@[simp] theorem State.stored_doComplete (n key : Nat) (plain : List Byte) (s : State) :
    (doComplete n key plain s).stored = s.stored := by
  refine State.stored_receive s n 0 _ key plain (by simp) fun s i => ?_
  split <;> simp

/-! #### Machine/Attest -/

@[simp] theorem State.stored_secEnd (s : State) (r : Nat) : (s.secEnd r).stored = s.stored := by simp [State.secEnd]

@[simp] theorem State.stored_secCmd (s : State) (op : Nat) (v : BitVec 32) {body : State → State}
    (hb : ∀ s, (body s).stored = s.stored) : (s.secCmd op v body).stored = s.stored := by
  simp [State.secCmd, hb]

@[simp] theorem State.stored_secRead (s : State) (port op n : Nat) (v : BitVec 32) :
    (s.secRead port op n v).stored = s.stored := by simp [State.secRead]
@[simp] theorem State.stored_doAttest (port : Nat) (v : BitVec 32) (s : State) : (doAttest port v s).stored = s.stored := by
  simp [doAttest]
@[simp] theorem State.stored_attestArrived (s : State) (port : Nat) (nonce : List Byte) :
    (s.attestArrived port nonce).stored = s.stored := by simp [State.attestArrived]
@[simp] theorem State.stored_attestFlushed (s : State) (ok : Bool) (len : Nat) : (s.attestFlushed ok len).stored = s.stored := by
  simp [State.attestFlushed]
@[simp] theorem State.stored_doGetMeasurements (endpoint : Nat) (nonce : List Byte) (s : State) :
    (doGetMeasurements endpoint nonce s).stored = s.stored := by simp [doGetMeasurements]
@[simp] theorem State.stored_doMailboxAttest (port i : Nat) (ide : Bool) (msg : List Byte) (s : State) :
    (doMailboxAttest port i ide msg s).stored = s.stored := by simp [doMailboxAttest]

/-! #### Machine/Mailbox -/

@[simp] theorem State.stored_doStageIn (port i : Nat) (ide : Bool) (msg : List Byte) (s : State) :
    (doStageIn port i ide msg s).stored = s.stored := by simp [doStageIn]

@[simp] theorem State.stored_doMirrorSet (port i : Nat) (ide : Bool) (msg : List Byte) (s : State) :
    (doMirrorSet port i ide msg s).stored = s.stored := by
  refine State.stored_message s port i ide _ msg fun s => ?_
  dsimp only
  split <;> simp

@[simp] theorem State.stored_mirrorSend (s : State) (n i off : Nat) (bs : List Byte) :
    (s.mirrorSend n i off bs).1.stored = s.stored := by
  unfold State.mirrorSend
  dsimp only
  generalize cutWrites 4096 false _ _ bs = ws
  suffices h : ∀ r : State × List Nat, (ws.foldl _ r).1.stored = r.1.stored from h (s, [])
  induction ws with
  | nil => exact fun _ => rfl
  | cons w ws ih =>
    intro r
    rw [List.foldl_cons, ih]
    simp

@[simp] theorem State.stored_doMirrorTake (x : Nat) (s : State) : (doMirrorTake x s).stored = s.stored := by
  simp only [doMirrorTake]
  (repeat' split) <;> simp

@[simp] theorem State.stored_doMirrorHeaderWrite (x : Nat) (s : State) : (doMirrorHeaderWrite x s).stored = s.stored := by
  simp only [doMirrorHeaderWrite]
  (repeat' split) <;> simp

@[simp] theorem State.stored_doUnknownOperation (port i : Nat) (ide : Bool) (msg : List Byte) (s : State) :
    (doUnknownOperation port i ide msg s).stored = s.stored := by simp [doUnknownOperation]

@[simp] theorem State.stored_drainMail (s : State) (i fuel : Nat) : (s.drainMail i fuel).stored = s.stored := by
  induction fuel generalizing s with
  | zero => rfl
  | succ fuel ih =>
    unfold State.drainMail
    dsimp only
    split
    · rfl
    · simp [ih]

@[simp] theorem State.stored_doConsumedWrite (port i : Nat) (ide : Bool) (v : BitVec 32) (s : State) :
    (doConsumedWrite port i ide v s).stored = s.stored := by
  refine State.stored_pageWrite s port i ide fun s => ?_
  split <;> simp

/-! #### Machine/Reset -/

@[simp] theorem State.stored_squashJobs (s : State) (i : Nat) : (s.squashJobs i).stored = s.stored := by simp [State.squashJobs]
@[simp] theorem State.stored_squashInst (s : State) (i : Nat) : (s.squashInst i).stored = s.stored := by simp [State.squashInst]

@[simp] theorem State.stored_instReset (s : State) (port mode : Nat) (v : BitVec 32) (ok : InstState → Bool)
    {body : State → Nat → State} (hb : ∀ s i, (body s i).stored = s.stored) :
    (s.instReset port mode v ok body).stored = s.stored := by simp [State.instReset, hb]

@[simp] theorem State.stored_doDrain (port : Nat) (v : BitVec 32) (s : State) : (doDrain port v s).stored = s.stored := by
  simp [doDrain]
@[simp] theorem State.stored_doSquash (port : Nat) (v : BitVec 32) (s : State) : (doSquash port v s).stored = s.stored := by
  simp [doSquash]
@[simp] theorem State.stored_doDrainLimitExpiry (i : Nat) (s : State) : (doDrainLimitExpiry i s).stored = s.stored := by
  simp [doDrainLimitExpiry]
@[simp] theorem State.stored_doInstanceRetired (i : Nat) (s : State) : (doInstanceRetired i s).stored = s.stored := by
  simp [doInstanceRetired]
@[simp] theorem State.stored_doFunctionLevelReset (port : Nat) (s : State) : (doFunctionLevelReset port s).stored = s.stored := by
  simp [doFunctionLevelReset]
@[simp] theorem State.stored_doTdispMessage (port i tdi : Nat) (s : State) : (doTdispMessage port i tdi s).stored = s.stored := by
  simp [doTdispMessage]
@[simp] theorem State.stored_doAtsInvalidation (port : Nat) (s : State) : (doAtsInvalidation port s).stored = s.stored := by
  simp [doAtsInvalidation]
@[simp] theorem State.stored_doHostLinkTrainingComplete (port speed width : Nat) (flit : Bool) (s : State) :
    (doHostLinkTrainingComplete port speed width flit s).stored = s.stored := by simp [doHostLinkTrainingComplete]
@[simp] theorem State.stored_doSpdmSecuredSession (endpoint : Nat) (established : Bool) (s : State) :
    (doSpdmSecuredSession endpoint established s).stored = s.stored := by simp [doSpdmSecuredSession]
@[simp] theorem State.stored_doKeyProg (port i : Nat) (key : List Byte) (s : State) :
    (doKeyProg port i key s).stored = s.stored := by simp [doKeyProg]
@[simp] theorem State.stored_answerRead (s : State) (bs : List Byte) : (s.answerRead bs).stored = s.stored := by
  simp [State.answerRead]
@[simp] theorem State.stored_doInstancePageRead (port i off len : Nat) (ide : Bool) (s : State) :
    (doInstancePageRead port i off len ide s).stored = s.stored := by simp [doInstancePageRead]

/-! #### Machine/Security -/

@[simp] theorem State.stored_doOperatorKey (port : Nat) (v : BitVec 32) (s : State) :
    (doOperatorKey port v s).stored = s.stored := by simp [doOperatorKey]
@[simp] theorem State.stored_keyArrived (s : State) (data : List Byte) : (s.keyArrived data).stored = s.stored := by
  simp [State.keyArrived]
@[simp] theorem State.stored_newChallenge (s : State) : (s.newChallenge).stored = s.stored := by simp [State.newChallenge]
@[simp] theorem State.stored_doUnlock (port : Nat) (v : BitVec 32) (s : State) : (doUnlock port v s).stored = s.stored := by
  simp [doUnlock]
@[simp] theorem State.stored_squashAll (s : State) : (s.squashAll).stored = s.stored := by simp [State.squashAll]
@[simp] theorem State.stored_tokenArrived (s : State) (ok : Bool) (data : List Byte) :
    (s.tokenArrived ok data).stored = s.stored := by simp [State.tokenArrived]
@[simp] theorem State.stored_secArrived (s : State) (op port : Nat) (ok : Bool) (data : List Byte) :
    (s.secArrived op port ok data).stored = s.stored := by simp [State.secArrived]
@[simp] theorem State.stored_relink (s : State) (n : Nat) : (s.relink n).stored = s.stored := by simp [State.relink]
@[simp] theorem State.stored_doRaiseFloor (_port : Nat) (v : BitVec 32) (s : State) :
    (doRaiseFloor _port v s).stored = s.stored := by simp [doRaiseFloor]
@[simp] theorem State.stored_doRngFail (s : State) : (doRngFail s).stored = s.stored := by simp [doRngFail]
@[simp] theorem State.stored_doDrbgReseed (s : State) : (doDrbgReseed s).stored = s.stored := by simp [doDrbgReseed]

/-! #### Machine/Completion -/

@[simp] theorem State.stored_copyFlushed (s : State) (p e d : Nat) (r : HostReq) (ok : Bool) :
    (s.copyFlushed p e d r ok).stored = s.stored := by
  unfold State.copyFlushed
  split <;> simp

@[simp] theorem State.stored_boxFlushed (s : State) (ok : Bool) : (s.boxFlushed ok).stored = s.stored := by
  simp [State.boxFlushed]

/-! #### Machine/Recovery -/

@[simp] theorem State.stored_failConsumers (s : State) (granary : Bool) (block : Nat) :
    (s.failConsumers granary block).stored = s.stored := by simp [State.failConsumers]
@[simp] theorem State.stored_granLost (s : State) (block : Nat) : (s.granLost block).stored = s.stored := by simp [State.granLost]
@[simp] theorem State.stored_doHang (p : Nat) (s : State) : (doHang p s).stored = s.stored := by simp [doHang]

@[simp] theorem State.stored_doHangConfirm (p : Nat) (s : State) : (doHangConfirm p s).stored = s.stored := by
  simp only [doHangConfirm]
  (repeat' split) <;> simp

@[simp] theorem State.stored_doWriteDiscardTimeout (p : Nat) (s : State) : (doWriteDiscardTimeout p s).stored = s.stored := by
  simp only [doWriteDiscardTimeout]
  (repeat' split) <;> simp

@[simp] theorem State.stored_doFence (p : Nat) (s : State) : (doFence p s).stored = s.stored := by
  unfold doFence
  split <;> simp

@[simp] theorem State.stored_swapDone (s : State) (p : Nat) : (s.swapDone p).stored = s.stored := by simp [State.swapDone]
@[simp] theorem State.stored_doRename (p : Nat) (s : State) : (doRename p s).stored = s.stored := by simp [doRename]
@[simp] theorem State.stored_recEnd (s : State) (r : Nat) : (s.recEnd r).stored = s.stored := by simp [State.recEnd]

@[simp] theorem State.stored_recCmd (s : State) (op : Nat) (v : BitVec 32) {body : State → Nat → State}
    (hb : ∀ s p, (body s p).stored = s.stored) : (s.recCmd op v body).stored = s.stored := by
  simp [State.recCmd, hb]

@[simp] theorem State.stored_recStart (s : State) (op p : Nat) : (s.recStart op p).stored = s.stored := by simp [State.recStart]
@[simp] theorem State.stored_doFenceCore (_port : Nat) (v : BitVec 32) (s : State) :
    (doFenceCore _port v s).stored = s.stored := by simp [doFenceCore]

@[simp] theorem State.stored_doRetrainColumn (_port : Nat) (v : BitVec 32) (s : State) :
    (doRetrainColumn _port v s).stored = s.stored := by
  refine State.stored_recCmd s 3 v fun s p => ?_
  dsimp only
  repeat' split
  all_goals simp

@[simp] theorem State.stored_doSwitchMgtFw (_port : Nat) (v : BitVec 32) (s : State) :
    (doSwitchMgtFw _port v s).stored = s.stored := by simp [doSwitchMgtFw]
@[simp] theorem State.stored_doReloadMicrocode (_port : Nat) (v : BitVec 32) (s : State) :
    (doReloadMicrocode _port v s).stored = s.stored := by simp [doReloadMicrocode]
@[simp] theorem State.stored_takeOver (s : State) (k : Nat) (ok : Bool) (x : FwCopy) : (s.takeOver k ok x).stored = s.stored := by
  simp [State.takeOver]
@[simp] theorem State.stored_calibrated (s : State) (kind n : Nat) : (s.calibrated kind n).stored = s.stored := by
  simp [State.calibrated]
@[simp] theorem State.stored_doGranaryInterfaceRetrain (c : Nat) (begins : Bool) (s : State) :
    (doGranaryInterfaceRetrain c begins s).stored = s.stored := by simp [doGranaryInterfaceRetrain]
@[simp] theorem State.stored_doReadBlackbox (port : Nat) (v : BitVec 32) (s : State) :
    (doReadBlackbox port v s).stored = s.stored := by simp [doReadBlackbox]
@[simp] theorem State.stored_doTrustManagementUncorrectable (s : State) :
    (doTrustManagementUncorrectable s).stored = s.stored := by simp [doTrustManagementUncorrectable]

/-! #### Machine/Observe -/

@[simp] theorem State.stored_writeHalf (s : State) (off size : Nat) (hi : Bool) (v cur : Word) :
    (s.writeHalf off size hi v cur).2.stored = s.stored := by
  unfold State.writeHalf
  split_ifs <;> rfl

@[simp] theorem State.stored_obsRefuse (s : State) : (s.obsRefuse).stored = s.stored := by simp [State.obsRefuse]

@[simp] theorem State.stored_doFreezeArm (size : Nat) (hi : Bool) (v : Word) (s : State) :
    (doFreezeArm size hi v s).stored = s.stored := by
  unfold doFreezeArm
  dsimp only
  repeat' split
  all_goals simp

@[simp] theorem State.stored_doFreeze (s : State) : (doFreeze s).stored = s.stored := by simp [doFreeze]

@[simp] theorem State.stored_doFrozenValid (s : State) : (doFrozenValid s).stored = s.stored := by
  unfold doFrozenValid
  split <;> simp

@[simp] theorem State.stored_stopCtrl (s : State) (v : BitVec 32) : (s.stopCtrl v).stored = s.stored := by simp [State.stopCtrl]
@[simp] theorem State.stored_release (s : State) : (s.release).stored = s.stored := by simp [State.release]
@[simp] theorem State.stored_doArm (v : BitVec 32) (s : State) : (doArm v s).stored = s.stored := by simp [doArm]
@[simp] theorem State.stored_doDebugStopHold (s : State) : (doDebugStopHold s).stored = s.stored := by simp [doDebugStopHold]
@[simp] theorem State.stored_settle (s : State) : (s.settle).stored = s.stored := by simp [State.settle]
@[simp] theorem State.stored_doDebugStop (s : State) : (doDebugStop s).stored = s.stored := by simp [doDebugStop]
@[simp] theorem State.stored_doResume (v : BitVec 32) (s : State) : (doResume v s).stored = s.stored := by simp [doResume]
@[simp] theorem State.stored_doObsRingLoRead (s : State) : (doObsRingLoRead s).stored = s.stored := by simp [doObsRingLoRead]
@[simp] theorem State.stored_doObsResidueLoRead (s : State) : (doObsResidueLoRead s).stored = s.stored := by
  simp [doObsResidueLoRead]
@[simp] theorem State.stored_setWatts (s : State) (w : Nat) : (s.setWatts w).stored = s.stored := by simp [State.setWatts]

@[simp] theorem State.stored_doCoarsenedWindowEnd (oneSecond : Bool) (watts inlet outlet : Nat) (s : State) :
    (doCoarsenedWindowEnd oneSecond watts inlet outlet s).stored = s.stored := by
  unfold doCoarsenedWindowEnd
  rw [State.stored_ite, State.stored_ite]
  refine (congrArg (ite _ _) ?_).trans (ite_self _)
  split
  · exact (State.stored_mk ..).trans (State.stored_foldl (fun s r => State.stored_updRegion ..) _ _)
  · exact State.stored_foldl (fun s f => State.stored_updRegion ..) _ _

/-! #### Machine/Module -/

@[simp] theorem State.stored_doInputLow (mv : Nat) (s : State) : (doInputLow mv s).stored = s.stored := by simp [doInputLow]
@[simp] theorem State.stored_doInputHigh (mv : Nat) (s : State) : (doInputHigh mv s).stored = s.stored := by simp [doInputHigh]
@[simp] theorem State.stored_doInputInOperatingRange (mv : Nat) (s : State) :
    (doInputInOperatingRange mv s).stored = s.stored := by simp [doInputInOperatingRange]
@[simp] theorem State.stored_doOverVoltageDisconnect (mv : Nat) (s : State) :
    (doOverVoltageDisconnect mv s).stored = s.stored := by simp [doOverVoltageDisconnect]
@[simp] theorem State.stored_doMateLoopBreak (s : State) : (doMateLoopBreak s).stored = s.stored := by simp [doMateLoopBreak]
@[simp] theorem State.stored_doMateLoopContinuous (s : State) : (doMateLoopContinuous s).stored = s.stored := by
  simp [doMateLoopContinuous]

@[simp] theorem State.stored_doRailLimit (rail mv : Nat) (s : State) : (doRailLimit rail mv s).stored = s.stored := by
  unfold doRailLimit
  split <;> simp

@[simp] theorem State.stored_capReport (s : State) (fields : List Nat) : (s.capReport fields).stored = s.stored := by
  simp [State.capReport]
@[simp] theorem State.stored_updCaps (s : State) (f : Nat) (g : Caps → Caps) : (s.updCaps f g).stored = s.stored := by
  simp [State.updCaps]
@[simp] theorem State.stored_doThrottleAssert (s : State) : (doThrottleAssert s).stored = s.stored := by simp [doThrottleAssert]
@[simp] theorem State.stored_doThrottleDeassert (s : State) : (doThrottleDeassert s).stored = s.stored := by
  simp [doThrottleDeassert]
@[simp] theorem State.stored_sensePan (s : State) (p t0 t7 : Nat) : (s.sensePan p t0 t7).stored = s.stored := by
  simp [State.sensePan]
@[simp] theorem State.stored_doColumnHot (p t0 t7 : Nat) (s : State) : (doColumnHot p t0 t7 s).stored = s.stored := by
  simp [doColumnHot]
@[simp] theorem State.stored_doFieldHot (f : Nat) (column : Bool) (temp : Nat) (s : State) :
    (doFieldHot f column temp s).stored = s.stored := by simp [doFieldHot]
@[simp] theorem State.stored_doPowerOverLimit (watts : Nat) (s : State) : (doPowerOverLimit watts s).stored = s.stored := by
  simp [doPowerOverLimit]
@[simp] theorem State.stored_doThermalRelease (kind unit reading other : Nat) (s : State) :
    (doThermalRelease kind unit reading other s).stored = s.stored := by simp [doThermalRelease]
@[simp] theorem State.stored_doCapStep (s : State) : (doCapStep s).stored = s.stored := by simp [doCapStep]
@[simp] theorem State.stored_doThermalTrip (kind unit reading other : Nat) (s : State) :
    (doThermalTrip kind unit reading other s).stored = s.stored := by simp [doThermalTrip]
@[simp] theorem State.stored_cmis (s : State) (n media len : Nat) : (s.cmis n media len).stored = s.stored := by simp [State.cmis]
@[simp] theorem State.stored_doCageInsertion (n media len : Nat) (s : State) :
    (doCageInsertion n media len s).stored = s.stored := by simp [doCageInsertion]
@[simp] theorem State.stored_doCageRemoval (n : Nat) (s : State) : (doCageRemoval n s).stored = s.stored := by
  simp [doCageRemoval]
@[simp] theorem State.stored_doCmisPoll (n media len : Nat) (s : State) : (doCmisPoll n media len s).stored = s.stored := by
  simp [doCmisPoll]

/-! #### Machine/Registers -/

@[simp] theorem State.stored_clearRc (s : State) (off : Nat) : (s.clearRc off).stored = s.stored := by simp [State.clearRc]
@[simp] theorem State.stored_readRc (s : State) (off : Nat) : (s.readRc off).stored = s.stored := by simp [State.readRc]
@[simp] theorem State.stored_clearRcHi (s : State) (off : Nat) : (s.clearRcHi off).stored = s.stored := by simp [State.clearRcHi]
@[simp] theorem State.stored_halfTaken (s : State) (off : Nat) (hi : Bool) : (s.halfTaken off hi).stored = s.stored := by
  simp [State.halfTaken]
@[simp] theorem State.stored_readLower (s : State) (off v : Nat) : (s.readLower off v).stored = s.stored := by
  simp [State.readLower]

@[simp] theorem State.stored_readUpper (s : State) (off v : Nat) : (s.readUpper off v).stored = s.stored := by
  unfold State.readUpper
  split <;> simp

@[simp] theorem State.stored_doLowerHalfRead (off : Nat) (s : State) : (doLowerHalfRead off s).stored = s.stored := by
  unfold doLowerHalfRead
  (repeat' split) <;> simp

@[simp] theorem State.stored_write32 (s : State) (off : Nat) (v : Word) : (s.write32 off v).stored = s.stored := by
  unfold State.write32
  split <;> simp

@[simp] theorem State.stored_write64 (s : State) (port off : Nat) (v : Word) : (s.write64 port off v).stored = s.stored := by
  unfold State.write64
  split <;> simp

@[simp] theorem State.stored_doRegisterWrite (port off size : Nat) (v : Word) (s : State) :
    (doRegisterWrite port off size v s).stored = s.stored := by
  unfold doRegisterWrite
  dsimp only
  repeat' split
  all_goals simp

@[simp] theorem State.stored_doCorScratchErrRead (p : Nat) (s : State) : (doCorScratchErrRead p s).stored = s.stored := by
  simp [doCorScratchErrRead]
@[simp] theorem State.stored_doTlnErrRead (n : Nat) (s : State) : (doTlnErrRead n s).stored = s.stored := by simp [doTlnErrRead]
@[simp] theorem State.stored_doFldSemStatusRead (f : Nat) (s : State) : (doFldSemStatusRead f s).stored = s.stored := by
  simp [doFldSemStatusRead]
@[simp] theorem State.stored_doFldSemEventsRead (f : Nat) (s : State) : (doFldSemEventsRead f s).stored = s.stored := by
  simp [doFldSemEventsRead]
@[simp] theorem State.stored_doHpErrRead (n : Nat) (s : State) : (doHpErrRead n s).stored = s.stored := by simp [doHpErrRead]
@[simp] theorem State.stored_doPanErrRead (p : Nat) (s : State) : (doPanErrRead p s).stored = s.stored := by simp [doPanErrRead]
@[simp] theorem State.stored_doGrnErrRead (c : Nat) (s : State) : (doGrnErrRead c s).stored = s.stored := by simp [doGrnErrRead]

/-! ### Operations that store -/

/-! #### Machine/Ops -/

/-- A write of pan DRAM, byte by byte. -/
@[simp] theorem State.kept_panWrite {cs : List Instr} {s : State} (h : s.stored.Kept cs) (p off : Nat) (bs : List Byte) :
    (s.panWrite p off bs).stored.Kept cs := by
  induction bs generalizing s off with
  | nil => exact h
  | cons b bs ih =>
    unfold State.panWrite
    dsimp only
    split
    · refine ih ?_ (off + 1)
      exact h.withPan (Memory.wf_put h.pan)
    · exact ih h (off + 1)

@[simp] theorem State.kept_panWriteG {cs : List Instr} {s : State} (h : s.stored.Kept cs) (a : Nat) (bs : List Byte) :
    (s.panWriteG a bs).stored.Kept cs := by
  unfold State.panWriteG
  split <;> simp [h]

@[simp] theorem State.kept_panZero {cs : List Instr} {s : State} (h : s.stored.Kept cs) (p off n : Nat) :
    (s.panZero p off n).stored.Kept cs := by
  rw [State.panZero, State.stored_mk]
  exact h.withPan (Tab.wf_clearIf h.pan)

theorem Memory.wf_granPut {m : List Host.Cell} {a : Nat} {bs : List Byte} (h : Memory.wf m = true) :
    Memory.wf (granPut m a bs) = true := by
  induction bs generalizing m a with
  | nil => exact h
  | cons b bs ih => exact ih (Memory.wf_put h)

@[simp] theorem State.kept_granStore {cs : List Instr} {s : State} (h : s.stored.Kept cs) (a : Nat) (bs : List Byte) :
    (s.granStore a bs).stored.Kept cs :=
  ⟨h.queue, h.pan, Memory.wf_granPut h.gran, h.nvs⟩

@[simp] theorem State.kept_granWrite {cs : List Instr} {s : State} (h : s.stored.Kept cs) (i off : Nat) (bs : List Byte) :
    (s.granWrite i off bs).stored.Kept cs := by simp [State.granWrite, h]

@[simp] theorem State.kept_granZeroAbs {cs : List Instr} {s : State} (h : s.stored.Kept cs) (a n : Nat) :
    (s.granZeroAbs a n).stored.Kept cs := by
  rw [State.granZeroAbs, State.stored_mk]
  exact h.withGran (Tab.wf_clearIf h.gran)

/-! #### Machine/Semaphore -/

@[simp] theorem State.kept_fePerform {cs : List Instr} {s : State} (h : s.stored.Kept cs) (q off : Nat) (w : FeWaiter) :
    (s.fePerform q off w).stored.Kept cs := by
  unfold State.fePerform
  dsimp only
  rw [State.stored_wakeCore]
  split_ifs <;> simp [h]

@[simp] theorem State.kept_feExamine {cs : List Instr} {s : State} (h : s.stored.Kept cs) (p off fuel : Nat) :
    (State.feExamine p off fuel s).stored.Kept cs := by
  induction fuel generalizing s with
  | zero => exact h
  | succ fuel ih =>
    unfold State.feExamine
    dsimp only
    split
    · exact h
    · refine ih (State.kept_fePerform ?_ ..)
      exact h

@[simp] theorem State.kept_doFeArrival {cs : List Instr} {s : State} (h : s.stored.Kept cs) (tok : Nat) :
    (doFeArrival tok s).stored.Kept cs := by
  unfold doFeArrival
  split
  · simpa using h
  · next t _ =>
    refine State.kept_ite h ?_
    have ht : (s.take t).stored.Kept cs := (State.stored_take ..).symm ▸ h
    dsimp only
    split
    · refine State.kept_ite ((State.stored_discard ..).symm ▸ ht) (State.kept_ite ht ?_)
      refine State.kept_ite ((State.stored_coreFault ..).symm ▸ ht) (State.kept_ite ?_ (State.kept_ite ht ?_))
      · exact State.kept_feExamine (State.kept_fePerform ht ..) ..
      · exact (State.stored_updCore ..).symm ▸ ht
    · exact ht

/-! #### Machine/Memory -/

@[simp] theorem State.kept_panDecode {cs : List Instr} {s : State} (h : s.stored.Kept cs) (p off : Nat) (err : List Byte) :
    (s.panDecode p off err).stored.Kept cs := by
  have hw {a : Nat} {d : List Byte} : Stored.Kept cs ⟨s.pending, Memory.write s.pan a d, s.gran, s.nvs.mem⟩ :=
    h.withPan (Memory.wf_write (m := s.pan) h.pan)
  unfold State.panDecode
  split
  · exact h
  · split
    · exact h
    · split <;> simp [h, hw]

@[simp] theorem State.kept_panDecodes {cs : List Instr} {s : State} (h : s.stored.Kept cs) (p off n : Nat) (reads : Nat → Bool)
    (err : List Byte) :
    (s.panDecodes p off n reads err).stored.Kept cs := by
  refine State.kept_foldl (fun s j hs => ?_) h _
  split
  · exact State.kept_panDecode hs ..
  · exact hs

@[simp] theorem State.kept_doPanRead {cs : List Instr} {s : State} (h : s.stored.Kept cs) (tok : Nat) (err : List Byte) :
    (doPanRead tok err s).stored.Kept cs := by
  unfold doPanRead
  (repeat' split) <;> simp [h]

@[simp] theorem State.kept_doPanStore {cs : List Instr} {s : State} (h : s.stored.Kept cs) (whole : Bool) (tok : Nat)
    (err : List Byte) :
    (doPanStore whole tok err s).stored.Kept cs := by
  unfold doPanStore
  (repeat' split) <;> simp [h]

@[simp] theorem State.kept_doSumpAccumulate {cs : List Instr} {s : State} (h : s.stored.Kept cs) (tok : Nat) (err : List Byte) :
    (doSumpAccumulate tok err s).stored.Kept cs := by
  unfold doSumpAccumulate
  (repeat' split) <;> simp [h]

@[simp] theorem State.kept_granDecode {cs : List Instr} {s : State} (h : s.stored.Kept cs) (a : Nat) (err : List Byte) :
    (s.granDecode a err).stored.Kept cs := by
  simp only [State.granDecode]
  (repeat' split) <;> simp [h]

@[simp] theorem State.kept_granDecodes {cs : List Instr} {s : State} (h : s.stored.Kept cs) (a n : Nat) (reads : Nat → Bool)
    (err : List Byte) :
    (s.granDecodes a n reads err).stored.Kept cs := by
  refine State.kept_foldl (fun s j hs => ?_) h _
  split
  · exact State.kept_granDecode hs ..
  · exact hs

@[simp] theorem State.kept_doGranaryRead {cs : List Instr} {s : State} (h : s.stored.Kept cs) (tok : Nat) (err : List Byte) :
    (doGranaryRead tok err s).stored.Kept cs := by
  unfold doGranaryRead
  split <;> simp [h]

@[simp] theorem State.kept_doGranaryWrite {cs : List Instr} {s : State} (h : s.stored.Kept cs) (tok : Nat) (err : List Byte) :
    (doGranaryWrite tok err s).stored.Kept cs := by
  unfold doGranaryWrite
  split <;> simp [h]

@[simp] theorem State.kept_doGranaryAccumulate {cs : List Instr} {s : State} (h : s.stored.Kept cs) (tok : Nat)
    (err : List Byte) :
    (doGranaryAccumulate tok err s).stored.Kept cs := by
  unfold doGranaryAccumulate
  split <;> simp [h]

@[simp] theorem State.kept_doScrubRead {cs : List Instr} {s : State} (h : s.stored.Kept cs) (granary : Bool) (block : Nat)
    (err : List Byte) (lastOfPass : Bool) :
    (doScrubRead granary block err lastOfPass s).stored.Kept cs := by simp [doScrubRead, h]

/-! #### Machine/Fence -/

@[simp] theorem State.kept_retireColumn {cs : List Instr} {s : State} (h : s.stored.Kept cs) (p : Nat) :
    (s.retireColumn p).stored.Kept cs := by
  unfold State.retireColumn
  split
  · exact h
  · dsimp only
    rw [State.stored_foldl fun s x => State.stored_remapGranule s p x, State.stored_mk]
    exact h.withPan (Tab.wf_clearIf h.pan)

/-! #### Machine/Nvs -/

@[simp] theorem State.kept_zeroCarves {cs : List Instr} {s : State} (h : s.stored.Kept cs) (own : CarveRec → Bool) :
    (s.zeroCarves own).stored.Kept cs :=
  State.kept_foldl (fun _ _ hs => State.kept_foldl (fun _ _ hs => State.kept_panZero hs ..) hs _) h _

@[simp] theorem State.kept_zeroAll {cs : List Instr} {s : State} (h : s.stored.Kept cs) : (s.zeroAll).stored.Kept cs :=
  ⟨h.queue, Memory.wf_nil, Memory.wf_nil, h.nvs⟩

@[simp] theorem State.kept_doStore {cs : List Instr} {s : State} (h : s.stored.Kept cs) (op port : Nat) (v : BitVec 32) :
    (doStore op port v s).stored.Kept cs := by
  have h1 (o : NvsOp) : (s.nvsStart o).stored.Kept cs := by simpa using h
  unfold doStore
  refine State.kept_ite h (State.kept_ite (h1 _) (State.kept_ite ?_ (State.kept_ite ?_
    (State.kept_ite ?_ (State.kept_ite (h1 _) ?_)))))
  · simpa using h
  · simpa using h
  · simpa using h
  · exact (h1 _).withNvs (Memory.wf_zero (h1 _).nvs)

/-- The store of a choice. -/
theorem Nvs.wf_ite {c : Prop} [Decidable c] {x y : Nvs} (hx : Memory.wf x.mem = true) (hy : Memory.wf y.mem = true) :
    Memory.wf (if c then x else y).mem = true := by
  split <;> assumption

theorem Nvs.wf_write {x : Nvs} (h : Memory.wf x.mem = true) (a : Nat) (bs : List Byte) : Memory.wf (x.write a bs).mem = true :=
  Memory.wf_write h

@[simp] theorem State.kept_doNvsWriteComplete {cs : List Instr} {s : State} (h : s.stored.Kept cs) :
    (doNvsWriteComplete s).stored.Kept cs := by
  unfold doNvsWriteComplete
  split
  · exact h
  · refine State.kept_ite h ?_
    extract_lets areas imgs base x x1 q cal body cal' x2 q' fence' x3 x4 sec s1
    have h1 : Memory.wf x1.mem = true := by
      refine Nvs.wf_ite h.nvs (Nvs.wf_write ?_ ..)
      exact Memory.wf_zero h.nvs
    have hcal : Memory.wf cal'.mem = true := Nvs.wf_write h1 ..
    have h2 : Memory.wf x2.mem = true := by
      clear_value cal'
      exact Nvs.wf_ite hcal h1
    have hfence : Memory.wf fence'.mem = true := Nvs.wf_write h2 ..
    have h3 : Memory.wf x3.mem = true := by
      clear_value fence'
      exact Nvs.wf_ite hfence h2
    have h4 : Memory.wf x4.mem = true := by
      unfold x4
      split
      · exact Nvs.wf_ite h3 (Nvs.wf_write h3 ..)
      · exact h3
    have hs : s1.stored.Kept cs := h.withNvs h4
    simpa using hs

@[simp] theorem State.kept_applyFull {cs : List Instr} {s : State} (h : s.stored.Kept cs) (b : List Byte) (z : Zcfg) :
    (s.applyFull b z).stored.Kept cs := State.kept_zeroAll (s := s) h

@[simp] theorem State.kept_doImageReadComplete {cs : List Instr} {s : State} (h : s.stored.Kept cs) :
    (doImageReadComplete s).stored.Kept cs := by
  unfold doImageReadComplete
  split <;> simp [h]

@[simp] theorem State.kept_zeroChanged {cs : List Instr} {s : State} (h : s.stored.Kept cs) (z : Zcfg) (scope : List Nat) :
    (s.zeroChanged z scope).stored.Kept cs := by
  unfold State.zeroChanged
  dsimp only
  rw [State.stored_semClear]
  refine State.kept_foldl (fun _ _ hs => State.kept_granZeroAbs hs ..) ?_ _
  exact State.kept_foldl (fun _ _ hs => State.kept_foldl (fun _ _ hs => State.kept_panZero hs ..) hs _) h _

@[simp] theorem State.kept_doRelayout {cs : List Instr} {s : State} (h : s.stored.Kept cs) : (doRelayout s).stored.Kept cs := by
  unfold doRelayout
  split <;> simp [h]

/-! #### Machine/Startup -/

@[simp] theorem State.kept_doStartupStageComplete {cs : List Instr} {s : State} (h : s.stored.Kept cs) (ok : Bool)
    (bad values : List Nat) :
    (doStartupStageComplete ok bad values s).stored.Kept cs := by
  unfold doStartupStageComplete
  extract_lets st go mgt tb marched linked
  have hgo (s : State) (n : Nat) : (go s n).stored = s.stored := rfl
  refine State.kept_ite h (State.kept_ite (by simpa using h) ?_)
  refine State.kept_ite (by simpa [hgo] using h) (State.kept_ite ?firmware ?_)
  case firmware =>
    split
    · simpa using h
    · next hacc => simpa [hgo, State.stored_acceptFirmware hacc] using h
  refine State.kept_ite (by simpa [hgo] using h) (State.kept_ite (by simpa [hgo, marched] using h) (State.kept_ite ?_ ?_))
  · rw [hgo]
    exact State.kept_zeroAll (State.kept_foldl (fun _ p hs => State.kept_retireColumn hs p) h _)
  · simp [hgo, linked, h]

@[simp] theorem State.kept_cold {cs : List Instr} {s : State} (h : s.stored.Kept cs) : (s.cold).stored.Kept cs :=
  ⟨h.queue, Memory.wf_nil, Memory.wf_nil, h.nvs⟩
@[simp] theorem State.kept_begin {cs : List Instr} {s : State} (h : s.stored.Kept cs) : (s.begin).stored.Kept cs := by
  simp [State.begin, h]
@[simp] theorem State.kept_doStartThreshold {cs : List Instr} {s : State} (h : s.stored.Kept cs) (mv : Nat) :
    (doStartThreshold mv s).stored.Kept cs := by simp [doStartThreshold, h]
@[simp] theorem State.kept_doReset {cs : List Instr} {s : State} (h : s.stored.Kept cs) (lowNs : Nat) :
    (doReset lowNs s).stored.Kept cs := by simp [doReset, h]

/-! #### Machine/Catalogue -/

@[simp] theorem State.kept_writeFrames {cs : List Instr} {s : State} (h : s.stored.Kept cs) (frames : List Nat)
    (img : List Byte) :
    (s.writeFrames frames img).stored.Kept cs := by
  refine State.kept_foldl (fun s x hs => ?_) h _
  rw [State.stored_panHeal]
  exact State.kept_panWrite hs ..

/-! #### Machine/Slots -/

@[simp] theorem State.kept_zeroSlot {cs : List Instr} {s : State} (h : s.stored.Kept cs) (k : Nat) :
    (s.zeroSlot k).stored.Kept cs := State.kept_foldl (fun _ _ hs => State.kept_panZero hs ..) h _

@[simp] theorem State.kept_copySlot {cs : List Instr} {s : State} (h : s.stored.Kept cs) (src dst : Nat) :
    (s.copySlot src dst).stored.Kept cs := by
  refine State.kept_foldl (fun t e ht => ?_) h _
  dsimp only
  split
  · exact State.kept_panWrite ht ..
  · exact ht

@[simp] theorem State.kept_emptySlot {cs : List Instr} {s : State} (h : s.stored.Kept cs) (k : Nat) :
    (s.emptySlot k).stored.Kept cs := by simp [State.emptySlot, h]

@[simp] theorem State.kept_doSlotZeroingComplete {cs : List Instr} {s : State} (h : s.stored.Kept cs) (k : Nat) :
    (doSlotZeroingComplete k s).stored.Kept cs := by
  simp only [doSlotZeroingComplete]
  (repeat' split) <;> simp [h]

@[simp] theorem State.kept_doBaseReleased {cs : List Instr} {s : State} (h : s.stored.Kept cs) (k : Nat) :
    (doBaseReleased k s).stored.Kept cs := by simp [doBaseReleased, h]

/-! #### Machine/Stream -/

@[simp] theorem State.kept_writeTiles {cs : List Instr} {s : State} (h : s.stored.Kept cs) (tab : List Byte) (xs : List
    (Tensor × List Nat × List Byte × List Byte)) :
    (s.writeTiles tab xs).stored.Kept cs := by
  refine State.kept_foldl (fun s x hs => ?_) h _
  refine State.kept_foldl (fun s y hs => ?_) hs _
  rw [State.stored_panHeal]
  exact State.kept_panWrite hs ..

@[simp] theorem State.kept_doStreamEnd {cs : List Instr} {s : State} (h : s.stored.Kept cs) : (doStreamEnd s).stored.Kept cs := by
  unfold doStreamEnd
  (repeat' split) <;> simp [h]

/-! #### Machine/Variants -/

@[simp] theorem State.kept_stageFork {cs : List Instr} {s : State} (h : s.stored.Kept cs) (k : Nat) (b tab : List Byte) :
    (s.stageFork k b tab).2.stored.Kept cs := by
  unfold State.stageFork
  dsimp only
  split
  · exact h
  · split_ifs <;> simp [h]

@[simp] theorem State.kept_doVariantLoadComplete {cs : List Instr} {s : State} (h : s.stored.Kept cs) (x : Nat) :
    (doVariantLoadComplete x s).stored.Kept cs := by
  unfold doVariantLoadComplete
  dsimp only
  split_ifs
  · exact h
  · simpa using h
  · simpa using h
  · simp [h]
  · rw [State.stored_loadAnswer]
    cases hask : ((((s.granWrite _ _ _).granHeal _ _).updEntry x _).askPageIn x [x]) with
    | none => simp [h]
    | some t => simpa [State.stored_askPageIn hask] using State.kept_granWrite h _ _ _
  · simp [h]

/-- The shared opening of a mailbox message. -/
theorem State.kept_message {cs : List Instr} {s : State} (h : s.stored.Kept cs) {port i : Nat} {ide : Bool} {code : Nat}
    {msg : List Byte} {body : State → State} (hb : ∀ s : State, s.stored.Kept cs → (body s).stored.Kept cs) :
    (s.message port i ide code msg body).stored.Kept cs := by
  simp [State.message, h, hb]

@[simp] theorem State.kept_doForkFromBase {cs : List Instr} {s : State} (h : s.stored.Kept cs) (port i : Nat) (ide : Bool)
    (msg : List Byte) :
    (doForkFromBase port i ide msg s).stored.Kept cs := by
  refine State.kept_message h fun s hs => ?_
  dsimp only
  repeat' split
  all_goals simp [hs]

@[simp] theorem State.kept_doPageInComplete {cs : List Instr} {s : State} (h : s.stored.Kept cs) (x : Nat) :
    (doPageInComplete x s).stored.Kept cs := by simp [doPageInComplete, h]

/-! #### Machine/Training -/

@[simp] theorem State.kept_trPut {cs : List Instr} {s : State} (h : s.stored.Kept cs) (x off n v : Nat) :
    (s.trPut x off n v).stored.Kept cs := by simp [State.trPut, h]

@[simp] theorem State.kept_memWrite {cs : List Instr} {s : State} (h : s.stored.Kept cs) (i a : Nat) (bs : List Byte) :
    (s.memWrite i a bs).stored.Kept cs := by
  unfold State.memWrite
  split <;> simp [h]

@[simp] theorem State.kept_zeroBuffer {cs : List Instr} {s : State} (h : s.stored.Kept cs) (x j : Nat) :
    (s.zeroBuffer x j).stored.Kept cs := State.kept_foldl (fun _ _ hs => State.kept_granZeroAbs hs ..) h _

@[simp] theorem State.kept_openTrain {cs : List Instr} {s : State} (h : s.stored.Kept cs) (i : Nat) (msg r : List Byte)
    (ok : Bool) (table : List Byte) :
    (s.openTrain i msg r ok table).stored.Kept cs := by
  unfold State.openTrain
  (repeat' split) <;> simp [h]

@[simp] theorem State.kept_doTrainOpenZeroingComplete {cs : List Instr} {s : State} (h : s.stored.Kept cs) (x : Nat) :
    (doTrainOpenZeroingComplete x s).stored.Kept cs := by
  unfold doTrainOpenZeroingComplete
  split
  · exact h
  · split
    · exact h
    · dsimp only
      rw [State.stored_reply, State.stored_updTrain]
      exact State.kept_foldl (fun _ _ hs => State.kept_zeroBuffer hs ..) h _

@[simp] theorem State.kept_doTrainSet {cs : List Instr} {s : State} (h : s.stored.Kept cs) (port i : Nat) (ide : Bool)
    (msg : List Byte) :
    (doTrainSet port i ide msg s).stored.Kept cs := by
  refine State.kept_message h fun s hs => ?_
  dsimp only
  split <;> simp [hs]

@[simp] theorem State.kept_updateRow {cs : List Instr} {s : State} (h : s.stored.Kept cs) (x i : Nat) (rec e : List Byte)
    (u : UpdEntry) (row base : Nat) :
    (s.updateRow x i rec e u row base).stored.Kept cs := by
  have h1 := State.kept_memWrite h
  unfold State.updateRow
  dsimp only
  refine State.kept_memWrite ?_ ..
  split
  · exact State.kept_memWrite (State.kept_memWrite (State.kept_memWrite h ..) ..) ..
  · exact State.kept_memWrite (State.kept_memWrite h ..) ..

@[simp] theorem State.kept_doUpdateEntryComplete {cs : List Instr} {s : State} (h : s.stored.Kept cs) :
    (doUpdateEntryComplete s).stored.Kept cs := by
  unfold doUpdateEntryComplete
  split
  · exact h
  · next u _ =>
    refine State.kept_ite h ?_
    extract_lets x i rec' tab s1 s2 s3 upd s4 s5
    have h1 : s1.stored.Kept cs := State.kept_ite h (State.kept_foldl_fst (fun _ _ hr =>
      State.kept_foldl_fst (fun _ _ hr => State.kept_updateRow hr ..) hr _) h _)
    have h5 : s5.stored.Kept cs := by
      simpa [s5, s4, s3] using State.kept_trPut (State.kept_zeroBuffer h1 x (u.step % recLag rec')) x 0x10 8 u.step
    split
    · simpa using h5
    · exact h5

@[simp] theorem State.kept_doRefreshComplete {cs : List Instr} {s : State} (h : s.stored.Kept cs) (x : Nat) :
    (doRefreshComplete x s).stored.Kept cs := by
  unfold doRefreshComplete
  dsimp only
  split
  · exact h
  · split
    · exact h
    · rw [State.stored_captureDue]
      refine State.kept_trPut ?_ ..
      rw [State.stored_updTrain]
      exact State.kept_foldl (fun _ _ hs => State.kept_memWrite hs ..) h _

/-! #### Machine/Jobs -/

@[simp] theorem State.kept_trainState {cs : List Instr} {s : State} (h : s.stored.Kept cs) (j : Job) (from' into : Nat) :
    (s.trainState j from' into).stored.Kept cs := by
  unfold State.trainState
  split <;> simp [h]

@[simp] theorem State.kept_doDispatch {cs : List Instr} {s : State} (h : s.stored.Kept cs) (i q : Nat) :
    (doDispatch i q s).stored.Kept cs := by
  unfold doDispatch
  split <;> simp [h]

@[simp] theorem State.kept_applySets {cs : List Instr} {s : State} (h : s.stored.Kept cs) (x : Nat) :
    (s.applySets x).stored.Kept cs := by
  refine State.kept_foldl (fun _ _ hs => State.kept_trPut hs ..) ?_ _
  rw [State.stored_updTrain]
  exact h

@[simp] theorem State.kept_endTraining {cs : List Instr} {s : State} (h : s.stored.Kept cs) (j : Job) :
    (s.endTraining j).stored.Kept cs := by
  unfold State.endTraining
  split <;> simp [h]

@[simp] theorem State.kept_doJobComplete {cs : List Instr} {s : State} (h : s.stored.Kept cs) (i q : Nat) :
    (doJobComplete i q s).stored.Kept cs := by
  unfold doJobComplete
  split <;> simp [h]

/-! #### Machine/Plan -/

@[simp] theorem State.kept_setK6 {cs : List Instr} {s : State} (h : s.stored.Kept cs) (j : Job) (n : Nat) (flag : Bool) :
    (s.setK6 j n flag).stored.Kept cs := by
  refine State.kept_foldl (fun s t hs => ?_) h _
  split
  · exact hs
  · dsimp only
    split <;> simp [hs]

@[simp] theorem State.kept_gateReduction {cs : List Instr} {s : State} (h : s.stored.Kept cs) (j : Job) (x n : Nat)
    (flag : Bool) :
    (s.gateReduction j x n flag).stored.Kept cs := by simp [State.gateReduction, h]

@[simp] theorem State.kept_stepEndUpdate {cs : List Instr} {s : State} (h : s.stored.Kept cs) (j : Job) (x : Nat) (late : Bool) :
    (s.stepEndUpdate j x late).1.stored.Kept cs := by
  have hput {s : State} (h : s.stored.Kept cs) (off n v : Nat) := State.kept_trPut h x off n v
  unfold State.stepEndUpdate
  extract_lets r skip exp min' max' grow clean step code run s1 exp' s2 s3 s4 s5 s6 s7 interval mirror s8 s9 s10
  have h2 : s2.stored.Kept cs := hput (hput h ..) ..
  have h3 : s3.stored.Kept cs := State.kept_ite (hput (hput (hput h2 ..) ..) ..) (hput (hput h2 ..) ..)
  have h5 : s5.stored.Kept cs := State.kept_ite (hput h3 ..) (hput (hput h3 ..) ..)
  have h7 : s7.stored.Kept cs := by simpa [s7] using State.kept_applySets h5 x
  have h9 : s9.stored.Kept cs := by simpa [s9, s8] using h7
  split
  · simpa using hput h9 4 1 4
  · exact h9

@[simp] theorem State.kept_withdrawRows {cs : List Instr} {s : State} (h : s.stored.Kept cs) (j : Job) (rows : List Nat) :
    (s.withdrawRows j rows).stored.Kept cs := by
  unfold State.withdrawRows
  rw [State.stored_dropRows]
  refine State.kept_foldl (fun s r hs => ?_) h _
  split
  · exact State.kept_panWriteG hs ..
  · exact hs

@[simp] theorem State.kept_completeBarrier {cs : List Instr} {s : State} (h : s.stored.Kept cs) (j : Job) :
    (s.completeBarrier j).stored.Kept cs := by
  unfold State.completeBarrier
  extract_lets i q n id s1 flag r s2 token all rows ends s3 s4
  have h1 : s1.stored.Kept cs := by simpa [s1] using h
  have hr : s2.stored.Kept cs := by
    unfold s2 r
    split
    · split
      · exact State.kept_gateReduction h1 ..
      · split
        · simpa using State.kept_stepEndUpdate h1 ..
        · exact h1
    · simpa [apply_ite Prod.fst] using h1
  have h4 : s4.stored.Kept cs := by simpa [s4] using State.kept_withdrawRows hr j rows
  refine State.kept_ite (by simpa using h4) (State.kept_ite ?_ (State.kept_ite (by simpa using h4) ?_))
  · simpa using State.kept_trainState h4 j 2 3
  · split
    · exact h4
    · split <;> simpa using h4

@[simp] theorem State.kept_doBarrierComplete {cs : List Instr} {s : State} (h : s.stored.Kept cs) (i q : Nat) :
    (doBarrierComplete i q s).stored.Kept cs := by
  unfold doBarrierComplete
  (repeat' split) <;> simp [h]

@[simp] theorem State.kept_doTaskRestart {cs : List Instr} {s : State} (h : s.stored.Kept cs) (i q : Nat) :
    (doTaskRestart i q s).stored.Kept cs := by
  simp only [doTaskRestart]
  (repeat' split) <;> simp [h]

/-! #### Machine/Mailbox -/

@[simp] theorem State.kept_doStageInComplete {cs : List Instr} {s : State} (h : s.stored.Kept cs) (i : Nat) :
    (doStageInComplete i s).stored.Kept cs := by
  unfold doStageInComplete
  split <;> simp [h]

@[simp] theorem State.kept_restoreArrays {cs : List Instr} {s : State} (h : s.stored.Kept cs) (i : Nat) (body : List Byte) :
    (s.restoreArrays i body).stored.Kept cs :=
  State.kept_foldl_fst (fun _ _ hr => State.kept_memWrite hr ..) h _

@[simp] theorem State.kept_doMirrorRestore {cs : List Instr} {s : State} (h : s.stored.Kept cs) (port i : Nat) (ide : Bool)
    (msg : List Byte) :
    (doMirrorRestore port i ide msg s).stored.Kept cs := by
  refine State.kept_message h fun s hs => ?_
  dsimp only
  split
  · simpa using hs
  · split_ifs
    · simpa using hs
    · simpa using hs
    · split
      · simpa using hs
      · rw [State.stored_reply]
        refine State.kept_foldl (fun _ _ hs => State.kept_zeroBuffer hs ..) (State.kept_restoreArrays ?_ ..) _
        refine State.kept_memWrite (State.kept_memWrite ?_ ..) ..
        rwa [State.stored_updTrain]

/-! #### Machine/Reset -/

@[simp] theorem State.kept_zeroInst {cs : List Instr} {s : State} (h : s.stored.Kept cs) (i : Nat) :
    (s.zeroInst i).stored.Kept cs := by simp [State.zeroInst, h]
@[simp] theorem State.kept_doInstanceZeroingComplete {cs : List Instr} {s : State} (h : s.stored.Kept cs) (i : Nat) :
    (doInstanceZeroingComplete i s).stored.Kept cs := by simp [doInstanceZeroingComplete, h]

/-! #### Machine/Security -/

@[simp] theorem State.kept_doUnlockZeroingComplete {cs : List Instr} {s : State} (h : s.stored.Kept cs) :
    (doUnlockZeroingComplete s).stored.Kept cs := by
  unfold doUnlockZeroingComplete
  split <;> simp [h]

/-! #### Machine/Completion -/

@[simp] theorem State.kept_fetched {cs : List Instr} {s : State} (h : s.stored.Kept cs) (port : Nat) (f : Fetch) :
    (s.fetched port f).stored.Kept cs := by
  unfold State.fetched
  split <;> simp [h]

@[simp] theorem State.kept_fetchPiece {cs : List Instr} {s : State} (h : s.stored.Kept cs) (port f off len : Nat) (ok : Bool)
    (data : List Byte) :
    (s.fetchPiece port f off len ok data).stored.Kept cs := by
  unfold State.fetchPiece
  split
  · exact h
  · exact State.kept_ite (State.kept_fetched (s := { s with fetches := s.fetches.erase _ }) h ..) h

@[simp] theorem State.kept_hostDone {cs : List Instr} {s : State} (h : s.stored.Kept cs) (port : Nat) (r : HostReq) (ok : Bool)
    (data : List Byte) :
    (s.hostDone port r ok data).stored.Kept cs := by
  unfold State.hostDone
  split <;> simp [h]

@[simp] theorem State.kept_doHostCompletion {cs : List Instr} {s : State} (h : s.stored.Kept cs) (port id : Nat) (ok : Bool)
    (data : List Byte) :
    (doHostCompletion port id ok data s).stored.Kept cs := by
  unfold doHostCompletion
  split <;> simp [h]

/-! #### Machine/Recovery -/

@[simp] theorem State.kept_rebuiltPan {cs : List Instr} {s : State} (h : s.stored.Kept cs) (p block : Nat) (data : List Byte) :
    (s.rebuiltPan p block data).stored.Kept cs := by
  unfold State.rebuiltPan
  rw [State.stored_updPan]
  exact h.withPan (Memory.wf_write (m := s.pan) h.pan)

@[simp] theorem State.kept_rebuildPan {cs : List Instr} {s : State} (h : s.stored.Kept cs) (p off block : Nat) (ok : Bool)
    (data : List Byte) :
    (s.rebuildPan p off block ok data).stored.Kept cs := by
  simp only [State.rebuildPan]
  (repeat' split) <;> simp [h]

@[simp] theorem State.kept_doRebuild {cs : List Instr} {s : State} (h : s.stored.Kept cs) (granary : Bool) (block : Nat)
    (ok : Bool) (data : List Byte) :
    (doRebuild granary block ok data s).stored.Kept cs := by simp [doRebuild, h]

@[simp] theorem State.kept_doColumnRetirement {cs : List Instr} {s : State} (h : s.stored.Kept cs) (p : Nat) :
    (doColumnRetirement p s).stored.Kept cs := by simp [doColumnRetirement, h]

/-- The shared opening of an operation of MGT_RECOVERY_CMD. -/
theorem State.kept_recCmd {cs : List Instr} {s : State} (h : s.stored.Kept cs) {op : Nat} {v : BitVec 32}
    {body : State → Nat → State}
    (hb : ∀ (s : State) (p : Nat), s.stored.Kept cs → (body s p).stored.Kept cs) : (s.recCmd op v body).stored.Kept cs := by
  simp [State.recCmd, h, hb]

@[simp] theorem State.kept_doRetireColumn {cs : List Instr} {s : State} (h : s.stored.Kept cs) (_port : Nat) (v : BitVec 32) :
    (doRetireColumn _port v s).stored.Kept cs := by
  refine State.kept_recCmd h fun s p hs => ?_
  split <;> simp [hs]

@[simp] theorem State.kept_doLiveOperationComplete {cs : List Instr} {s : State} (h : s.stored.Kept cs) (ok : Bool) (svn : Nat)
    (digest : BitVec 512) (key sig : List Byte) :
    (doLiveOperationComplete ok svn digest key sig s).stored.Kept cs := by
  unfold doLiveOperationComplete
  split <;> simp [h]

@[simp] theorem State.kept_writeBox {cs : List Instr} {s : State} (h : s.stored.Kept cs) : (s.writeBox).stored.Kept cs := by
  simp only [State.writeBox, State.stored_mk]
  exact h.withNvs (Nvs.wf_write (Nvs.wf_write h.nvs ..) ..)

@[simp] theorem State.kept_doBlackBoxDumpComplete {cs : List Instr} {s : State} (h : s.stored.Kept cs) (mv : Nat) :
    (doBlackBoxDumpComplete mv s).stored.Kept cs := by simp [doBlackBoxDumpComplete, h]

/-! #### Machine/Module -/

@[simp] theorem State.kept_doInputDroop {cs : List Instr} {s : State} (h : s.stored.Kept cs) (mv : Nat) :
    (doInputDroop mv s).stored.Kept cs := by simp [doInputDroop, h]

/-! ### Every step -/

/-- Every command answers a next state, with the queue as it was and the three memories in canonical form (log 1). -/
theorem exec_kept (c : Instr) {cs : List Instr} {s : State} (h : s.stored.Kept cs) :
    ∃ t, exec c s = .next t ∧ t.stored.Kept cs := by
  have issued {p cls op : Nat} {ops : BitVec 56} {body : State → Core → Except IFault State}
      (hb : ∀ t, body s (s.core p) = .ok t → t.stored = s.stored) : (issue s p cls op ops body).stored.Kept cs :=
    (State.stored_issue s p cls op ops hb).symm ▸ h
  cases c
  case semAdd => exact ⟨_, rfl, issued fun _ => State.stored_semBody⟩
  case semSub => exact ⟨_, rfl, issued fun _ => State.stored_semBody⟩
  case semWaitge => exact ⟨_, rfl, issued fun _ => State.stored_semBody⟩
  case semWaitsub => exact ⟨_, rfl, issued fun _ => State.stored_semBody⟩
  case feLoad => exact ⟨_, rfl, issued fun _ => State.stored_feBody⟩
  case feStore => exact ⟨_, rfl, issued fun _ => State.stored_feBody⟩
  all_goals exact ⟨_, rfl, by simp [h]⟩

theorem State.canonical_iff_kept {s : State} : s.canonical ↔ s.stored.Kept s.pending :=
  ⟨fun ⟨hpan, hgran, hnvs⟩ => ⟨rfl, hpan, hgran, hnvs⟩, fun h => ⟨h.pan, h.gran, h.nvs⟩⟩

theorem State.canonical_of_kept {cs : List Instr} {s : State} (h : s.stored.Kept cs) : s.canonical := ⟨h.pan, h.gran, h.nvs⟩

/-- Settles O5: a tick touches no memory, and a command keeps the memories in canonical form, whatever the queue. -/
theorem stepKeepsMemoriesCanonical : Obligations.StepKeepsMemoriesCanonical := by
  intro s t hs hstep
  unfold step at hstep
  split at hstep
  · obtain rfl : s.tick = t := by simpa using hstep
    have hk : s.tick.stored.Kept s.pending := s.stored_tick.symm ▸ State.canonical_iff_kept.1 hs
    exact State.canonical_of_kept hk
  · next c rest _ =>
    obtain ⟨u, hu, hk⟩ := exec_kept c (s := { s with pending := rest }) (State.canonical_iff_kept.1 hs)
    obtain rfl : u = t := by simpa [hu] using hstep
    exact State.canonical_of_kept hk

end Sys2Proof.Machine

/-! PROOFS. What a pan write does to pan DRAM byte by byte, and that the places of the layers and of the granary's channels name
their bytes back (R17, R19, R416). -/

namespace Sys2Proof.Machine

/-- A pan write of one byte: at its place, if it is mapped. -/
def State.panPut (s : State) (p off : Nat) (b : Byte) : State :=
  match s.panKey p off with
  | some a => { s with pan := Tab.put 0 a b s.pan }
  | none => s

@[simp] theorem State.panWrite_nil (s : State) (p off : Nat) : s.panWrite p off [] = s := rfl

theorem State.panWrite_cons (s : State) (p off : Nat) (b : Byte) (bs : List Byte) :
    s.panWrite p off (b :: bs) = (s.panPut p off b).panWrite p (off + 1) bs := rfl

theorem State.panPut_frame (s : State) (p off : Nat) (b : Byte) : { s.panPut p off b with pan := s.pan } = s := by
  unfold State.panPut
  split <;> rfl

@[simp] theorem State.panPut_panKey (s : State) (p off : Nat) (b : Byte) : (s.panPut p off b).panKey = s.panKey := by
  unfold State.panPut
  split <;> rfl

theorem State.panWrite_frame (s : State) (p off : Nat) (bs : List Byte) : { s.panWrite p off bs with pan := s.pan } = s := by
  induction bs generalizing s off with
  | nil => rfl
  | cons b bs ih =>
    calc { s.panWrite p off (b :: bs) with pan := s.pan }
        = { ({ (s.panPut p off b).panWrite p (off + 1) bs with pan := (s.panPut p off b).pan } : State) with pan := s.pan } := rfl
      _ = { s.panPut p off b with pan := s.pan } := by rw [ih]
      _ = s := s.panPut_frame p off b

/-- The map of a column stays, as it depends on the fence alone. -/
@[simp] theorem State.panWrite_panKey (s : State) (p off : Nat) (bs : List Byte) : (s.panWrite p off bs).panKey = s.panKey := by
  have h : ({ s.panWrite p off bs with pan := s.pan } : State).fence = s.fence := by rw [s.panWrite_frame]
  replace h : (s.panWrite p off bs).fence = s.fence := h
  funext q o
  simp only [State.panKey, h]

theorem State.wf_panPut {s : State} (h : Memory.wf s.pan = true) (p off : Nat) (b : Byte) :
    Memory.wf (s.panPut p off b).pan = true := by
  unfold State.panPut
  split
  · exact Memory.wf_put h
  · exact h

theorem State.wf_panWrite {s : State} (h : Memory.wf s.pan = true) (p off : Nat) (bs : List Byte) :
    Memory.wf (s.panWrite p off bs).pan = true := by
  induction bs generalizing s off with
  | nil => exact h
  | cons b bs ih =>
    rw [State.panWrite_cons]
    exact ih (State.wf_panPut h p off b) (off + 1)

/-- A place that no byte of the range has keeps its byte. -/
theorem State.byte_panWrite_ne {s : State} (h : Memory.wf s.pan = true) {p off a : Nat} {bs : List Byte}
    (ha : ∀ i < bs.length, s.panKey p (off + i) ≠ some a) :
    Memory.byte (s.panWrite p off bs).pan a = Memory.byte s.pan a := by
  induction bs generalizing s off with
  | nil => rfl
  | cons b bs ih =>
    rw [State.panWrite_cons, ih (State.wf_panPut h p off b)]
    · have h0 : s.panKey p off ≠ some a := ha 0 (by simp)
      unfold State.panPut
      split
      · next k hk => exact Tab.get_put_ne (Memory.sorted_of_wf h) fun e => h0 (e ▸ hk)
      · rfl
    · intro i hi
      have hs := ha (i + 1) (by simpa using hi)
      rwa [State.panPut_panKey, Nat.add_assoc, Nat.add_comm 1 i]

/-- Of a range whose bytes lie at places of their own, the place of byte `i` holds it after the write. -/
theorem State.byte_panWrite {s : State} (h : Memory.wf s.pan = true) {p off : Nat} {bs : List Byte}
    (hinj : ∀ i < bs.length, ∀ j < bs.length, s.panKey p (off + i) = s.panKey p (off + j) → i = j)
    {i a : Nat} (hi : i < bs.length) (ha : s.panKey p (off + i) = some a) :
    Memory.byte (s.panWrite p off bs).pan a = bs[i] := by
  induction bs generalizing s off i with
  | nil => simp at hi
  | cons b bs ih =>
    have hw : Memory.wf (s.panPut p off b).pan = true := State.wf_panPut h p off b
    have hoff (j : Nat) : off + 1 + j = off + (j + 1) := by omega
    rw [State.panWrite_cons]
    cases i with
    | zero =>
      rw [State.byte_panWrite_ne hw]
      · unfold State.panPut
        rw [show s.panKey p off = some a from ha]
        exact Tab.get_put_self (Memory.sorted_of_wf h)
      · intro j hj hkey
        rw [State.panPut_panKey, hoff] at hkey
        exact absurd (hinj 0 hi (j + 1) (by simpa using hj) (ha.trans hkey.symm)) (by omega)
    | succ i =>
      refine ih hw ?_ (by simpa using hi) (by rwa [State.panPut_panKey, hoff])
      intro j hj k hk hkey
      simp only [State.panPut_panKey, hoff] at hkey
      have := hinj (j + 1) (by simpa using hj) (k + 1) (by simpa using hk) hkey
      omega

theorem State.panRead_panWrite {s : State} (h : Memory.wf s.pan = true) {p off : Nat} {bs : List Byte}
    (hmap : ∀ i < bs.length, ∃ a, s.panKey p (off + i) = some a)
    (hinj : ∀ i < bs.length, ∀ j < bs.length, s.panKey p (off + i) = s.panKey p (off + j) → i = j) :
    (s.panWrite p off bs).panRead p off bs.length = bs := by
  apply List.ext_getElem
  · simp [State.panRead]
  · intro i hi hb
    obtain ⟨a, ha⟩ := hmap i hb
    simp only [State.panRead, State.panWrite_panKey, List.getElem_map, List.getElem_range, ha]
    exact State.byte_panWrite h hinj hb ha

/-- The place of byte `f` of block `8 * h + e` of column `c` is byte `f` of block `h` of its layer `e`. -/
theorem panCell_block {c h e f : Nat} (hh : h < 0x70000) (he : e < 8) (hf : f < 64) :
    panCell (c * columnBytes + (512 * h + 64 * e + f)) = c * columnBytes + (e * layerBytes + (64 * h + f)) := by
  simp only [panCell, columnBytes, layerBytes]
  omega

theorem panByteOf_block {c h e f : Nat} (hh : h < 0x70000) (he : e < 8) (hf : f < 64) :
    panByteOf (c * columnBytes + (e * layerBytes + (64 * h + f))) = c * columnBytes + (512 * h + 64 * e + f) := by
  simp only [panByteOf, columnBytes, layerBytes]
  omega

theorem column_block (a : Nat) :
    ∃ c h e f, h < 0x70000 ∧ e < 8 ∧ f < 64 ∧ a = c * columnBytes + (512 * h + 64 * e + f) := by
  refine ⟨a / columnBytes, a % columnBytes / 512, a % columnBytes / 64 % 8, a % 64, ?_⟩
  simp only [columnBytes]
  omega

/-- Layers take the 64-byte blocks of a column in turn, and the place of a byte names its column, its layer and the byte. -/
theorem panByteOf_panCell (a : Nat) :
    panByteOf (panCell a) = a ∧ panCell a / columnBytes = a / columnBytes ∧
      panCell a % columnBytes / layerBytes = a % columnBytes / 64 % 8 := by
  obtain ⟨c, h, e, f, hh, he, hf, rfl⟩ := column_block a
  rw [panCell_block hh he hf]
  have hcell : e * layerBytes + (64 * h + f) < columnBytes ∧ (e * layerBytes + (64 * h + f)) / layerBytes = e := by
    simp only [columnBytes, layerBytes]
    omega
  have hbyte : 512 * h + 64 * e + f < columnBytes ∧ (512 * h + 64 * e + f) / 64 % 8 = e := by
    simp only [columnBytes]
    omega
  have hdiv {o : Nat} (ho : o < columnBytes) :
      (c * columnBytes + o) / columnBytes = c ∧ (c * columnBytes + o) % columnBytes = o := by
    simp only [columnBytes] at *
    omega
  refine ⟨panByteOf_block hh he hf, ?_, ?_⟩
  · rw [(hdiv hcell.1).1, (hdiv hbyte.1).1]
  · rw [(hdiv hcell.1).2, (hdiv hbyte.1).2, hcell.2, hbyte.2]

/-- The place of byte `f` of the 512-byte part `c` of the 16 KiB block `h` is byte `f` of part `h` of channel `c`. -/
theorem granCell_part {h c f : Nat} (hc : c < 32) (hf : f < 512) :
    granCell (16384 * h + 512 * c + f) = c * 0x600000000 + (512 * h + f) ∧ bits (16384 * h + 512 * c + f) 13 9 = c := by
  have hbits : bits (16384 * h + 512 * c + f) 13 9 = (16384 * h + 512 * c + f) / 512 % 32 := by
    simp [bits, Nat.shiftRight_eq_div_pow]
  simp only [granCell, hbits]
  omega

/-- Bits 13:9 of a granary address choose its channel, and the place of a byte names the byte. -/
theorem granByteOf_granCell {a : Nat} (ha : a < 0xC000000000) :
    granByteOf (granCell a) = a ∧ granCell a / 0x600000000 = bits a 13 9 := by
  obtain ⟨h, c, f, hc, hf, rfl⟩ : ∃ h c f, c < 32 ∧ f < 512 ∧ a = 16384 * h + 512 * c + f :=
    ⟨a / 16384, a / 512 % 32, a % 512, by omega⟩
  obtain ⟨hcell, hbits⟩ := granCell_part (h := h) hc hf
  rw [hcell, hbits, granByteOf]
  omega

/-- Settles O30: by induction on the bytes, as a pan write changes the byte at each mapped place in turn and never the map. -/
theorem panWriteFrame : Obligations.PanWriteFrame := by
  refine ⟨?_, fun a _ => panByteOf_panCell a, fun a ha => granByteOf_granCell ha⟩
  rintro s q off bs t hwf rfl hmap hinj
  exact ⟨State.panRead_panWrite hwf hmap hinj, State.wf_panWrite hwf q off bs, s.panWrite_frame q off bs,
    fun a ha => State.byte_panWrite_ne hwf ha⟩

end Sys2Proof.Machine

/-! PROOFS. Which token can arrive at its destination, what its arrival changes, and what moving up changes (R28, R34). -/

namespace Sys2Proof.Machine

/-! ### Finding a token on the channels -/

theorem net_find? {net front back : List Token} {t : Token} (hnet : net = front ++ t :: back)
    (hid : ∀ u ∈ front, u.id ≠ t.id) : (net.find? fun u => u.id = t.id) = some t := by
  subst hnet
  rw [List.find?_append, List.find?_eq_none.2 (by simpa using hid)]
  simp

theorem net_takeWhile {net front back : List Token} {t : Token} (hnet : net = front ++ t :: back)
    (hid : ∀ u ∈ front, u.id ≠ t.id) : (net.takeWhile fun u => u.id ≠ t.id) = front := by
  subst hnet
  rw [List.takeWhile_append_of_pos (by simpa using hid)]
  simp

/-- A token is blocked by one in front of it of the same units, unless these lie in diagonal quadrants. -/
theorem tokBlocked_iff {net front back : List Token} {t : Token} (hnet : net = front ++ t :: back)
    (hid : ∀ u ∈ front, u.id ≠ t.id) :
    tokBlocked net t = true ↔ diagonal (quadrant (unitRegion t.srcUnit)) (quadrant (unitRegion t.dstUnit)) = false ∧
      ∃ u ∈ front, u.srcUnit = t.srcUnit ∧ u.dstUnit = t.dstUnit := by
  rw [tokBlocked, net_takeWhile hnet hid]
  simp

theorem State.arriving_eq {s : State} {t : Token} (kinds : List TokKind)
    (hfind : (s.net.find? fun u => u.id = t.id) = some t) :
    s.arriving t.id kinds =
      if t.kind ∈ kinds ∧ (∀ r ∈ t.path, s.held r = false) ∧ s.answerWay t = true ∧ tokBlocked s.net t = false ∧
        s.working = true
      then some t else none := by
  rw [State.arriving, hfind, Option.bind_some]
  simp [and_assoc]

/-! ### What passing, taking and moving up leave alone -/

@[simp] theorem State.passes_net (s : State) (rs : List Nat) : (s.passes rs).net = s.net := by
  have h : ({ s.passes rs with obs := s.obs } : State).net = s.net := by rw [s.passes_frame]
  exact h

theorem State.take_net (s : State) (t : Token) : (s.take t).net = s.net.filter (·.id ≠ t.id) := by
  unfold State.take
  dsimp only
  split
  · rfl
  · split
    · rfl
    · exact State.passes_net ..

theorem State.moveUp_net (s : State) (t : Token) :
    (s.moveUp t).net = mapIf (fun u => u.id = t.id)
      (fun u => { u with path := u.path.drop (t.path.takeWhile fun r => !s.held r).length }) s.net := by
  unfold State.moveUp
  dsimp only
  split
  · rfl
  · exact State.passes_net ..

/-- The part of a way in front of its first stopped region. -/
theorem State.takeWhile_held {s : State} {a b : List Nat} {r : Nat} (ha : ∀ x ∈ a, s.held x = false) (hr : s.held r = true) :
    ((a ++ r :: b).takeWhile fun x => !s.held x) = a := by
  rw [List.takeWhile_append_of_pos (by simpa using ha)]
  simp [hr]

theorem State.stall_eq_moveUp {s : State} {t : Token} {kinds : List TokKind}
    (hfind : (s.net.find? fun u => u.id = t.id) = some t) (hkind : t.kind ∈ kinds) (hheld : ∃ r ∈ t.path, s.held r = true)
    (hfree : tokBlocked s.net t = false) (hwork : s.working = true) : s.stall t.id kinds = s.moveUp t := by
  simp only [State.stall, hfind]
  exact if_pos (by simpa [hkind, hfree, hwork] using hheld)

/-- Settles O39: a search by number finds t behind exactly the tokens of front, which alone can block it. -/
theorem tokensKeepOrder : Obligations.TokensKeepOrder := by
  intro s t front back kinds hnet hid
  have hfind := net_find? hnet hid
  have harr := State.arriving_eq kinds hfind
  have hblock := tokBlocked_iff hnet hid
  refine ⟨fun hu hd => ?_, fun ⟨r, hr, hh⟩ => ?_, fun hw hk hp ha ho => ?_, ⟨s.take_frame t, s.take_net t⟩, ?_⟩
  · rw [harr, if_neg]
    rintro ⟨-, -, -, hb, -⟩
    exact absurd (hblock.2 ⟨hd, hu⟩) (by simp [hb])
  · rw [harr, if_neg]
    rintro ⟨-, hp, -⟩
    exact absurd hh (by simp [hp r hr])
  · have hb : tokBlocked s.net t = false := by
      rw [← Bool.not_eq_true, hblock]
      rintro ⟨hd, u, hu, hs⟩
      obtain ho | ho := ho
      · exact absurd ho (by simp [hd])
      · exact ho u hu hs
    rw [harr, if_pos ⟨hk, hp, ha, hb, hw⟩]
  · intro a r b hw hk hfront hpath ha hr
    have hb : tokBlocked s.net t = false := by
      rw [← Bool.not_eq_true, hblock]
      rintro ⟨-, u, hu, hs⟩
      exact hfront u hu hs
    rw [State.stall_eq_moveUp hfind hk ⟨r, by simp [hpath], hr⟩ hb hw, State.moveUp_net, hpath, State.takeWhile_held ha hr]

end Sys2Proof.Machine

/-! PROOFS. What the arrival of a token leaves of the state, and waits and wakes at the semaphore memories (R30, R315 to R318). -/

namespace Sys2Proof.Machine

/-! ### What the arrival of a token leaves -/

/-- What depends on neither the channels nor the counters is, when a token has been taken, as it was. -/
theorem State.of_take {α : Type} (f : State → α) (hf : ∀ (s : State) net obs, f { s with net := net, obs := obs } = f s)
    (s : State) (t : Token) : f (s.take t) = f s :=
  calc f (s.take t) = f { s.take t with net := s.net, obs := s.obs } := (hf _ _ _).symm
    _ = f s := by rw [s.take_frame t]

@[simp] theorem State.take_zen (s : State) (t : Token) : (s.take t).zen = s.zen := State.of_take State.zen (fun _ _ _ => rfl) s t

theorem State.fieldInst_congr {s u : State} (h : u.zen = s.zen) (f : Nat) : u.fieldInst f = s.fieldInst f := by
  simp only [State.fieldInst, State.fieldRec?, h]

@[simp] theorem State.fieldInst_take (s : State) (t : Token) (f : Nat) : (s.take t).fieldInst f = s.fieldInst f :=
  State.fieldInst_congr (s.take_zen t) f

/-! ### Waits and wakes -/

theorem State.semTagOk_of_fieldInst {s : State} {t : Token} (h : s.fieldInst (t.addr.toNat / 4096) = some t.inst) :
    s.semTagOk t = true := decide_eq_true h

/-- A wait that reaches the semaphore memory of its own field while its core still waits. -/
theorem doSemWait_waits {s : State} {sub : Bool} {tok p : Nat} {t : Token}
    (harr : s.arriving tok [if sub then .waitsub else .waitge] = some t) (horig : t.origin = .seq p)
    (hinst : s.fieldInst (t.addr.toNat / 4096) = some t.inst) (hwait : (s.take t).stillWaits p t.seq = true) :
    doSemWait sub tok s =
      let k := t.addr.toNat
      let u := (s.take t).semCounted k
      let w : State := { u with semWaiters := u.semWaiters ++ [⟨k, t.n, sub, p, t.inst, t.seq⟩] }
      if t.n ≤ u.semCount k then
        (if sub then u.semChange k (u.semCount k - t.n) else u).wakeCore (semUnit (k / 4096)) p t.inst t.seq
      else if w.fieldConfid (k / 4096) then w
      else w.updField (k / 4096) fun x =>
        { x with semPeak := max x.semPeak (w.semWaiters.filter fun w => w.phys / 4096 = k / 4096).length } := by
  have htag : (s.take t).semTagOk t = true := State.semTagOk_of_fieldInst (by rw [State.fieldInst_take, hinst])
  simp only [doSemWait, harr, horig, htag, hwait, Bool.not_true, Bool.false_eq_true, if_false]

/-- Which instances are confidential depends on the partition alone. -/
theorem State.fieldConfid_congr {s u : State} (h : u.zen = s.zen) (f : Nat) : u.fieldConfid f = s.fieldConfid f := by
  have hconf : u.confid = s.confid := funext fun i => by simp only [State.confid, State.instRec?, h]
  rw [State.fieldConfid, State.fieldInst_congr h, hconf, ← State.fieldConfid]

@[simp] theorem State.semCounted_zen (s : State) (k : Nat) : (s.semCounted k).zen = s.zen := by
  simp only [State.semCounted]
  split <;> rfl

/-- A wake token that reaches its core in the wait. -/
theorem doWakeToken_waits {s : State} {tok p : Nat} {t : Token} (harr : s.arriving tok [.wake] = some t)
    (horig : t.origin = .seq p) (hwait : (s.take t).stillWaits p t.seq = true) :
    doWakeToken tok s = (s.take t).updCore p fun c => { c.advance with act := .running, wait := .none } := by
  simp only [doWakeToken, harr, horig, hwait, if_true]

/-- Settles O26: who owns the field stays the same while the token is taken and counted. -/
theorem waitsAndWakes : Obligations.WaitsAndWakes := by
  constructor
  · rintro s tok _ p sub t _ _ rfl horig harr hinst hwait rfl rfl
    have hexec : exec (if sub = true then .waitsub tok else .waitge tok) s = .next (doSemWait sub tok s) := by
      cases sub <;> rfl
    rw [hexec, doSemWait_waits harr horig hinst hwait]
    dsimp only
    rw [State.fieldConfid_congr (s := s) (by simp)]
  · intro s tok p t horig harr hwait
    exact congrArg Host.Outcome.next (doWakeToken_waits harr horig hwait)

end Sys2Proof.Machine

/-! PROOFS. What a write leaves of a scratchpad's words, and the arrival of a copy's data, acknowledgements and writes (R104 to
R109, R145). -/

namespace Sys2Proof.Machine

/-! ### Scratchpads -/

/-- The fault of a scratch read is SCRATCH_UE. -/
theorem Core.scratchRead_cause {c : Core} {unit a n : Nat} {f : IFault} (h : c.scratchRead unit a n = .error f) :
    f.cause = 4 := by
  unfold Core.scratchRead at h
  split at h
  · cases h
  · cases h
    rfl

theorem Core.scratchRead_bytes {c : Core} {unit a n : Nat} {bs : List Byte} (h : c.scratchRead unit a n = .ok bs) :
    bs = c.bytes a n := by
  unfold Core.scratchRead at h
  split at h
  · cases h
    rfl
  · cases h

/-- The uncorrectable words that a write covers in part, whose bytes it discards. -/
def Core.lostWords (c : Core) (a n : Nat) : List Nat := (c.ueIn a n).filter fun w => !decide (a ≤ w * 8 ∧ w * 8 + 8 ≤ a + n)

theorem Core.lostWords_of_whole {a n : Nat} (c : Core) (ha : a % 8 = 0) (hn : (a + n) % 8 = 0) : c.lostWords a n = [] := by
  simp only [Core.lostWords, Core.ueIn, List.filter_filter, List.filter_eq_nil_iff]
  intro w _
  simp only [Bool.and_eq_true, Bool.not_eq_true', decide_eq_false_iff_not, decide_eq_true_eq]
  omega

theorem Core.lostWords_of_sound {c : Core} (h : c.ueWords = []) (a n : Nat) : c.lostWords a n = [] := by
  simp [Core.lostWords, Core.ueIn, h]

/-- Writing bytes one by one changes no register. -/
theorem Core.foldl_putByte_counts (skip : Nat → Bool) (addr : Nat → Nat) (b : Nat → Byte) (ks : List Nat) (c : Core) :
    let c1 := ks.foldl (fun c k => if skip k then c else c.putByte (addr k) (b k)) c
    c1.corrected = c.corrected ∧ c1.uncorrected = c.uncorrected := by
  induction ks generalizing c with
  | nil => exact ⟨rfl, rfl⟩
  | cons k ks ih =>
    rw [List.foldl_cons]
    obtain ⟨hcor, hunc⟩ := ih (if skip k then c else c.putByte (addr k) (b k))
    refine ⟨hcor.trans ?_, hunc.trans ?_⟩ <;> (split <;> rfl)

theorem Core.write_corrected (c : Core) (a : Nat) (bs : List Byte) : (c.write a bs).corrected = c.corrected := by
  unfold Core.write
  dsimp only
  split <;> exact (Core.foldl_putByte_counts ..).1

theorem Core.write_uncorrected {c : Core} {a : Nat} {bs : List Byte} (h : c.lostWords a bs.length = []) :
    (c.write a bs).uncorrected = c.uncorrected := by
  have he : (c.lostWords a bs.length).isEmpty = true := by rw [h]; rfl
  unfold Core.write
  dsimp only
  rw [if_pos (by exact he)]
  exact (Core.foldl_putByte_counts ..).2

/-! ### Ways -/

@[simp] theorem State.passes_zen (s : State) (rs : List Nat) : (s.passes rs).zen = s.zen := by
  have h : ({ s.passes rs with obs := s.obs } : State).zen = s.zen := by rw [s.passes_frame]
  exact h

@[simp] theorem State.crossed_zen (s : State) (a b i : Nat) : (s.crossed a b i).zen = s.zen := by
  simp only [State.crossed]
  split
  · rfl
  · exact State.passes_zen ..

/-! ### Arrivals -/

/-- A piece of a scratchpad is read there, when the way is free and the core is out of retention. -/
theorem doReadDataArrival_scratch {s : State} {p e d q off : Nat} {a : ActDesc} {pc : Piece} {rest : List Piece}
    (fixed bad : List Nat) (hwork : s.working = true) (hfind : ((s.core p).ce e).find d = some a) (hreads : a.reads = pc :: rest)
    (hplace : s.place pc.src.toNat = .scratch q off) (hto : s.wayHeld (p / 11) (q / 11) = false)
    (hback : s.wayHeld (q / 11) (p / 11) = false) (hact : (s.core q).act ≠ .retention) :
    doReadDataArrival p e d fixed bad s = s.readScratch p e q off a pc fixed bad := by
  simp [doReadDataArrival, hwork, hfind, hreads, hplace, hto, hback, hact]

theorem State.readScratch_eq (s : State) (p e q off : Nat) (a : ActDesc) (pc : Piece) (fixed bad : List Nat) :
    s.readScratch p e q off a pc fixed bad =
      let cq := (s.core q).upset bad
      let u := ((s.setCore q cq).crossed (p / 11) (q / 11) (s.core p).inst).crossed (q / 11) (p / 11) (s.core p).inst
      if s.fieldInst (q / 11) ≠ some (s.core p).inst
      then (u.discard (q / 11) pc.src.toNat).takeFault p 1 (4 + e) a.idx pc.src.toNat
      else match cq.scratchRead (4 + e) off pc.len with
        | .error f => (u.scratchUe q f.detail).takeFault p 4 (4 + e) a.idx f.detail
        | .ok _ => (u.corrects q fixed).deliverPiece p e a pc (cq.bytes off pc.len) 0 := by
  unfold State.readScratch
  dsimp only
  rw [State.fieldInst_congr (s := s) (by simp)]
  refine if_congr Iff.rfl rfl ?_
  cases hread : ((s.core q).upset bad).scratchRead (4 + e) off pc.len with
  | error f => simp only [Core.scratchRead_cause hread]
  | ok bs => simp only [Core.scratchRead_bytes hread]

/-- Data from elsewhere than a scratchpad comes with its token. -/
theorem doReadDataArrival_token {s : State} {p e d : Nat} {a : ActDesc} {pc : Piece} {rest : List Piece} {t : Token}
    (fixed bad : List Nat) (hwork : s.working = true) (hfind : ((s.core p).ce e).find d = some a) (hreads : a.reads = pc :: rest)
    (hplace : ∀ q off, s.place pc.src.toNat ≠ .scratch q off)
    (htok : s.net.find? (fun t => t.kind = .readData && t.origin = .ce p e d && t.seq = pc.seq) = some t)
    (harr : s.arriving t.id [.readData] = some t) :
    doReadDataArrival p e d fixed bad s = (s.take t).deliverPiece p e a pc t.data t.ue := by
  simp only [doReadDataArrival, hwork, hfind, hreads, htok, harr, Bool.not_true, Bool.false_eq_true, if_false]

theorem doWriteAcknowledge_ce {s : State} {tok p e d : Nat} {a : ActDesc} {t : Token} (harr : s.arriving tok [.ack] = some t)
    (horig : t.origin = .ce p e d) (hfind : (((s.take t).core p).ce e).find d = some a) :
    doWriteAcknowledge tok s = ((s.take t).putDesc p e { a with outstanding := a.outstanding - 1 }).run p e d := by
  simp only [doWriteAcknowledge, harr, horig, State.ackCopy, State.ackWrites, hfind]

theorem doWriteAcknowledge_seq {s : State} {tok p n id : Nat} {t : Token} (harr : s.arriving tok [.ack] = some t)
    (horig : t.origin = .seq p) (hwait : ((s.take t).core p).wait = .planAck n id) :
    doWriteAcknowledge tok s = (s.take t).setCore p { (s.take t).core p with wait := .planAck (n - 1) id } := by
  simp only [doWriteAcknowledge, harr, horig, State.updCore, Core.planAck, hwait]

theorem doScratchWriteArrival_retention {s : State} {tok err q off : Nat} {t : Token} (harr : s.arriving tok [.write] = some t)
    (hplace : s.place t.addr.toNat = .scratch q off) (hact : (s.core q).act = .retention) :
    doScratchWriteArrival tok err s = s.wake q := by
  simp only [doScratchWriteArrival, harr, hplace, hact, if_true]

/-- A write in which the code finds no error writes its bytes, and is acknowledged. -/
theorem doScratchWriteArrival_clean {s : State} {tok err q off : Nat} {t : Token} (harr : s.arriving tok [.write] = some t)
    (hplace : s.place t.addr.toNat = .scratch q off) (hact : (s.core q).act ≠ .retention)
    (hinst : s.fieldInst (q / 11) = some t.inst)
    (hclean : (off % 8 = 0 ∧ (off + t.data.length) % 8 = 0) ∨ (err = 0 ∧ (s.core q).ueWords = [])) :
    doScratchWriteArrival tok err s = ((s.take t).setCore q ((s.core q).write off t.data)).acknowledge t := by
  have hlost : (s.core q).lostWords off t.data.length = [] := by
    obtain ⟨ha, hn⟩ | ⟨-, hue⟩ := hclean
    · exact Core.lostWords_of_whole _ ha hn
    · exact Core.lostWords_of_sound hue ..
  have h1 : ((off % 8 ≠ 0 || (off + t.data.length) % 8 ≠ 0) && err = 1) = false := by
    obtain ⟨ha, hn⟩ | ⟨he, -⟩ := hclean
    · simp [ha, hn]
    · simp [he]
  have h2 : ((off % 8 ≠ 0 || (off + t.data.length) % 8 ≠ 0) && err = 2) = false := by
    obtain ⟨ha, hn⟩ | ⟨he, -⟩ := hclean
    · simp [ha, hn]
    · simp [he]
  simp only [doScratchWriteArrival, harr, hplace, hact, State.fieldInst_take, hinst, ne_eq, not_true_eq_false, if_false, h1, h2,
    Bool.false_and, Bool.false_eq_true, Core.write_corrected, Core.write_uncorrected hlost, if_true]

/-- Settles O22: each arrival by its case, as taking a token and crossing regions leave the instances of the fields alone. -/
theorem copyTokensArrive : Obligations.CopyTokensArrive := by
  intro s p e d a pc rest tok err fixed bad t hwork
  refine ⟨fun hfind hreads => ⟨?_, ?_⟩, ?_, ?_, ?_⟩
  · rintro q off _ _ hplace hto hback hact rfl rfl
    exact congrArg Host.Outcome.next
      ((doReadDataArrival_scratch fixed bad hwork hfind hreads hplace hto hback hact).trans (s.readScratch_eq ..))
  · intro hplace htok harr
    exact congrArg Host.Outcome.next (doReadDataArrival_token fixed bad hwork hfind hreads hplace htok harr)
  · intro harr horig hfind
    exact congrArg Host.Outcome.next (doWriteAcknowledge_ce harr horig hfind)
  · intro harr horig n id hwait
    exact congrArg Host.Outcome.next (doWriteAcknowledge_seq harr horig hwait)
  · intro q off harr hplace
    refine ⟨fun hact => congrArg Host.Outcome.next (doScratchWriteArrival_retention harr hplace hact), ?_⟩
    intro hact hinst hclean
    exact ⟨_, rfl, congrArg Host.Outcome.next (doScratchWriteArrival_clean harr hplace hact hinst hclean)⟩

end Sys2Proof.Machine

/-! PROOFS. Accesses of pan DRAM, its sumps and the granary at their controllers, and scrub reads (R19 to R24, R292 to R295,
R407, R408). -/

namespace Sys2Proof.Machine

/-! ### What counters leave of the memories -/

@[simp] theorem State.panRead_count (s : State) (unit n k q off m : Nat) :
    (s.count unit n k).panRead q off m = s.panRead q off m := rfl

@[simp] theorem State.panBad_count (s : State) (unit n k q off m : Nat) :
    (s.count unit n k).panBad q off m = s.panBad q off m := rfl

@[simp] theorem State.granBytes_countAccess (s : State) (unit n k i a m : Nat) :
    (s.countAccess unit n k i).granBytes a m = s.granBytes a m := by
  unfold State.countAccess
  split <;> rfl

@[simp] theorem State.granBad_countAccess (s : State) (unit n k i a m : Nat) :
    (s.countAccess unit n k i).granBad a m = s.granBad a m := by
  unfold State.countAccess
  split <;> rfl

@[simp] theorem State.granBase_take (s : State) (t : Token) (i : Nat) : (s.take t).granBase i = s.granBase i :=
  State.of_take (State.granBase · i) (fun _ _ _ => rfl) s t

@[simp] theorem State.granSize_take (s : State) (t : Token) (i : Nat) : (s.take t).granSize i = s.granSize i :=
  State.of_take (State.granSize · i) (fun _ _ _ => rfl) s t

/-! ### Pan DRAM -/

/-- A refused operation is an event of the switch only when it lies outside the regions that its issuer may use. -/
theorem State.panRefuse_eq (s : State) (use : Use) (q off n : Nat) (t : Token) :
    s.panRefuse use q off n t =
      if s.carvesAll (s.carveAllows t.inst use) q 225 off n = true then s.faultOrigin t
      else (s.discard (q / 11) t.addr.toNat).faultOrigin t := by
  unfold State.panRefuse
  exact apply_ite (State.faultOrigin · t) _ _ _

/-- The test of a controller, which asks for a refusal, as the condition under which it performs. -/
theorem ite_not_or_not {α : Type} (a b : Bool) (x y : α) :
    (if (!a || !b) = true then x else y) = if a = true ∧ b = true then y else x := by
  cases a <;> cases b <;> rfl

theorem doPanRead_served {s : State} {tok q off : Nat} {t : Token} (err : List Byte) (hplace : s.place t.addr.toNat = .pan q off)
    (hserves : s.panServes q = true) (harr : s.arriving tok [.readReq] = some t) :
    doPanRead tok err s =
      let u := s.take t
      let v := u.panDecodes q off t.n (fun _ => true) err
      if u.carvesAll (u.ctlAllows t.inst (u.basesOf t) .read) q 225 off t.n = true ∧ u.mapped q off t.n = true then
        (v.count (posUnit q 7) 0x04 t.n).deliverRead t (v.panRead q off t.n) (if v.panBad q off t.n = true then 7 else 0)
      else u.panRefuse .read q off t.n t := by
  simp only [doPanRead, harr, hplace, hserves, Bool.not_true, Bool.false_eq_true, if_false, State.panRead_count,
    State.panBad_count]
  exact ite_not_or_not ..

theorem doPanStore_served {s : State} {whole : Bool} {tok q off : Nat} {t : Token} (err : List Byte)
    (hplace : s.place t.addr.toNat = .pan q off) (hserves : s.panServes q = true) (harr : s.arriving tok [.write] = some t)
    (hwhole : whole = true ↔ off % 64 = 0 ∧ t.data.length % 64 = 0) :
    doPanStore whole tok err s =
      let u := s.take t
      let n := t.data.length
      let v := u.panDecodes q off n (fun b => !wholeBlock off n b) err
      if u.carvesAll (u.ctlAllows t.inst [] .write) q 225 off n = true ∧ u.mapped q off n = true then
        (((v.panWrite q off t.data).panHeal q off n).count (posUnit q 7) 0x05 n).acknowledge t
      else u.panRefuse .write q off n t := by
  have hmine : decide (off % 64 = 0 ∧ t.data.length % 64 = 0) = whole := by
    rw [Bool.eq_iff_iff, decide_eq_true_iff, hwhole]
  have hskip : ¬ (!s.panServes q || decide (decide (off % 64 = 0 ∧ t.data.length % 64 = 0) ≠ whole)) = true := by
    simp [hserves, hmine]
  simp only [doPanStore, harr, hplace]
  rw [if_neg hskip]
  exact ite_not_or_not ..

/-- Settles O29: a controller that serves performs what both its test and the map allow, and refuses the rest. -/
theorem panReadsAndWrites : Obligations.PanReadsAndWrites := by
  rintro s tok q off t _ err hplace hserves rfl
  constructor
  · rintro harr _ rfl
    rw [← State.panRefuse_eq]
    exact congrArg Host.Outcome.next (doPanRead_served err hplace hserves harr)
  · rintro _ i rfl harr hi _ rfl
    rw [← State.panRefuse_eq]
    obtain ⟨rfl, rfl, hoff, hlen⟩ | ⟨rfl, hpart⟩ := hi
    · exact congrArg Host.Outcome.next (doPanStore_served [] hplace hserves harr (by simp [hoff, hlen]))
    · exact congrArg Host.Outcome.next (doPanStore_served err hplace hserves harr (by simpa using hpart))

/-! ### Sumps, the granary and scrub reads -/

theorem doSumpAccumulate_allowed {s : State} {tok q off : Nat} {t : Token} (err : List Byte)
    (hplace : s.place t.addr.toNat = .pan q off) (hserves : s.panServes q = true) (harr : s.arriving tok [.accumulate] = some t)
    (hcarve : (s.take t).carvesAll ((s.take t).ctlAllows t.inst [] .acc) q 225 off (2 * t.data.length) = true)
    (hmap : (s.take t).mapped q off (2 * t.data.length) = true) :
    doSumpAccumulate tok err s =
      let ops := firstBlock off t.data
      let v := (s.take t).panDecodes q off (2 * ops.length) (fun _ => true) err
      let r := sumpRun (fun a => leNat (v.panRead q a 4)) off ops
      ((r.2.foldl (fun (s : State) a => s.event (posUnit q 7) 0x42 a (s.confid t.inst)) (v.panWrite q off r.1.flatten)).count
        (posUnit q 7) 0x06 ops.length).accRest t ops := by
  simp only [doSumpAccumulate, harr, hplace, hserves, hcarve, hmap, Bool.not_true, Bool.or_self, Bool.false_eq_true, if_false]

theorem State.accRest_done {t : Token} {done : List Byte} (h : t.data.length ≤ done.length) (s : State) :
    s.accRest t done = s.acknowledge t := if_pos h

theorem State.accRest_more {t : Token} {done : List Byte} (h : done.length < t.data.length) (s : State) :
    s.accRest t done = { s with net := ({ t with
      addr := t.addr + BitVec.ofNat 64 (2 * done.length), data := t.data.drop done.length, n := t.n - done.length,
      path := [] } : Token) :: s.net } := if_neg (Nat.not_le.2 h)

theorem doGranaryRead_served {s : State} {tok off : Nat} {t : Token} (err : List Byte)
    (harr : s.granArriving tok [.readReq] = some (t, off)) :
    doGranaryRead tok err s =
      let a := s.granBase t.inst + off
      let w := (s.take t).granDecodes a t.n (fun _ => true) err
      if s.granSize t.inst < off + t.n then (s.take t).faultOrigin t
      else (w.countAccess (granUnit (granCtlOf a)) 0x04 t.n t.inst).deliverRead t (w.granBytes a t.n)
        (if w.granBad a t.n = true then 8 else 0) := by
  simp only [doGranaryRead, harr, State.granSize_take, State.granBase_take, State.granBytes_countAccess,
    State.granBad_countAccess, gt_iff_lt]

theorem doGranaryWrite_served {s : State} {tok off : Nat} {t : Token} (err : List Byte)
    (harr : s.granArriving tok [.write] = some (t, off)) :
    doGranaryWrite tok err s =
      let a := s.granBase t.inst + off
      let w := (s.take t).granDecodes a t.data.length (fun b => !wholeBlock a t.data.length b) err
      if s.granSize t.inst < off + t.data.length then (s.take t).faultOrigin t
      else (((w.granStore a t.data).granHeal a t.data.length).countAccess (granUnit (granCtlOf a)) 0x05 t.data.length
        t.inst).acknowledge t := by
  simp only [doGranaryWrite, harr, State.granSize_take, State.granBase_take, gt_iff_lt]

theorem doGranaryAccumulate_served {s : State} {tok off : Nat} {t : Token} (err : List Byte)
    (harr : s.granArriving tok [.accumulate] = some (t, off)) :
    doGranaryAccumulate tok err s =
      let a := s.granBase t.inst + off
      let ops := firstBlock a t.data
      let w := (s.take t).granDecodes a (2 * ops.length) (fun _ => true) err
      let r := sumpRun (fun x => leNat (w.granBytes x 4)) a ops
      if s.granSize t.inst < off + 2 * t.data.length then (s.take t).faultOrigin t
      else ((r.2.foldl (fun (s : State) x => s.event (regionUnit (96 + granCtlOf a) 1) 0x42 x (s.confid t.inst))
        (w.granStore a r.1.flatten)).countAccess (regionUnit (96 + granCtlOf a) 1) 0x06 ops.length t.inst).accRest t ops := by
  simp only [doGranaryAccumulate, harr, State.granSize_take, State.granBase_take, gt_iff_lt]

/-- A block is new among the uncorrectable ones when it is marked and was not. -/
theorem ite_and_not {α : Type} (now was : Bool) (x y : α) :
    (if (now && !was) = true then x else y) = if now = true ∧ was = false then x else y := by
  cases now <;> cases was <;> rfl

theorem doScrubRead_granary {s : State} {block : Nat} (err : List Byte) (last : Bool) (hblock : block < 12884901888)
    (hwork : s.working = true) :
    doScrubRead true block err last s =
      let c := granCtlOf (block * 64)
      let t := s.granDecode (block * 64) err
      let u := if Tab.get false t.granUe block = true ∧ Tab.get false s.granUe block = false then
        t.event (granUnit c) 0x13 (block * 64) (t.granConfid (block * 64)) else t
      if last = true then u.updGran c fun m => { m with scrubPasses := holdAdd 0xFFFF m.scrubPasses 1 } else u := by
  have hgo : ¬(block ≥ 12884901888 ∨ s.working = false) := by simpa [hwork] using hblock
  simp only [doScrubRead, hgo, if_true, if_false, ite_and_not]

theorem doScrubRead_pan {s : State} {block : Nat} (err : List Byte) (last : Bool) (hpos : block * 64 / columnBytes < 880)
    (hret : s.fence.retired.contains (block * 64 / columnBytes) = false) (hwork : s.working = true) :
    doScrubRead false block err last s =
      let p := block * 64 / columnBytes
      let l := s.panLogical (block * 64)
      let t := s.panDecode (l / columnBytes) (l % columnBytes) err
      let u := if Tab.get false t.panUe block = true ∧ Tab.get false s.panUe block = false then
        t.event (posUnit p 7) 0x12 (panByteOf (block * 64) % columnBytes) (t.fieldConfid (p / 11)) else t
      if last = true then u.updPan p fun m => { m with scrubPasses := holdAdd 0xFFFF m.scrubPasses 1 } else u := by
  have hgo :
      ¬(880 ≤ block * 64 / columnBytes ∨ s.fence.retired.contains (block * 64 / columnBytes) = true ∨ s.working = false) := by
    rw [hret, hwork]
    simpa using hpos
  simp only [doScrubRead, hgo, if_false, Bool.false_eq_true, ite_and_not]

/-- Settles O32: each access by the case in which its controller performs it. -/
theorem sumpsGranaryAndScrub : Obligations.SumpsGranaryAndScrub := by
  refine ⟨?_, fun s t done => ⟨fun h => State.accRest_done h s, fun h => State.accRest_more h s⟩, ?_, ?_⟩
  · rintro s tok q off t _ _ err _ _ hplace hserves rfl harr hcarve hmap rfl rfl rfl
    exact congrArg Host.Outcome.next (doSumpAccumulate_allowed err hplace hserves harr hcarve hmap)
  · rintro s tok off _ t _ err rfl rfl
    refine ⟨?_, ?_, ?_⟩
    · rintro _ harr rfl
      exact congrArg Host.Outcome.next (doGranaryRead_served err harr)
    · rintro _ harr rfl
      exact congrArg Host.Outcome.next (doGranaryWrite_served err harr)
    · rintro _ _ _ harr rfl rfl rfl
      exact congrArg Host.Outcome.next (doGranaryAccumulate_served err harr)
  · intro s block err last hwork
    constructor
    · rintro hblock _ _ _ rfl rfl rfl
      exact congrArg Host.Outcome.next (doScrubRead_granary err last hblock hwork)
    · rintro _ _ _ _ rfl hpos hret rfl rfl rfl
      exact congrArg Host.Outcome.next (doScrubRead_pan err last hpos hret hwork)

end Sys2Proof.Machine

/-! PROOFS. Commands of the SEC registers, attestation, and the mailbox operations (R36, R362, R371 to R376, R391,
R394, R403). -/

namespace Sys2Proof.Machine

/-! ### SEC commands and reports -/

/-- A SEC command that BAR0 takes, while no other runs. -/
theorem State.secCmd_taken {s : State} {op : Nat} {v : BitVec 32} (hop : fld v 3 0 = op) (hbar : s.bar0 = true)
    (hwork : s.working = true) (hidle : s.sec.busy = false) (body : State → State) : s.secCmd op v body = body s := by
  simp [State.secCmd, hop, hbar, hwork, hidle]

theorem doAttest_taken {s : State} {port : Nat} {v : BitVec 32} (hop : fld v 3 0 = 1) (hbar : s.bar0 = true)
    (hwork : s.working = true) (hidle : s.sec.busy = false) :
    doAttest port v s =
      if s.sec.inLen.toNat ≠ 32 then s.secEnd secBadFormat
      else State.fetch { s with sec := { s.sec with running := some (1, port) } } port none (.sec 1) s.sec.inAddr.toNat 32 := by
  rw [doAttest, State.secRead, State.secCmd_taken hop hbar hwork hidle]

/-- The nonce of ATTEST has been read, or could not be. -/
theorem State.secArrived_attest (s : State) (port : Nat) (ok : Bool) (nonce : List Byte) :
    s.secArrived 1 port ok nonce = if ok = true then s.attestArrived port nonce else s.secEnd secHostRead := by
  cases ok <;> rfl

theorem doGetMeasurements_answered {s : State} {endpoint : Nat} (nonce : List Byte) (hend : endpoint < 3) (hbar : s.bar0 = true)
    (hwork : s.working = true) :
    doGetMeasurements endpoint nonce s =
      let r := s.report s.allInsts false nonce
      { s with sec := { s.sec with measurements := s.sec.measurements ++
        [{ endpoint := endpoint, index := 0x80, report := r,
           sig := Config.identitySign (Config.sha512 (padTo 32 nonce ++ r)) }] } } := by
  have hgo : ¬(3 ≤ endpoint ∨ s.bar0 = false ∨ s.working = false) := by simpa [hbar, hwork] using hend
  rw [doGetMeasurements, if_neg hgo]

/-! ### Mailbox operations -/

theorem doStageIn_taken {s : State} {port i : Nat} {ide : Bool} {msg : List Byte} (h : s.fromMailbox port i ide 0x20 msg) :
    doStageIn port i ide msg s =
      let t := s.debited i
      if t.stageInOk i (leAt msg 0x18 8) (leAt msg 0x10 4) = false then t.reply i stStageRange (msgTag msg) []
      else (t.updInst i fun x => { x with stageIn := x.stageIn ++
          [{ id := t.nextFetch, tag := msgTag msg, dst := BitVec.ofNat 64 (leAt msg 0x18 8),
             len := leAt msg 0x10 4, got := none }] }).fetch
        port (some i) (.stage i) (leAt msg 8 8) (leAt msg 0x10 4) := by
  rw [doStageIn, State.message_taken h]
  simp only [Bool.not_eq_true']

/-- A code that no operation has is answered as such. -/
theorem doUnknownOperation_unknown {s : State} {port i : Nat} {ide : Bool} {msg : List Byte}
    (h : s.fromMailbox port i ide (leAt msg 0 1) msg) (hcode : leAt msg 0 1 ∉ knownCodes) :
    doUnknownOperation port i ide msg s = (s.debited i).reply i stUnknownOp (msgTag msg) [] := by
  have hno : ¬ knownCodes.contains (leAt msg 0 1) = true := by simpa using hcode
  rw [doUnknownOperation, if_neg hno, State.message_taken h]

theorem doStageInComplete_arrived {s : State} {i : Nat} {q : StageIn} {ok : Bool} {data : List Byte} (hwork : s.working = true)
    (hfind : (s.inst i).stageIn.find? (fun q => q.got.isSome) = some q) (hgot : q.got = some (ok, data)) :
    doStageInComplete i s =
      let t := s.updInst i fun x => { x with stageIn := x.stageIn.erase q }
      if ok = true then (t.memWrite i q.dst.toNat (padTo q.len data)).reply i 0 q.tag [] else t.reply i stHostRead q.tag [] := by
  simp only [doStageInComplete, hfind, hwork, hgot, Option.getD_some, Bool.not_true, Bool.false_eq_true, if_false]

/-- A write of a mailbox page that its port, its state and its IDE stream admit. -/
theorem State.pageWrite_taken {s : State} {port i : Nat} {ide : Bool} (hbar : s.bar0All = true) (hwork : s.working = true)
    (hport : port < 2) (hpage : s.pageOn port i = true) (herr : (s.inst i).tdi ≠ 3) (hide : (s.inst i).tdi = 2 → ide = true)
    (body : State → State) : s.pageWrite port i ide body = body s := by
  have hgo : ¬(s.bar0All = false ∨ s.working = false ∨ 2 ≤ port) := by simpa [hbar, hwork] using hport
  have hrun : ¬((s.inst i).tdi = 2 ∧ ide = false) := fun h => by simp [hide h.1] at h
  rw [State.pageWrite, if_neg hgo, if_neg (by simp [hpage]), if_neg hrun, if_neg herr]

theorem doConsumedWrite_taken {s : State} {port i : Nat} {ide : Bool} (v : BitVec 32) (hbar : s.bar0All = true)
    (hwork : s.working = true) (hport : port < 2) (hpage : s.pageOn port i = true) (herr : (s.inst i).tdi ≠ 3)
    (hide : (s.inst i).tdi = 2 → ide = true) (hstate : (s.inst i).state = .active ∨ (s.inst i).state = .adopting) :
    doConsumedWrite port i ide v s = (s.updInst i fun x => { x with consumed := v.toNat }).drainMail i 32 := by
  rw [doConsumedWrite, State.pageWrite_taken hbar hwork hport hpage herr hide, if_neg]
  rintro ⟨hactive, hadopting⟩
  exact hstate.elim hactive hadopting

/-- Settles O51: each operation under the conditions that its command asks for. -/
theorem reportsAndMailbox : Obligations.ReportsAndMailbox := by
  intro s hwork
  refine ⟨?_, ?_, fun _ _ => rfl, ?_, fun _ _ _ => rfl, ?_, ?_, ?_⟩
  · intro port v hop hbar hidle
    exact congrArg Host.Outcome.next (doAttest_taken hop hbar hwork hidle)
  · intro port ok nonce r hr
    rw [hr, s.secArrived_attest port ok nonce, State.attestArrived]
  · intro endpoint nonce r hend hbar hr
    rw [hr]
    exact congrArg Host.Outcome.next (doGetMeasurements_answered nonce hend hbar hwork)
  · rintro port i ide msg r _ rfl
    refine ⟨?_, fun h => congrArg Host.Outcome.next (doStageIn_taken h), fun h hcode => ?_⟩
    · intro h hr
      rw [hr]
      exact congrArg Host.Outcome.next (State.message_taken h _)
    · exact congrArg Host.Outcome.next (doUnknownOperation_unknown h hcode)
  · rintro i q ok data _ hfind hgot rfl
    exact congrArg Host.Outcome.next (doStageInComplete_arrived hwork hfind hgot)
  · intro port i ide v hbar hport hpage herr hide hstate
    exact congrArg Host.Outcome.next (doConsumedWrite_taken v hbar hwork hport hpage herr hide hstate)

end Sys2Proof.Machine

/-! PROOFS. The NVS: commands, the end of a STORE and of an image's read (R59, R62 to R67, R73, R74). -/

namespace Sys2Proof.Machine

/-! ### Memories -/

/-- The byte of a written range at an offset is the byte written there. -/
theorem Memory.byte_write_inside {m : List (Nat × Byte)} {a i : Nat} {bs : List Byte} (h : Memory.wf m = true)
    (hi : i < bs.length) : Memory.byte (Memory.write m a bs) (a + i) = bs.getD i 0 := by
  induction bs generalizing m a i with
  | nil => simp at hi
  | cons b bs ih =>
    cases i with
    | zero =>
      calc Memory.byte (Memory.write (Tab.put 0 a b m) (a + 1) bs) a
          = Memory.byte (Tab.put 0 a b m) a := Memory.byte_write_outside (Memory.wf_put h) (.inl (Nat.lt_succ_self a))
        _ = b := Tab.get_put_self (Memory.sorted_of_wf h)
    | succ i =>
      have hnext := ih (a := a + 1) (Memory.wf_put (a := a) (b := b) h) (Nat.lt_of_succ_lt_succ hi)
      rw [Nat.add_assoc, Nat.add_comm 1 i] at hnext
      simpa [Memory.write] using hnext

/-- A range that is zeroed and then written from its start holds what was written, and zero past it. -/
theorem Memory.byte_write_zero_inside {m : List (Nat × Byte)} {a n i : Nat} {bs : List Byte} (h : Memory.wf m = true)
    (hi : i < n) : Memory.byte (Memory.write (Memory.zero m a n) a bs) (a + i) = bs.getD i 0 := by
  have hzero : Memory.wf (Memory.zero m a n) = true := Memory.wf_zero h
  by_cases hlen : i < bs.length
  · exact Memory.byte_write_inside hzero hlen
  · rw [Memory.byte_write_outside hzero (.inr (by omega)), Memory.byte_zero h, if_pos (by omega), List.getD_eq_default _ _ (by omega)]

/-- Nothing outside that range changes, when what is written fits it. -/
theorem Memory.byte_write_zero_outside {m : List (Nat × Byte)} {a n x : Nat} {bs : List Byte} (h : Memory.wf m = true)
    (hfit : bs.length ≤ n) (hx : x < a ∨ a + n ≤ x) :
    Memory.byte (Memory.write (Memory.zero m a n) a bs) x = Memory.byte m x := by
  rw [Memory.byte_write_outside (Memory.wf_zero h) (by omega), Memory.byte_zero h, if_neg (by omega)]

/-! ### Write cycles (R66) -/

/-- What does not depend on the counters and rings is after an event as it was. -/
theorem State.of_event {α : Type} (f : State → α) (hf : ∀ (s : State) obs, f { s with obs := obs } = f s)
    (s : State) (u c d : Nat) (conf : Bool) : f (s.event u c d conf) = f s :=
  calc f (s.event u c d conf) = f { s.event u c d conf with obs := s.obs } := (hf _ _).symm
    _ = f s := by rw [s.event_frame]

@[simp] theorem State.event_nvs (s : State) (u c d : Nat) (conf : Bool) : (s.event u c d conf).nvs = s.nvs :=
  State.of_event State.nvs (fun _ _ => rfl) s u c d conf

/-- A write cycle changes the count of its area, and may be recorded. -/
theorem State.wear_frame (s : State) (a : Nat × Nat) : { s.wear a with obs := s.obs, nvs := s.nvs } = s := by
  unfold State.wear
  dsimp only
  split
  · exact congrArg (fun t => { t with nvs := s.nvs }) (State.event_frame { s with nvs := _ } ..)
  · rfl

/-- The cycle of a slot: that of slot A or of slot B. -/
def State.slotCycle (s : State) (slot : Nat) : Nat × Nat := if slot = 0 then (0, s.nvs.cycSlotA) else (1, s.nvs.cycSlotB)

theorem State.wear_slotCycle (s : State) (slot : Nat) :
    (s.wear (s.slotCycle slot)).nvs =
      { s.nvs with
        cycSlotA := if slot = 0 then s.nvs.cycSlotA + 1 else s.nvs.cycSlotA
        cycSlotB := if slot = 0 then s.nvs.cycSlotB else s.nvs.cycSlotB + 1 } := by
  unfold State.slotCycle State.wear
  dsimp only
  rw [apply_ite State.nvs, State.event_nvs, ite_self]
  split <;> rfl

/-! ### The end of a STORE (R65, R66) -/

theorem State.storeAreas_images {s : State} {o : NvsOp} (hcal : o.calibration = false) (hfence : o.fenceMap = false)
    (hkey : s.keyPending = false) (himgs : s.storeImages o.op ≠ []) : s.storeAreas o = [s.slotCycle o.slot] := by
  have hne : (s.storeImages o.op).isEmpty = false := by simpa using himgs
  simp only [State.storeAreas, State.slotCycle, hcal, hfence, hkey, hne, Bool.false_eq_true, if_false, List.append_nil]
  split <;> rfl

/-- The NVS while a STORE writes: the slot zero but for the images. -/
def State.slotWritten (s : State) (o : NvsOp) : Nvs :=
  let base := o.slot * 0x300000
  { s.nvs with mem := Memory.write (Memory.zero s.nvs.mem base 0x300000) base (packImages (s.storeImages o.op)) }

/-- With no operator key to store, none is, and none is marked. -/
theorem State.stored_of_not_keyPending {s : State} (hkey : s.keyPending = false) {k : OpKey} (hk : s.sec.opKey = some k) :
    k.stored = true := by
  simpa [State.keyPending, hk] using hkey

theorem State.opKey_markStored {s : State} (hkey : s.keyPending = false) :
    (s.sec.opKey.map fun k => { k with stored := true }) = s.sec.opKey := by
  cases hk : s.sec.opKey with
  | none => rfl
  | some k => rw [Option.map_some, ← State.stored_of_not_keyPending hkey hk]

theorem doNvsWriteComplete_images {s : State} {o : NvsOp} (hwork : s.working = true) (hop : s.nvs.op = some o)
    (hstore : o.op = 3 ∨ o.op = 4) (hcal : o.calibration = false) (hfence : o.fenceMap = false) (hkey : s.keyPending = false)
    (himgs : s.storeImages o.op ≠ []) :
    doNvsWriteComplete s = (State.wear { s with nvs := s.slotWritten o } (s.slotCycle o.slot)).nvsEnd resOk := by
  have hgo : ¬((o.op ≠ 3 ∧ o.op ≠ 4) ∨ s.working = false) := by
    rintro (h | h)
    · omega
    · simp [hwork] at h
  have hne : (s.storeImages o.op).isEmpty = false := by simpa using himgs
  unfold doNvsWriteComplete
  split
  · next hnone => simp [hnone] at hop
  · next o' hop' =>
    obtain rfl : o' = o := Option.some.inj (hop'.symm.trans hop)
    rw [if_neg hgo, State.storeAreas_images hcal hfence hkey himgs, State.opKey_markStored hkey]
    simp only [hcal, hfence, hne, Bool.false_eq_true, if_false, List.foldl_cons, List.foldl_nil]
    split
    · next k hk => rw [if_pos (State.stored_of_not_keyPending hkey hk)]; rfl
    · rfl

/-- Settles O34: the slot is zeroed and then written, and the one cycle counted is that of the slot. -/
theorem nvsStoreWritesSlot : Obligations.NvsStoreWritesSlot := by
  intro s o hwork hop hstore hcal hfence hkey hslot himgs hfit hwf
  have hdone := doNvsWriteComplete_images hwork hop hstore hcal hfence hkey himgs
  let u : State := { s with nvs := s.slotWritten o }
  have hstored : (u.wear (s.slotCycle o.slot)).stored = u.stored := State.stored_wear ..
  have hframe := u.wear_frame (s.slotCycle o.slot)
  have hcyc := u.wear_slotCycle o.slot
  have hmem : (u.wear (s.slotCycle o.slot)).nvs.mem = (s.slotWritten o).mem := congrArg Stored.nvs hstored
  refine ⟨_, congrArg Host.Outcome.next hdone, rfl, rfl, fun i hi => ?_, fun x hx => ?_, ?_, ?_, ?_, ?_, ?_, ?_⟩
  · exact (congrArg (Memory.byte · _) hmem).trans (Memory.byte_write_zero_inside hwf hi)
  · exact (congrArg (Memory.byte · _) hmem).trans (Memory.byte_write_zero_outside hwf hfit hx)
  · exact congrArg Nvs.cycSlotA hcyc
  · exact congrArg Nvs.cycSlotB hcyc
  · exact congrArg Stored.pan hstored
  · exact congrArg Stored.gran hstored
  · exact (congrArg State.zen hframe : _ = u.zen)
  · exact (congrArg State.cores hframe : _ = u.cores)

/-! ### Commands (R62, R65 to R67) -/

section commands
variable {s : State} {o : NvsOp} {op port : Nat} {v : BitVec 32}

theorem State.nvsStart_busy (hbar : s.bar0 = true) (hwork : s.working = true) (hbusy : s.nvs.op.isSome = true) :
    s.nvsStart o = { s with nvs := { s.nvs with refused := true } } := by
  simp [State.nvsStart, hbar, hwork, hbusy]

theorem State.nvsStart_idle (hbar : s.bar0 = true) (hwork : s.working = true) (hidle : s.nvs.op = none) :
    s.nvsStart o = { s with nvs := { s.nvs with op := some o } } := by
  simp [State.nvsStart, hbar, hwork, hidle]

theorem doNvsRead_busy (hbar : s.bar0 = true) (hwork : s.working = true) (hop : fld v 3 0 = op) (hbusy : s.nvs.op.isSome = true) :
    doNvsRead op port v s = { s with nvs := { s.nvs with refused := true } } := by
  have hno : s.nvs.op.isNone = false := by simpa [← Option.not_isSome] using hbusy
  simp only [doNvsRead, hop, ne_eq, not_true_eq_false, if_false, State.nvsStart_busy hbar hwork hbusy, hno, Bool.false_and,
    Bool.false_eq_true]

theorem doNvsRead_idle (hbar : s.bar0 = true) (hwork : s.working = true) (hop : fld v 3 0 = op) (hidle : s.nvs.op = none) :
    doNvsRead op port v s =
      let o : NvsOp := { op := op, slot := 0, calibration := false, fenceMap := false, port := port, addr := s.nvs.srcAddr.toNat,
                         len := s.nvs.srcLen.toNat }
      State.fetch { s with nvs := { s.nvs with op := some o } } port none .image s.nvs.srcAddr.toNat s.nvs.srcLen.toNat := by
  have hnone : s.nvs.op.isNone = true := by rw [hidle]; rfl
  simp only [doNvsRead, hop, ne_eq, not_true_eq_false, if_false, State.nvsStart_idle hbar hwork hidle, hnone, Option.isSome_some,
    Bool.true_and, if_true]

theorem doStore_busy (hbar : s.bar0 = true) (hwork : s.working = true) (hop : fld v 3 0 = op) (hbusy : s.nvs.op.isSome = true) :
    doStore op port v s = { s with nvs := { s.nvs with refused := true } } := by
  rw [doStore, if_neg (not_not.2 hop)]
  dsimp only
  rw [if_pos (.inr hbusy), State.nvsStart_busy hbar hwork hbusy]

/-- A STORE that starts ends at once, when there is nothing staged, no room or no cycle left, and else prepares its slot. -/
theorem doStore_idle (hbar : s.bar0 = true) (hwork : s.working = true) (hop : fld v 3 0 = op) (hidle : s.nvs.op = none)
    (ho : o = { op := op, slot := fld v 4 4, calibration := bit v.toNat 8, fenceMap := bit v.toNat 9, port := port, addr := 0, len := 0 }) :
    doStore op port v s =
      if op = 4 ∧ s.nvs.staged = none then { s with nvs := { s.nvs with op := none, result := resNothingStaged } }
      else if 0x300000 < (packImages (s.storeImages op)).length then { s with nvs := { s.nvs with op := none, result := resNoSpace } }
      else if ∃ a ∈ s.storeAreas o, 10000 ≤ a.2 then { s with nvs := { s.nvs with op := none, result := resWorn } }
      else if s.storeImages op = [] then { s with nvs := { s.nvs with op := some o } }
      else { s with nvs := { s.nvs with op := some o, mem := Memory.zero s.nvs.mem (o.slot * 0x300000) 64 } } := by
  rw [doStore, if_neg (not_not.2 hop), ← ho]
  dsimp only
  rw [State.nvsStart_idle hbar hwork hidle, if_neg (by simp [hidle])]
  simp only [State.nvsEnd, Option.isNone_iff_eq_none, List.any_eq_true, decide_eq_true_eq, List.isEmpty_iff, gt_iff_lt]

end commands

/-- The four commands: the first two read an image, the others store. -/
theorem exec_nvsCommand {s : State} {port op : Nat} {v : BitVec 32} {i : Instr}
    (hi : (op, i) ∈ [(1, Instr.loadFull port v), (2, .applyPartial port v), (3, .storeEffective port v), (4, .storeStaged port v)]) :
    exec i s = .next (if op ≤ 2 then doNvsRead op port v s else doStore op port v s) := by
  simp only [List.mem_cons, Prod.mk.injEq, List.not_mem_nil, or_false] at hi
  obtain ⟨rfl, rfl⟩ | ⟨rfl, rfl⟩ | ⟨rfl, rfl⟩ | ⟨rfl, rfl⟩ := hi <;> rfl

/-- Settles O33: what each command does while an operation runs, and what it does when none does. -/
theorem nvsCommandsStart : Obligations.NvsCommandsStart := by
  intro s port v op i hbar hwork hop hi
  rw [exec_nvsCommand hi]
  refine ⟨fun hbusy => ?busy, fun hidle hread => ?read, fun hidle h4 hstaged => ?unstaged, fun o hidle hstore hstaged ho => ?store⟩
  case busy => rw [doNvsRead_busy hbar hwork hop hbusy, doStore_busy hbar hwork hop hbusy, ite_self]
  case read => rw [if_pos hread, doNvsRead_idle hbar hwork hop hidle]
  case unstaged => rw [if_neg (by omega), doStore_idle hbar hwork hop hidle rfl, if_pos ⟨h4, hstaged⟩]
  case store => rw [if_neg (by omega), doStore_idle hbar hwork hop hidle ho, if_neg fun h => hstaged h.1 h.2]

/-! ### The end of an image's read (R63, R64, R67, R73, R74) -/

/-- The operation whose read of the host has ended, with what the host gave. -/
theorem State.readDone {s : State} {o : NvsOp} {g : Bool × List Byte} (hop : s.nvs.op = some o) (hgot : o.got = some g) :
    (s.nvs.op.bind fun o => o.got.map fun g => (o, g)) = some (o, g) := by
  rw [hop, Option.bind_some, hgot, Option.map_some]

/-- Settles O35: the checks of each command in turn, once the read has ended. -/
theorem imagesAreChecked : Obligations.ImagesAreChecked := by
  intro s o bytes b hop hlayout hwork hb hread
  have hrun : ¬((o.op ≠ 1 ∧ o.op ≠ 2) ∨ s.nvs.relayout.isSome ∨ s.working = false) := by
    rintro (h | h | h)
    · omega
    · simp [hlayout] at h
    · simp [hwork] at h
  refine ⟨fun hgot => congrArg Host.Outcome.next ?failed, fun r hgot hfull hr => congrArg Host.Outcome.next ?full,
    fun r hgot hpart heff hr => congrArg Host.Outcome.next ?parts⟩
  all_goals
    simp only [doImageReadComplete, State.readDone hop hgot]
    rw [if_neg hrun]
  case failed => rfl
  case full =>
    subst hr
    simp only [hfull, ← hb, if_true, Bool.not_true, Bool.false_eq_true, if_false, Bool.and_eq_true, List.isEmpty_iff,
      State.nvsEnd, State.applyFull, State.zeroAll]
  case parts =>
    have hne : s.nvs.full.isEmpty = false := by simpa using heff
    subst hr
    simp only [hpart, ← hb, hne, show (2 : Nat) ≠ 1 by decide, Bool.not_true, Bool.false_eq_true, if_false, Bool.and_eq_true,
      List.any_eq_true, decide_eq_true_eq, State.nvsEnd]

end Sys2Proof.Machine

/-! PROOFS. Start-up, stage by stage (R60, R70 to R72, R379, R380). -/

namespace Sys2Proof.Machine

/-! ### What the work of a stage leaves alone -/

/-- A loop each round of which leaves a part of the state alone. -/
theorem State.foldl_keeps {α β : Type} {f : State → β} {g : State → α → State} (hg : ∀ s x, f (g s x) = f s) (l : List α)
    (s : State) : f (l.foldl g s) = f s := by
  induction l generalizing s with
  | nil => rfl
  | cons x l ih => rw [List.foldl_cons, ih, hg]

theorem State.nvsMem_of_stored {s t : State} (h : t.stored = s.stored) : t.nvs.mem = s.nvs.mem := congrArg Stored.nvs h

theorem State.nvsMem_retireColumn (s : State) (p : Nat) : (s.retireColumn p).nvs.mem = s.nvs.mem := by
  unfold State.retireColumn
  split
  · rfl
  · exact State.foldl_keeps (f := fun s => s.nvs.mem) (fun s x => State.nvsMem_of_stored (State.stored_remapGranule s p x)) _ _

@[simp] theorem State.startLinks_nvs (s : State) : s.startLinks.nvs = s.nvs := by
  refine State.foldl_keeps (f := State.nvs) ?_ _ s
  exact fun _ _ => rfl

/-! ### The firmware (R378, R379) -/

theorem State.bootCopy_eq_none {s : State} {bad : List Nat} {k : Nat} :
    s.bootCopy bad k = none ↔ s.copyPasses bad k (Tab.get 0 s.sec.active k) = false ∧
      s.copyPasses bad k (1 - Tab.get 0 s.sec.active k) = false := by
  unfold State.bootCopy
  dsimp only
  split_ifs <;> simp_all

/-- The firmware is refused exactly when a component has no copy that passes. -/
theorem State.acceptFirmware_eq_none {s : State} {bad : List Nat} :
    s.acceptFirmware bad = none ↔ ∃ k ∈ [0, 1, 2], s.bootCopy bad k = none := by
  cases h0 : s.bootCopy bad 0 <;> cases h1 : s.bootCopy bad 1 <;> cases h2 : s.bootCopy bad 2 <;>
    simp [State.acceptFirmware, h0, h1, h2]

/-! ### A stage that passed -/

/-- What a stage of start-up does when it passes (R70); nothing when the firmware is refused. -/
def State.stageWork (s : State) (bad values : List Nat) : Nat → Option State
  | 0 => some (State.railsGood { s with
      tb := { s.tb with count := 0, running := true, locked := true }, mgt := { s.mgt with charging := false } })
  | 2 => (s.acceptFirmware bad).map State.selectSlot
  | 4 => some s.applyBoot
  | 5 => some { s.marchAll bad values with tb := { s.tb with skew := Config.skewNs % 5 } }
  | 6 => some (bad.foldl State.retireColumn s).zeroAll
  | 7 => some (s.applyRates (List.range 88) values).firstFloors
  | 8 => some s.startLinks
  | _ => some s

/-- Start-up stands at a stage. -/
def State.atStage (s : State) (n : Nat) : State := { s with mgt := { s.mgt with stage := n } }

/-- Start-up moves on from a stage; after the last one the module is READY, or manager-only when no slot was valid (boot 2). -/
def State.moveOn (s : State) (st boot : Nat) : State :=
  if st = 8 then (if boot = 2 then s.atStage 0xA else (s.atStage 9).alert 0) else s.atStage (st + 1)

theorem State.moveOn_stage (s : State) (st boot : Nat) :
    (s.moveOn st boot).mgt.stage = if st = 8 then (if boot = 2 then 0xA else 9) else st + 1 := by
  unfold State.moveOn
  split_ifs <;> rfl

theorem State.moveOn_tb (s : State) (st boot : Nat) : (s.moveOn st boot).tb = s.tb := by
  unfold State.moveOn
  split_ifs <;> rfl

theorem State.stored_moveOn (s : State) (st boot : Nat) : (s.moveOn st boot).stored = s.stored := by
  unfold State.moveOn
  split_ifs <;> rfl

/-- A stage of start-up is under way in a module that works. -/
structure State.Starting (s : State) : Prop where
  powered : s.mgt.powered = true
  running : s.mgt.halted = false
  working : s.working = true
  stage : s.mgt.stage < 9

theorem State.stageWork_eq_none {s : State} {bad values : List Nat} {n : Nat} :
    s.stageWork bad values n = none ↔ n = 2 ∧ s.acceptFirmware bad = none := by
  unfold State.stageWork
  split <;> simp_all

/-- No stage writes the NVS. -/
theorem State.nvsMem_stageWork {s u : State} {bad values : List Nat} {n : Nat} (h : s.stageWork bad values n = some u) :
    u.nvs.mem = s.nvs.mem := by
  match n, h with
  | 2, h =>
    obtain ⟨v, hv, rfl⟩ := Option.map_eq_some_iff.1 h
    exact (State.nvsMem_of_stored v.stored_selectSlot).trans (State.nvsMem_of_stored (State.stored_acceptFirmware hv))
  | 0, h => obtain rfl := Option.some.inj h; rfl
  | 4, h => obtain rfl := Option.some.inj h; exact State.nvsMem_of_stored s.stored_applyBoot
  | 5, h => obtain rfl := Option.some.inj h; exact State.nvsMem_of_stored (s.stored_marchAll bad values)
  | 6, h => obtain rfl := Option.some.inj h; exact State.foldl_keeps (f := fun s => s.nvs.mem) State.nvsMem_retireColumn bad s
  | 7, h => obtain rfl := Option.some.inj h; exact State.nvsMem_of_stored (by simp)
  | 8, h => obtain rfl := Option.some.inj h; exact congrArg Nvs.mem s.startLinks_nvs
  | 1, h | 3, h | _ + 9, h => obtain rfl := Option.some.inj h; rfl

section stages
variable {s : State} (h : s.Starting) (bad values : List Nat)
include h

theorem State.Starting.goes : ¬(!s.mgt.powered || s.mgt.halted || !s.working || decide (9 ≤ s.mgt.stage)) = true := by
  simp [h.powered, h.running, h.working, Nat.not_le.2 h.stage]

theorem doStartupStageComplete_failed : doStartupStageComplete false bad values s = s.halt := by
  rw [doStartupStageComplete, if_neg h.goes]
  rfl

theorem doStartupStageComplete_refused (hfw : s.stageWork bad values s.mgt.stage = none) :
    doStartupStageComplete true bad values s = s.halt := by
  obtain ⟨hstage, hfw⟩ := State.stageWork_eq_none.1 hfw
  rw [doStartupStageComplete, if_neg h.goes]
  simp [hstage, hfw]

theorem doStartupStageComplete_passed {u : State} (hu : s.stageWork bad values s.mgt.stage = some u) :
    doStartupStageComplete true bad values s = u.moveOn s.mgt.stage s.nvs.boot := by
  rw [doStartupStageComplete, if_neg h.goes]
  have hlast := h.stage
  obtain hfirmware | hbefore | hafter : s.mgt.stage = 2 ∨ s.mgt.stage < 2 ∨ 2 < s.mgt.stage := by omega
  · rw [hfirmware] at hu
    obtain ⟨v, hv, rfl⟩ := Option.map_eq_some_iff.1 hu
    simp [hfirmware, hv, State.moveOn, State.atStage]
  · interval_cases hn : s.mgt.stage <;> obtain rfl := Option.some.inj hu <;> simp [State.moveOn, State.atStage]
  · interval_cases hn : s.mgt.stage <;> obtain rfl := Option.some.inj hu <;> simp [State.moveOn, State.atStage]

end stages

/-- Settles O38: each stage by its work, which leaves the NVS alone. -/
theorem startUpStages : Obligations.StartUpStages := by
  rintro s h bad values hpow hrun hwork hstage rfl
  have hs : s.Starting := ⟨hpow, hrun, hwork, hstage⟩
  refine ⟨congrArg Host.Outcome.next (doStartupStageComplete_failed hs bad values), fun h2 hfw => ?refused, fun hfw => ?passed⟩
  case refused =>
    have hnone : s.acceptFirmware bad = none := State.acceptFirmware_eq_none.2 (by simpa only [State.bootCopy_eq_none] using hfw)
    exact congrArg Host.Outcome.next (doStartupStageComplete_refused hs bad values (State.stageWork_eq_none.2 ⟨h2, hnone⟩))
  case passed =>
    obtain ⟨u, hu⟩ : ∃ u, s.stageWork bad values s.mgt.stage = some u := by
      refine Option.ne_none_iff_exists'.1 fun hnone => ?_
      obtain ⟨h2, hnone⟩ := State.stageWork_eq_none.1 hnone
      obtain ⟨k, hk, hcopy⟩ := State.acceptFirmware_eq_none.1 hnone
      obtain ⟨hactive, hother⟩ := State.bootCopy_eq_none.1 hcopy
      simpa [hactive, hother] using hfw h2 k hk
    refine ⟨_, congrArg Host.Outcome.next (doStartupStageComplete_passed hs bad values hu), u.moveOn_stage .., fun h0 => ?_,
      fun h6 => ?_, ?_⟩
    · rw [u.moveOn_tb]
      rw [h0] at hu
      obtain rfl := Option.some.inj hu
      exact ⟨rfl, rfl⟩
    · have hstored := u.stored_moveOn s.mgt.stage s.nvs.boot
      rw [h6] at hu
      obtain rfl := Option.some.inj hu
      exact ⟨congrArg Stored.pan hstored, congrArg Stored.gran hstored⟩
    · exact (State.nvsMem_of_stored (u.stored_moveOn ..)).trans (State.nvsMem_stageWork hu)

end Sys2Proof.Machine

/-! PROOFS. The host ports' protocols, completions and page reads (R71, R105, R357, R358, R361, R363, R377, R388). -/

namespace Sys2Proof.Machine

/-! ### Inside and outside a secured session (R357, R363, R388) -/

section session
variable {s : State} {port i : Nat}

theorem doTdispMessage_unsecured (tdi : Nat) (hout : (s.port port).spdm = none) : doTdispMessage port i tdi s = s := by
  simp [doTdispMessage, hout]

theorem doTdispMessage_secured (tdi : Nat) (hwork : s.working = true) (hpage : s.pageOn port i = true)
    (hin : (s.port port).spdm.isSome = true) :
    doTdispMessage port i tdi s =
      if ((s.inst i).tdi, tdi) ∈ [(0, 1), (1, 2), (1, 0), (2, 0)] then s.updInst i fun x => { x with tdi := tdi } else s := by
  have hsome : (s.port port).spdm.isNone = false := by rw [← Option.not_isSome, hin]; rfl
  simp only [doTdispMessage, hwork, hpage, hsome, Bool.not_true, Bool.or_self, Bool.false_eq_true, if_false, List.mem_cons,
    Prod.mk.injEq, List.not_mem_nil, or_false]

theorem doKeyProg_unsecured (key : List Byte) (hout : (s.port port).spdm = none) : doKeyProg port i key s = s := by
  simp [doKeyProg, hout]

theorem doKeyProg_secured (key : List Byte) (hwork : s.working = true) (hport : port < 2)
    (hin : (s.port port).spdm.isSome = true) :
    doKeyProg port i key s =
      if i = 64 then s.updPort port fun p => { p with linkIde := some key }
      else if s.pageOn port i = true then s.updInst i fun x => { x with ideKey := some key }
      else s := by
  have hgo : ¬(2 ≤ port ∨ (s.port port).spdm.isNone = true ∨ s.working = false) := by
    rw [← Option.not_isSome, hin, hwork]
    simpa using hport
  rw [doKeyProg, if_neg hgo]

end session

/-! ### Sessions, invalidations and link training (R71, R358, R377, R388) -/

section ports
variable {s : State} {endpoint port : Nat}

theorem doSpdmSecuredSession_ends (hwork : s.working = true) (hbar : s.bar0 = true) (hend : endpoint < 3) :
    doSpdmSecuredSession endpoint false s =
      if endpoint = 2 then { s with sec := { s.sec with sideband := none } }
      else s.updPort endpoint fun p => { p with spdm := none } := by
  have hgo : ¬(3 ≤ endpoint ∨ s.bar0 = false ∨ s.working = false ∨ (false = true ∧ s.sec.rngFail = true)) := by
    simpa [hwork, hbar] using hend
  rw [doSpdmSecuredSession, if_neg hgo]
  rfl

theorem doSpdmSecuredSession_begins (hwork : s.working = true) (hbar : s.bar0 = true) (hend : endpoint < 3)
    (hrng : s.sec.rngFail = false) :
    doSpdmSecuredSession endpoint true s =
      if endpoint = 2 then { s.drawn 1 with sec := { (s.drawn 1).sec with sideband := some s.sec.draws } }
      else (s.drawn 1).updPort endpoint fun p => { p with spdm := some s.sec.draws } := by
  have hgo : ¬(3 ≤ endpoint ∨ s.bar0 = false ∨ s.working = false ∨ (true = true ∧ s.sec.rngFail = true)) := by
    simpa [hwork, hbar, hrng] using hend
  rw [doSpdmSecuredSession, if_neg hgo]
  rfl

theorem doAtsInvalidation_taken (hwork : s.working = true) (hport : port < 2) :
    doAtsInvalidation port s = s.updPort port fun p => ({ p with atsPending := p.atsPending ++ [p.nextReq] } : Port).atsSettle := by
  rw [doAtsInvalidation, if_neg (by simpa [hwork] using hport)]

theorem doHostLinkTrainingComplete_trained (speed width : Nat) (flit : Bool) (hport : port < 2)
    (htrain : (s.port port).training = true) :
    doHostLinkTrainingComplete port speed width flit s =
      s.updPort port fun p => { p with training := false, speed := speed, width := width, flit := flit } := by
  rw [doHostLinkTrainingComplete, if_neg (by simpa [htrain] using hport)]

end ports

/-! ### Completions (R105, R357, R358) -/

section completion
variable {s : State} {port id : Nat} {ok : Bool} {data : List Byte} {r : HostReq}

theorem doHostCompletion_held (hreq : (s.port port).reqs.find? (fun r => r.id = id) = some r) (hheld : s.held (88 + port) = true) :
    doHostCompletion port id ok data s = s := by
  simp [doHostCompletion, hreq, hheld]

theorem doHostCompletion_taken (hwork : s.working = true) (hreq : (s.port port).reqs.find? (fun r => r.id = id) = some r)
    (hheld : s.held (88 + port) = false) :
    doHostCompletion port id ok data s =
      let t := if ok = true then s.portBytes port (s.useInst r.use) 0x04 r.len else s
      let u := t.updPort port fun p => ({ p with reqs := p.reqs.filter fun x => x.id ≠ id } : Port).issue.atsSettle
      (u.hostDone port r ok data).runAll := by
  simp only [doHostCompletion, hreq, hheld, hwork, Bool.not_true, Bool.or_self, Bool.false_eq_true, if_false]

end completion

/-! ### Page reads (R361, R363) -/

/-- A read within one span, by the page, its interface and the stream that protects it. -/
theorem doInstancePageRead_span {s : State} {port off len : Nat} (i : Nat) (ide : Bool) (hwork : s.working = true) (hport : port < 2)
    (hbar : s.bar0All = true) (hspan : len ≤ 64 - off % 64) :
    doInstancePageRead port i off len ide s =
      if s.pageOn port i = false then (s.wrongPort port).answerRead (leBytes len 0)
      else if (s.inst i).tdi = 3 then s.answerRead (leBytes len 0)
      else if (s.inst i).tdi = 2 ∧ ide = false then (s.tdiError i).answerRead (leBytes len 0)
      else s.answerRead ((List.range len).map fun k => (s.inst i).pageByte (off + k)) := by
  have hgo : ¬(2 ≤ port ∨ s.bar0All = false ∨ s.working = false) := by simpa [hwork, hbar] using hport
  rw [doInstancePageRead, if_neg hgo, min_eq_left hspan]
  simp only [Bool.not_eq_true']

/-- Settles O54: each command of a port, by whether its conditions hold. -/
theorem hostPorts : Obligations.HostPorts := by
  intro s hwork
  refine ⟨?tdisp, ?sessions, ?ports⟩
  case tdisp => exact fun port i tdi hpage => ⟨fun hout => congrArg Host.Outcome.next (doTdispMessage_unsecured tdi hout),
    fun hin => congrArg Host.Outcome.next (doTdispMessage_secured tdi hwork hpage hin)⟩
  case sessions =>
    intro endpoint hend hbar
    refine ⟨congrArg Host.Outcome.next (doSpdmSecuredSession_ends hwork hbar hend), ?_⟩
    rintro t hrng rfl
    exact congrArg Host.Outcome.next (doSpdmSecuredSession_begins hwork hbar hend hrng)
  case ports =>
    intro port hport
    refine ⟨congrArg Host.Outcome.next (doAtsInvalidation_taken hwork hport),
      fun i key hout => congrArg Host.Outcome.next (doKeyProg_unsecured key hout), fun key hin => congrArg Host.Outcome.next ?link,
      fun i key hi hin hpage => congrArg Host.Outcome.next ?stream,
      fun speed width flit htrain => congrArg Host.Outcome.next (doHostLinkTrainingComplete_trained speed width flit hport htrain),
      ?completion, fun i off len ide hbar _ hspan => ?page, fun _ => rfl, fun _ => rfl⟩
    case link => rw [doKeyProg_secured key hwork hport hin, if_pos rfl]
    case stream => rw [doKeyProg_secured key hwork hport hin, if_neg hi.ne, if_pos hpage]
    case completion =>
      refine fun id ok data r t u hreq => ⟨fun hheld => congrArg Host.Outcome.next (doHostCompletion_held hreq hheld), ?_⟩
      rintro hheld rfl rfl
      exact congrArg Host.Outcome.next (doHostCompletion_taken hwork hreq hheld)
    case page =>
      have hread : exec (.instancePageRead port i off len ide) s = .next _ :=
        congrArg Host.Outcome.next (doInstancePageRead_span i ide hwork hport hbar hspan)
      rw [hread]
      refine ⟨fun hoff => by rw [if_pos hoff], fun hon => ?_⟩
      rw [if_neg (by simp [hon])]
      refine ⟨fun herr => by rw [if_pos herr], fun hrun hclear => ?_, fun herr hopen => ?_⟩
      · rw [if_neg (by simp [hrun]), if_pos ⟨hrun, hclear⟩]
      · rw [if_neg herr, if_neg]
        rintro ⟨hrun, hclear⟩
        exact hopen.elim (· hrun) (by simp [hclear])

end Sys2Proof.Machine

/-! PROOFS. What a write to a scratchpad with no uncorrectable word reads back (R107, R109). -/

namespace Sys2Proof.Machine

theorem Core.byte_putByte {c : Core} (h : c.scratchWf) (a : Nat) (b : Byte) (x : Nat) :
    (c.putByte a b).byte x = if x = a then b else c.byte x := by
  have hs : Tab.sorted c.scratch = true := (Tab.wf_iff.1 h).1
  split
  next hx => subst hx; exact Tab.get_put_self hs
  next hx => exact Tab.get_put_ne hs hx

/-- The core with the bytes `b 0` to `b (n - 1)` put at its scratch addresses from `a` upward. -/
def Core.putBytes (c : Core) (a : Nat) (b : Nat → Byte) (n : Nat) : Core :=
  (List.range n).foldl (fun c k => c.putByte (a + k) (b k)) c

theorem Core.putBytes_succ (c : Core) (a : Nat) (b : Nat → Byte) (n : Nat) :
    c.putBytes a b (n + 1) = (c.putBytes a b n).putByte (a + n) (b n) := by
  simp only [Core.putBytes, List.range_succ, List.foldl_append, List.foldl_cons, List.foldl_nil]

/-- Putting bytes changes the scratchpad alone. -/
theorem Core.putBytes_frame (c : Core) (a : Nat) (b : Nat → Byte) (n : Nat) :
    { c.putBytes a b n with scratch := c.scratch } = c := by
  induction n with
  | zero => rfl
  | succ n ih => rw [Core.putBytes_succ]; exact ih

theorem Core.scratchWf_putBytes {c : Core} (h : c.scratchWf) (a : Nat) (b : Nat → Byte) (n : Nat) : (c.putBytes a b n).scratchWf := by
  induction n with
  | zero => exact h
  | succ n ih => rw [Core.putBytes_succ]; exact Core.scratchWf_putByte ih

theorem Core.byte_putBytes {c : Core} (h : c.scratchWf) (a : Nat) (b : Nat → Byte) (n x : Nat) :
    (c.putBytes a b n).byte x = if a ≤ x ∧ x < a + n then b (x - a) else c.byte x := by
  induction n with
  | zero => rw [if_neg (by omega)]; rfl
  | succ n ih =>
    rw [Core.putBytes_succ, Core.byte_putByte (Core.scratchWf_putBytes h a b n), ih]
    by_cases hx : x = a + n
    · rw [if_pos hx, if_pos (by omega), hx, Nat.add_sub_cancel_left]
    · rw [if_neg hx]
      exact if_congr (by omega) rfl rfl

/-- With no uncorrectable word listed, a write puts its bytes and discards none. -/
theorem Core.write_eq_putBytes {c : Core} (h : c.ueWords = []) (a : Nat) (bs : List Byte) :
    c.write a bs = c.putBytes a (bs.getD · 0) bs.length := by
  have hlost : (c.ueIn a bs.length).filter (fun w => !decide (a ≤ w * 8 ∧ w * 8 + 8 ≤ a + bs.length)) = [] :=
    Core.lostWords_of_sound h a bs.length
  have hue : (c.putBytes a (bs.getD · 0) bs.length).ueWords = [] :=
    (congrArg Core.ueWords (c.putBytes_frame a (bs.getD · 0) bs.length)).trans h
  have hkeep : (c.putBytes a (bs.getD · 0) bs.length).ueWords.filter (fun w => !decide (a ≤ w * 8 ∧ w * 8 + 8 ≤ a + bs.length)) =
      (c.putBytes a (bs.getD · 0) bs.length).ueWords := by rw [hue, List.filter_nil]
  unfold Core.write
  simp only [hlost, List.contains_nil, Bool.false_eq_true, if_false, List.isEmpty_nil, if_true]
  exact congrArg (fun ws => { c.putBytes a (bs.getD · 0) bs.length with ueWords := ws }) hkeep

/-- Settles O8: with no uncorrectable word the write puts its bytes one after the other. -/
theorem scratchReadsBack : Obligations.ScratchReadsBack := by
  intro c a bs hwf hue
  rw [Core.write_eq_putBytes hue]
  exact ⟨Core.scratchWf_putBytes hwf .., Core.putBytes_frame .., Core.byte_putBytes hwf a _ _⟩

end Sys2Proof.Machine

/-! PROOFS. The accumulators after the work of a matrix block (R86 to R88, R126). -/

namespace Sys2Proof.Machine

/-- Core d is core c with the first n accumulators from B on holding the values v, and with flags of any blocks changed. -/
structure Core.BlockPut (c : Core) (B : Nat) (v : Nat → BitVec 40) (n : Nat) (d : Core) : Prop where
  sorted : Tab.sorted d.acc = true
  frame : { d with acc := c.acc, accFlags := c.accFlags } = c
  value : ∀ x, d.accAt x = if B ≤ x ∧ x < B + n then v (x - B) else c.accAt x

theorem Core.BlockPut.zero {c : Core} (h : Tab.sorted c.acc = true) (B : Nat) (v : Nat → BitVec 40) : c.BlockPut B v 0 c :=
  ⟨h, rfl, fun x => by rw [if_neg (by omega)]⟩

/-- The flags of a block are no part of it. -/
theorem Core.BlockPut.flags {c d : Core} {B n : Nat} {v : Nat → BitVec 40} (h : c.BlockPut B v n d) (fl : Tab (BitVec 4)) :
    c.BlockPut B v n { d with accFlags := fl } :=
  ⟨h.sorted, h.frame, h.value⟩

/-- The next accumulator of the block takes its value. -/
theorem Core.BlockPut.succ {c d : Core} {B n : Nat} {v : Nat → BitVec 40} (h : c.BlockPut B v n d) :
    c.BlockPut B v (n + 1) (d.accPut (B + n) (v n)) := by
  refine ⟨Tab.sorted_put h.sorted, h.frame, fun x => ?_⟩
  by_cases hx : x = B + n
  · rw [if_pos (by omega), hx, Nat.add_sub_cancel_left]
    exact Tab.get_put_self h.sorted
  · have hne : (d.accPut (B + n) (v n)).accAt x = d.accAt x := Tab.get_put_ne h.sorted hx
    rw [hne, h.value]
    exact if_congr (by omega) rfl rfl

/-- The value that a block's output k accumulates from the rows of A and B. -/
def blockValue (c : Core) (g blk cb : Nat) (add : Bool) (a b : List (List Num × Flags)) (k : Nat) : BitVec 40 :=
  (dotOutput g (a.getD (k / 4) ([], 0)).1 (b.getD (4 * cb + k % 4) ([], 0)).1 (if add then c.accAt (blk * 32 + k) else 0)).1

/-- One output of a block: its value is put, and its flags join those of the block. -/
def blockStep (g blk cb : Nat) (add : Bool) (a b : List (List Num × Flags)) (c : Core) (k : Nat) : Core :=
  let ar := a.getD (k / 4) ([], 0)
  let br := b.getD (4 * cb + k % 4) ([], 0)
  let o := dotOutput g ar.1 br.1 (if add then c.accAt (blk * 32 + k) else 0)
  (c.accPut (blk * 32 + k) o.1).accFlagsOr blk (o.2 ||| ar.2 ||| br.2)

theorem matrixBlock_eq (c : Core) (g b0 n rg cb : Nat) (add : Bool) (a b : List (List Num × Flags)) :
    matrixBlock c g b0 n rg cb add a b =
      let blk := b0 + rg * (n / 4) + cb
      (List.range 32).foldl (blockStep g blk cb add a b) (if add then c else { c with accFlags := Tab.put 0 blk 0 c.accFlags }) := rfl

/-- The outputs of a block are put in order, each onto the old value of its own accumulator, which those before it left alone. -/
theorem Core.BlockPut.foldl {c d : Core} {g blk cb : Nat} {add : Bool} {a b : List (List Num × Flags)}
    (h : c.BlockPut (blk * 32) (blockValue c g blk cb add a b) 0 d) (n : Nat) :
    c.BlockPut (blk * 32) (blockValue c g blk cb add a b) n ((List.range n).foldl (blockStep g blk cb add a b) d) := by
  induction n with
  | zero => exact h
  | succ n ih =>
    rw [List.range_succ, List.foldl_append, List.foldl_cons, List.foldl_nil]
    generalize (List.range n).foldl (blockStep g blk cb add a b) d = e at ih
    have hold : e.accAt (blk * 32 + n) = c.accAt (blk * 32 + n) := by rw [ih.value, if_neg (by omega)]
    have hvalue : blockValue c g blk cb add a b n = blockValue e g blk cb add a b n := by rw [blockValue, blockValue, hold]
    have hput := ih.succ
    rw [hvalue] at hput
    exact hput.flags _

/-- Settles O17: each output is put once, onto the accumulator as it was before the block. -/
theorem matrixBlockIsDotProducts : Obligations.MatrixBlockIsDotProducts := by
  rintro c g b0 n rg cb add a b _ hs rfl
  rw [matrixBlock_eq]
  generalize b0 + rg * (n / 4) + cb = blk
  have hput : c.BlockPut (blk * 32) (blockValue c g blk cb add a b) 32 ((List.range 32).foldl (blockStep g blk cb add a b)
      (if add then c else { c with accFlags := Tab.put 0 blk 0 c.accFlags })) := by
    refine Core.BlockPut.foldl ?_ 32
    split
    · exact .zero hs ..
    · exact (Core.BlockPut.zero hs ..).flags _
  refine ⟨fun r hr k hk => ?_, fun x hx => ?_, hput.frame⟩
  · rw [hput.value, if_pos (by omega), show blk * 32 + r * 4 + k - blk * 32 = r * 4 + k by omega, blockValue,
      show (r * 4 + k) / 4 = r by omega, show (r * 4 + k) % 4 = k by omega, ← Nat.add_assoc]
  · rw [hput.value, if_neg (by omega)]

end Sys2Proof.Machine

/-! PROOFS. The operands of a core's instructions, what the descriptor and predicate moves do when they issue, and how an
instruction enters an engine's queue (R79, R80, R119, R122, R123, R141, R142). -/

namespace Sys2Proof.Machine

/-! ### Fields and operands -/

/-- One bit of an operand field as a field of its own. -/
theorem bit_eq_fld (ops : BitVec 56) (i : Nat) : bit ops.toNat i = decide (fld ops i i = 1) := by
  simp only [bit, fld, bits, Nat.add_sub_cancel_left, Nat.pow_one]

@[simp] theorem require_true (f : IFault) : require true f = .ok () := rfl
@[simp] theorem require_false (f : IFault) : require false f = .error f := rfl

@[simp] theorem Except.ok_bind {ε α β : Type} (a : α) (f : α → Except ε β) : (Except.ok a >>= f) = f a := rfl
@[simp] theorem Except.error_bind {ε α β : Type} (e : ε) (f : α → Except ε β) : (Except.error e >>= f) = Except.error e := rfl

/-- A scratch operand inside the scratchpad and aligned is its address (R119). -/
theorem Core.scratchOp_inside {c : Core} {r off align n a : Nat} (unit : Nat) (ha : a = (c.areg r + BitVec.ofNat 64 off).toNat)
    (hin : a + n ≤ 0x100000) (hal : a % align = 0) : c.scratchOp unit r off align n = .ok a := by
  subst ha
  exact if_pos ⟨hin, hal⟩

/-- A read that meets no uncorrectable word gives the bytes (R109). -/
theorem Core.scratchRead_sound {c : Core} {a n : Nat} (unit : Nat) (h : c.readUe a n = false) :
    c.scratchRead unit a n = .ok (c.bytes a n) := by
  have hnil : c.ueIn a n = [] := by simpa [Core.readUe] using h
  rw [Core.scratchRead, hnil]

/-! ### Descriptors and predicates (R141, R142) -/

theorem ldtBody_ok {ops : BitVec 56} {c : Core} {a : Nat} (hf : onlyFields ops.toNat [(55, 52), (50, 46), (19, 0)] = true)
    (hop : c.scratchOp 0 (fld ops 50 46) (fld ops 19 0) 16 16 = .ok a) (hue : c.readUe a 16 = false) :
    ldtBody ops c = .ok { c.advance with
      t := Tab.put 0 (fld ops 55 52) (BitVec.ofNat 128 (leNat (c.bytes a 16))) c.t } := by
  rw [fld, fld] at hop
  simp only [ldtBody, hf, hop, Core.scratchRead_sound 0 hue, require_true, Except.ok_bind]
  rfl

theorem ldvBody_ok {ops : BitVec 56} {c : Core} {a : Nat} (hf : onlyFields ops.toNat [(50, 46), (19, 0)] = true)
    (hop : c.scratchOp 0 (fld ops 50 46) (fld ops 19 0) 16 16 = .ok a) (hue : c.readUe a 16 = false) :
    ldvBody ops c = .ok { c.advance with v0 := BitVec.ofNat 128 (leNat (c.bytes a 16)) } := by
  rw [fld, fld] at hop
  simp only [ldvBody, hf, hop, Core.scratchRead_sound 0 hue, require_true, Except.ok_bind]

/-- The number of one byte is zero when the byte is. -/
theorem leNat_bytes_one (c : Core) (a : Nat) : leNat (c.bytes a 1) ≠ 0 ↔ c.byte a ≠ 0 := by
  rw [not_iff_not, ← BitVec.toNat_inj]
  exact Iff.rfl

theorem ldkBody_ok {ops : BitVec 56} {c : Core} {a : Nat} (hf : onlyFields ops.toNat [(55, 53), (50, 46), (19, 0)] = true)
    (hop : c.scratchOp 0 (fld ops 50 46) (fld ops 19 0) 1 1 = .ok a) (hue : c.readUe a 1 = false) :
    ldkBody ops c = .ok (c.advance.setK (fld ops 55 53) (decide (c.byte a ≠ 0))) := by
  rw [fld, fld] at hop
  simp only [ldkBody, hf, hop, Core.scratchRead_sound 0 hue, require_true, Except.ok_bind, leNat_bytes_one]
  rfl

theorem sttBody_ok {ops : BitVec 56} {c : Core} {a : Nat} (hf : onlyFields ops.toNat [(55, 52), (50, 46), (19, 0)] = true)
    (hop : c.scratchOp 0 (fld ops 50 46) (fld ops 19 0) 1 16 = .ok a) :
    sttBody ops c = .ok (if (c.inflight.any fun f => f.descs.contains (fld ops 55 52)) = true then c
      else c.advance.write a (leBytes 16 (Tab.get 0 c.t (fld ops 55 52)).toNat)) := by
  rw [fld, fld] at hop
  simp only [sttBody, hf, hop, require_true, Except.ok_bind]
  split
  next hnamed => exact congrArg Except.ok (if_pos hnamed).symm
  next hfree => exact congrArg Except.ok (if_neg hfree).symm

/-- A BASE past 0xF_FFFF is undefined. -/
theorem taddBody_eq {ops : BitVec 56} {c : Core} {d base : Nat}
    (hf : onlyFields ops.toNat [(55, 52), (51, 48), (47, 43), (19, 0)] = true) (hd : d = (Tab.get 0 c.t (fld ops 51 48)).toNat)
    (hbase : base = (BitVec.ofNat 64 (bits d 19 0) + c.areg (fld ops 47 43) + BitVec.ofInt 64 (sext 20 (fld ops 19 0))).toNat) :
    taddBody ops c = if base ≤ 0xFFFFF then .ok { c.advance with
        t := Tab.put 0 (fld ops 55 52) (BitVec.ofNat 128 (d - bits d 19 0 + base)) c.t }
      else .error (illegal 0) := by
  have hd' : (Tab.get 0 c.t (bits ops.toNat 51 48)).toNat = d := hd.symm
  have hbase' : (BitVec.ofNat 64 (bits d 19 0) + c.areg (bits ops.toNat 47 43) + immSx 20 (bits ops.toNat 19 0)).toNat = base :=
    hbase.symm
  simp only [taddBody, hf, hd', hbase', Bool.true_and]
  split
  next hle => rw [decide_eq_true hle]; rfl
  next hgt => rw [decide_eq_false hgt]; rfl

/-- With FROM_STICKY the instruction waits for every engine. -/
theorem setkBody_ok {ops : BitVec 56} {c : Core} (hf : onlyFields ops.toNat [(55, 53), (52, 52), (51, 51), (3, 0)] = true) :
    setkBody ops c = .ok (if fld ops 51 51 = 0 then c.advance.setK (fld ops 55 53) (decide (fld ops 52 52 = 1))
      else if c.drained = true then c.advance.setK (fld ops 55 53) (decide (c.sticky.toNat &&& fld ops 3 0 ≠ 0)) else c) := by
  have h01 : fld ops 51 51 < 2 := Nat.mod_lt _ (by decide)
  simp only [setkBody, hf, require_true, bit_eq_fld]
  obtain h0 | h1 : fld ops 51 51 = 0 ∨ fld ops 51 51 = 1 := by omega
  · rw [h0]; rfl
  · rw [h1]
    cases c.drained <;> rfl

/-- Settles O12: each body's checks pass, so that the move it makes is the step. -/
theorem descriptorAndPredicateMoves : Obligations.DescriptorAndPredicateMoves := by
  intro s p ops a ha
  refine ⟨fun hat hf hin hal hue => ?ldt, fun hat hf hin hal hue => ?ldv, fun hat hf hin hue => ?ldk, fun hat hf hin => ?stt,
    fun hat hf d base hd hbase => ?tadd, fun hat hf => ?setk⟩
  case ldt => exact congrArg Host.Outcome.next (issueCore_at hat (by decide) (by decide) rfl
    (ldtBody_ok hf (Core.scratchOp_inside 0 ha hin hal) hue))
  case ldv => exact congrArg Host.Outcome.next (issueCore_at hat (by decide) (by decide) rfl
    (ldvBody_ok hf (Core.scratchOp_inside 0 ha hin hal) hue))
  case ldk => exact congrArg Host.Outcome.next (issueCore_at hat (by decide) (by decide) rfl
    (ldkBody_ok hf (Core.scratchOp_inside 0 ha hin (Nat.mod_one a)) hue))
  case stt => exact congrArg Host.Outcome.next (issueCore_at hat (by decide) (by decide) rfl
    (sttBody_ok hf (Core.scratchOp_inside 0 ha hin (Nat.mod_one a))))
  case tadd =>
    have hbody := taddBody_eq hf hd hbase
    split
    next hle => exact congrArg Host.Outcome.next (issueCore_at hat (by decide) (by decide) rfl (hbody.trans (if_pos hle)))
    next hgt => exact congrArg Host.Outcome.next (issueCore_fault hat (by decide) (by decide) rfl (hbody.trans (if_neg hgt)))
  case setk => exact congrArg Host.Outcome.next (issueCore_at hat (by decide) (by decide) rfl (setkBody_ok hf))

/-! ### The engines' queues (R79, R80) -/

/-- An instruction whose checks pass enters its engine's queue, or waits at the sequencer for room there. -/
theorem issueEngine_at {s : State} {p cls op : Nat} {ops : BitVec 56} {eng : Nat} {foot : Core → Except IFault Foot} {f : Foot}
    (h : s.atInstr p cls op ops) (hc : cls < 16) (ho : op < 16) (hd : opDefined cls op = true) (hf : foot (s.core p) = .ok f) :
    issueEngine s p cls op ops eng foot =
      s.setCore p (if (s.core p).queueRoom eng = true then (s.core p).enqueue eng f else s.core p) := by
  refine issueCore_at h hc ho hd ?_
  cases (s.core p).queueRoom eng with
  | false => rfl
  | true => simp only [hf, Bool.not_true, Bool.false_eq_true, if_false, if_true]; rfl

/-- Settles O15: each of the seven enters the queue of engine 1 with what its checks found. -/
theorem engineInstructionsIssue : Obligations.EngineInstructionsIssue := by
  rintro s p cls op ops i r f _ rfl hmem hat rfl
  simp only [List.mem_cons, Prod.mk.injEq, List.not_mem_nil, or_false] at hmem
  rcases hmem with ⟨rfl, rfl, rfl, hf⟩ | ⟨rfl, rfl, rfl, hf⟩ | ⟨rfl, rfl, rfl, hf⟩ | ⟨rfl, rfl, rfl, hf⟩ | ⟨rfl, rfl, rfl, hf⟩ |
    ⟨rfl, rfl, rfl, hf⟩ | ⟨rfl, rfl, rfl, hf⟩ <;>
  exact congrArg Host.Outcome.next (issueEngine_at hat (by decide) (by decide) rfl hf.symm)

/-- Settles O16: each of the four enters the queue of engine 0 with what its checks found. -/
theorem matrixInstructionsIssue : Obligations.MatrixInstructionsIssue := by
  rintro s p op ops i r f _ rfl hmem hat rfl
  simp only [List.mem_cons, Prod.mk.injEq, List.not_mem_nil, or_false] at hmem
  rcases hmem with ⟨rfl, rfl, hf⟩ | ⟨rfl, rfl, hf⟩ | ⟨rfl, rfl, hf⟩ | ⟨rfl, rfl, hf⟩ <;>
  exact congrArg Host.Outcome.next (issueEngine_at hat (by decide) (by decide) rfl hf.symm)

end Sys2Proof.Machine

/-! PROOFS. What an engine instruction does when it completes, the element engine's program slots and lane mask, and the issue of the
copy and semaphore instructions (R79, R80, R95, R104, R122, R131, R132, R137 to R139, R320). -/

namespace Sys2Proof.Machine

/-! ### Completion (R122) -/

section
variable {s : State} {p eng : Nat} {bad : List Nat} {x : InFlight} {c : Core} (hwork : s.working = true)
  (hc : c = (s.core p).upset bad) (hstart : c.headStarted eng = true)
  (hx : (c.inflight.find? fun y => decide (y.eng = eng)) = some x)
include hwork hc hstart hx

/-- The engine's oldest instruction, once started, has its effect, leaves, and gives its flags. -/
theorem doEngineComplete_ok {r : Effect} (fixed : List Nat) (hbody : engineBody p x.word (c.seenBy x) = .ok r) :
    doEngineComplete p eng fixed bad s =
      ((s.setCore p { (c.unseen r.1).orSticky r.2.1 r.2.2 with
        inflight := c.inflight.filter fun y => y.id ≠ x.id }).countBeats p x.word (c.seenBy x)).corrects p fixed := by
  subst hc
  simp only [doEngineComplete, hwork, hstart, Bool.not_true, Bool.or_false, Bool.false_eq_true, if_false, hx, hbody]

/-- An effect that faults is a core fault at the instruction's index. -/
theorem doEngineComplete_fault {f : IFault} (fixed : List Nat) (hbody : engineBody p x.word (c.seenBy x) = .error f) :
    doEngineComplete p eng fixed bad s = (s.setCore p c).coreFault p f.cause f.unit x.idx f.detail := by
  subst hc
  simp only [doEngineComplete, hwork, hstart, Bool.not_true, Bool.or_false, Bool.false_eq_true, if_false, hx, hbody]

end

/-- The body of an instruction's word, by its class and operation. -/
theorem engineBody_word (p : Nat) {cls op : Nat} (ops : BitVec 56) (c : Core) (hc : cls < 16) (ho : op < 16) :
    engineBody p (cls * 2 ^ 60 + op * 2 ^ 56 + ops.toNat) c =
      if cls = 1 then matrixBody (decide (op % 2 = 0)) (decide (2 ≤ op)) ops c
      else if cls = 2 then
        if op ≤ 1 then eltBody (decide (op = 1)) p ops c else if op = 2 then loadpBody ops c else .ok (c, 0, [])
      else if cls = 3 then cvtBody p ops c
      else if op = 0 then maxabsBody ops c
      else if op = 1 then packBody p ops c
      else rotBody ops c := by
  have hn : ops.toNat < 2 ^ 56 := ops.isLt
  have hops : BitVec.ofNat 56 (cls * 2 ^ 60 + op * 2 ^ 56 + ops.toNat) = ops := by
    apply BitVec.eq_of_toNat_eq
    rw [BitVec.toNat_ofNat]
    omega
  simp only [engineBody, bits_word_class hc ho hn, bits_word_op ho hn, hops]

/-- Settles O19: the completion is its case on the body, and the body of a word goes by class and operation. -/
theorem engineInstructionCompletes : Obligations.EngineInstructionCompletes := by
  constructor
  · intro s p eng fixed bad x c hwork hc hstart hx
    exact ⟨fun d f dst hbody => congrArg Host.Outcome.next (doEngineComplete_ok (r := (d, f, dst)) hwork hc hstart hx fixed hbody),
      fun f hbody => congrArg Host.Outcome.next (doEngineComplete_fault hwork hc hstart hx fixed hbody)⟩
  · rintro p ops c _ rfl
    refine ⟨fun op hop => ?_, ?_, ?_, ?_, ?_, ?_, ?_, ?_, ?_⟩
    · exact engineBody_word p ops c (by decide) (by omega)
    all_goals exact engineBody_word p ops c (by decide) (by decide)

/-! ### Program slots and the lane mask (R131, R132) -/

@[simp] theorem Core.upset_nil (c : Core) : c.upset [] = c := by
  simp [Core.upset]

theorem loadpBody_ok {ops : BitVec 56} {c : Core} {n a : Nat} (hn : n = fld ops 52 47 + 1)
    (hop : c.scratchOp 2 (fld ops 46 42) (fld ops 19 0) 4 (4 * n) = .ok a) (hue : c.readUe a (4 * n) = false) :
    loadpBody ops c = .ok ({ c with
      slots := Tab.put [] (fld ops 55 53) ((List.range n).map fun k => BitVec.ofNat 32 (leAt (c.bytes a (4 * n)) (4 * k) 4)) c.slots },
      0, []) := by
  subst hn
  rw [fld, fld, fld] at hop
  rw [fld] at hue
  simp only [loadpBody, hop, Core.scratchRead_sound 2 hue, Except.ok_bind]
  rfl

/-- No beats are counted for a load of a program slot (R429). -/
theorem State.countBeats_loadp (s : State) (p : Nat) (ops : BitVec 56) (c : Core) :
    s.countBeats p (2 * 2 ^ 60 + 2 * 2 ^ 56 + ops.toNat) c = s := by
  simp only [State.countBeats, bits_word_class (cls := 2) (op := 2) (by decide) (by decide) ops.isLt,
    bits_word_op (cls := 2) (op := 2) (by decide) ops.isLt]
  rfl

/-- Without flags nothing sticks. -/
@[simp] theorem Core.orSticky_nil (c : Core) : c.orSticky 0 [] = c := by
  simp [Core.orSticky]

/-- A bit of ELT.MASK that asks for the descriptor wants a valid one of bits. -/
theorem maskFoot_ok {ops : BitVec 56} {c : Core} (hres : fld ops 49 48 = 0)
    (hbmp : fld ops 51 51 = 0 ∨ ((c.tile (fld ops 55 52)).valid = true ∧ (c.tile (fld ops 55 52)).fmt = fBIT)) :
    maskFoot ops c = .ok { descs := if fld ops 51 51 = 1 then [fld ops 55 52] else [] } := by
  have hreq : (!decide (fld ops 51 51 = 1) || ((c.tile (fld ops 55 52)).valid && decide ((c.tile (fld ops 55 52)).fmt = fBIT))) = true := by
    obtain h0 | ⟨hvalid, hbit⟩ := hbmp
    · simp [h0]
    · simp [hvalid, hbit]
  simp only [maskFoot, hres, bit_eq_fld, hreq, decide_true, require_true, Except.ok_bind, decide_eq_true_eq]

theorem maskOf_eq (ops : BitVec 56) (c : Core) : maskOf ops c =
    { bmp := if fld ops 51 51 = 1 then some (Tab.get 0 c.t (fld ops 55 52)) else none
      ranges := if fld ops 50 50 = 1 then some (fld ops 47 36, fld ops 35 24, fld ops 23 12, fld ops 11 0) else none } := by
  simp only [maskOf, bit_eq_fld, decide_eq_true_eq]

/-- Settles O18: the load reads what the engine's core sees, and the mask enters the element queue with what its bits ask for. -/
theorem elementProgramAndMask : Obligations.ElementProgramAndMask := by
  rintro s p ops _ rfl
  constructor
  · intro x n a hwork hstart hx hword hn ha hin hal hue
    have hbody : engineBody p x.word ((s.core p).seenBy x) = loadpBody ops ((s.core p).seenBy x) := by
      rw [hword]
      exact engineBody_word p ops _ (by decide) (by decide)
    have hload := loadpBody_ok hn (Core.scratchOp_inside 2 ha hin hal) hue
    have hdone := doEngineComplete_ok hwork (Core.upset_nil _).symm hstart hx [] (hbody.trans hload)
    rw [hword, State.countBeats_loadp, Core.orSticky_nil] at hdone
    exact congrArg Host.Outcome.next hdone
  · intro hat hres hbmp
    refine congrArg Host.Outcome.next (issueCore_at hat (by decide) (by decide) rfl ?_)
    rw [maskBody, maskFoot_ok hres hbmp, maskOf_eq]
    cases (s.core p).queueRoom 1 <;> rfl

/-! ### Copy instructions (R104, R137) -/

theorem cpyBody_ok {op a : Nat} {ops : BitVec 56} {c : Core} (hres : fld ops 37 20 = 0)
    (hop : c.scratchOp (4 + fld ops 55 55) (fld ops 54 50) (fld ops 19 0) 64 64 = .ok a) :
    cpyBody op ops c = .ok (if 8 ≤ (c.ce (fld ops 55 55)).queue.length then c else
      { (c.advance.setCe (fld ops 55 55) { c.ce (fld ops 55 55) with queue := (c.ce (fld ops 55 55)).queue ++
          [{ id := c.nextId, idx := c.pi, op := op, scratch := a, srcAdd := c.areg (fld ops 49 45), dstAdd := c.areg (fld ops 44 40),
             waits := (if fld ops 39 39 = 1 then (c.inflight.filter fun f => f.eng = 1).map (·.id) else []) ++
               (if fld ops 38 38 = 1 then (c.inflight.filter fun f => f.eng = 0).map (·.id) else []), desc := none }] }) with
        nextId := c.nextId + 1 }) := by
  rw [fld, fld, fld] at hop
  rw [fld] at hres
  simp only [cpyBody, hres, hop, bit_eq_fld, decide_true, require_true, Except.ok_bind, decide_eq_true_eq]
  split
  next hfull => exact congrArg Except.ok (if_pos hfull).symm
  next hroom => exact congrArg Except.ok (if_neg hroom).symm

/-- Settles O20: the four differ in the operation that their entry keeps. -/
theorem copyInstructionsQueue : Obligations.CopyInstructionsQueue := by
  rintro s p op ops _ a _ i rfl hat hmem hres ha hin hal rfl
  have hissue : op < 4 → issueCore s p 5 op ops (cpyBody op ops) = s.setCore p _ := fun hlt =>
    issueCore_at hat (by decide) (by omega) (by simp only [opDefined]; exact decide_eq_true (by omega))
      (cpyBody_ok hres (Core.scratchOp_inside _ ha hin hal))
  simp only [List.mem_cons, Prod.mk.injEq, List.not_mem_nil, or_false] at hmem
  rcases hmem with ⟨rfl, rfl⟩ | ⟨rfl, rfl⟩ | ⟨rfl, rfl⟩ | ⟨rfl, rfl⟩ <;> exact congrArg Host.Outcome.next (hissue (by decide))

/-! ### Semaphore instructions (R139, R320) -/

/-- A semaphore instruction whose reserved bits are zero, of which a wait, an operation from 2 on, has no AFTER field: its wait for
the units that AFTER names, the translation of its identifier, and what leaves. -/
theorem semBody_eq {p op v : Nat} {kind : TokKind} {ops : BitVec 56} {s : State} {c : Core}
    (hkind : (decide (kind = .waitge) || decide (kind = .waitsub)) = decide (2 ≤ op)) (hres : fld ops 50 48 = 0)
    (hgap : fld ops 27 24 = 0) (hafter : 2 ≤ op → fld ops 31 28 = 0)
    (hv : v = (fld ops 47 32 + (c.areg (fld ops 55 51)).toNat) % 65536) :
    semBody p kind ops.toNat s c =
      if (!c.afterDone (fld ops 31 28)) = true then .ok s
      else (s.semOfCore c (p / 11) v).elim (.error ⟨1, 0, v⟩) fun k =>
        .ok (if fld ops 23 0 = 0 then s.setCore p c.advance else
          (s.setCore p (if op < 2 then { c with wait := .semPerformed } else { c with act := .waiting, wait := .semWait })).send
            { id := 0, kind := kind, origin := .seq p, inst := c.inst, srcUnit := posUnit p 0, dstUnit := semUnit (k / 4096),
              addr := BitVec.ofNat 64 k, n := fld ops 23 0, seq := c.taskId }) := by
  rw [fld] at hres hgap hafter
  have hreq : (decide (bits ops.toNat 50 48 = 0) && decide (bits ops.toNat 27 24 = 0) &&
      (!decide (2 ≤ op) || decide (bits ops.toNat 31 28 = 0))) = true := by
    by_cases hop : 2 ≤ op
    · simp [hres, hgap, hafter hop]
    · simp [hres, hgap, hop]
  have hv' : (bits ops.toNat 47 32 + (c.areg (bits ops.toNat 55 51)).toNat) % 65536 = v := hv.symm
  simp only [semBody, hkind, hreq, require_true, Except.ok_bind, hv']
  refine if_congr Iff.rfl rfl ?_
  cases s.semOfCore c (p / 11) v with
  | none => rfl
  | some k =>
    refine (apply_ite Except.ok ..).symm.trans (congrArg Except.ok (if_congr Iff.rfl rfl ?_))
    obtain hlt | hge := Nat.lt_or_ge op 2
    · rw [if_pos hlt, if_neg (by simp [hlt])]
      rfl
    · rw [if_neg (Nat.not_lt.2 hge), if_pos (decide_eq_true hge)]
      rfl

/-- Settles O23: each of the four is its body, whose outcome goes by the wait for AFTER and the translation. -/
theorem semaphoreInstructionsLeave : Obligations.SemaphoreInstructionsLeave := by
  rintro s p op ops _ v i kind rfl hat hmem hres hgap hafter hv
  obtain ⟨hop, hexec, hkind⟩ : op < 4 ∧ exec i s = .next (issue s p 6 op ops (semBody p kind ops.toNat)) ∧
      (decide (kind = .waitge) || decide (kind = .waitsub)) = decide (2 ≤ op) := by
    simp only [List.mem_cons, Prod.mk.injEq, List.not_mem_nil, or_false] at hmem
    rcases hmem with ⟨rfl, rfl, rfl⟩ | ⟨rfl, rfl, rfl⟩ | ⟨rfl, rfl, rfl⟩ | ⟨rfl, rfl, rfl⟩ <;> exact ⟨by decide, rfl, rfl⟩
  rw [hexec, issue_at hat (by decide) (by omega) (decide_eq_true (by omega)), semBody_eq hkind hres hgap hafter hv]
  refine ⟨fun hdone => ?_, fun hdone hsem => ?_, fun k hdone hsem => ?_⟩
  · rw [hdone]; rfl
  · rw [hdone, hsem]; rfl
  · rw [hdone, hsem]; rfl

end Sys2Proof.Machine

/-! PROOFS. Retention, COR_CTRL and the march test (R110 to R112), and the start of a copy descriptor (R100, R103, R104, R137). -/

namespace Sys2Proof.Machine

/-! ### Retention and the march test -/

section
variable {s : State} {p : Nat} {v : BitVec 32}

theorem doRetentionEntry_enters (hp : p < 880) (hact : (s.core p).act = .idle) (hretain : (s.core p).retain = true)
    (h0 : (s.core p).ce0.idle = true) (h1 : (s.core p).ce1.idle = true) (hpos : s.posCode p = 0) (hbusy : (s.core p).march.busy = 0)
    (hheld : s.held (p / 11) = false) (hwork : s.working = true) :
    doRetentionEntry p s = (s.setCore p { s.core p with act := .retention, waking := none }).mgtRecord
      (eventBytes s.tb.count (regionUnit (p / 11) 0x1FF) 0x20 (p / 11)) := by
  simp only [doRetentionEntry, hp, hact, hretain, h0, h1, hpos, hbusy, hheld, hwork, decide_true, Bool.not_false, Bool.and_true, if_true]

theorem doRetentionWake_due {t : Nat} (hwaking : (s.core p).waking = some t) (hact : (s.core p).act = .retention)
    (hdue : t ≤ s.tb.count) :
    doRetentionWake p s = (s.setCore p { s.core p with act := .idle, waking := none }).mgtRecord
      (eventBytes s.tb.count (regionUnit (p / 11) 0x1FF) 0x21 (p / 11)) := by
  simp only [doRetentionWake, hwaking, hact, hdue, and_self, if_true]

theorem doCorCtrlWrite_taken (hp : p < 880) (hreg : s.regOk = true) :
    doCorCtrlWrite p v s =
      if bit v.toNat 0 = true then s.setCore p { s.core p with retain := true }
      else (s.setCore p { s.core p with retain := false }).wake p := by
  rw [doCorCtrlWrite, if_pos ⟨hp, hreg⟩]
  cases bit v.toNat 0 <;> rfl

/-- A core in retention that no wake is under way for gets its wake time; any other is as it was. -/
theorem State.core_wake {s : State} (h : Tab.sorted s.cores = true) (p : Nat) :
    (s.wake p).core p = if (s.core p).act = .retention ∧ (s.core p).waking = none
      then { s.core p with waking := some (s.tb.count + 2000) } else s.core p := by
  rw [State.wake, State.core_updCore h]
  simp only [Option.isNone_iff_eq_none]

theorem State.wake_frame (s : State) (p : Nat) (cs : Tab Core) : { s.wake p with cores := cs } = { s with cores := cs } := rfl

theorem doMarch_taken {mode : Nat} (hp : p < 880) (hmode : bits v.toNat 1 0 = mode) (hreg : s.regOk = true) :
    doMarch p mode v s = s.setCore p { s.core p with march :=
      (if s.marchAllowed p mode = true then { (s.core p).march with banks := BitVec.ofNat 16 (bits v.toNat 31 16), busy := mode }
      else { (s.core p).march with banks := BitVec.ofNat 16 (bits v.toNat 31 16), refused := true }) } := by
  have hgo : ¬(880 ≤ p ∨ bits v.toNat 1 0 ≠ mode ∨ s.regOk = false) := by simp [hp, hmode, hreg]
  rw [doMarch, if_neg hgo]
  rfl

theorem doMarchTestComplete_running (failBank failLines : Nat) (hbusy : (s.core p).march.busy ≠ 0) :
    doMarchTestComplete p failBank failLines s =
      let t := s.setCore p { (if (s.core p).march.busy = 1 then (s.core p).zeroBanks (s.core p).march.banks else s.core p) with
        march := { (s.core p).march with busy := 0, done := true, fail := decide (failLines ≠ 0), firstBank := failBank % 16,
                                         failLines := failLines % 65536 } }
      if failLines = 0 then t
      else t.event (posUnit p 6) 0x10 (failBank % 16 + failLines % 65536 * 16) (s.fieldConfid (p / 11)) := by
  rw [doMarchTestComplete, if_neg hbusy]
  rfl

end

/-- Settles O28: each command by the lemma for it; a wake changes the core table alone. -/
theorem retentionAndMarch : Obligations.RetentionAndMarch := by
  rintro s p _ v rfl hp
  refine ⟨fun hact hretain h0 h1 hpos hbusy hheld hwork => ?entry, fun t hwaking hact hdue => ?wake, fun hreg hset => ?retain,
    fun hreg hclear hs => ?clear, fun mode i hmem hreg hmode => ?march, ?complete⟩
  case entry => exact congrArg Host.Outcome.next (doRetentionEntry_enters hp hact hretain h0 h1 hpos hbusy hheld hwork)
  case wake => exact congrArg Host.Outcome.next (doRetentionWake_due hwaking hact hdue)
  case retain => exact congrArg Host.Outcome.next ((doCorCtrlWrite_taken hp hreg).trans (if_pos hset))
  case clear =>
    have hwake : doCorCtrlWrite p v s = (s.setCore p { s.core p with retain := false }).wake p := by
      rw [doCorCtrlWrite_taken hp hreg, if_neg (by simp [hclear])]
    refine ⟨(s.setCore p { s.core p with retain := false }).wake p, congrArg Host.Outcome.next hwake, ?_, State.wake_frame ..⟩
    rw [State.core_wake (Tab.sorted_put hs), State.core_setCore hs]
    rfl
  case march =>
    simp only [List.mem_cons, Prod.mk.injEq, List.not_mem_nil, or_false] at hmem
    rcases hmem with ⟨rfl, rfl⟩ | ⟨rfl, rfl⟩
    · exact congrArg Host.Outcome.next (doMarch_taken hp hmode hreg)
    · exact congrArg Host.Outcome.next (doMarch_taken hp hmode hreg)
  case complete =>
    rintro failBank failLines _ hbusy rfl
    exact congrArg Host.Outcome.next (doMarchTestComplete_running failBank failLines hbusy)

/-! ### The start of a descriptor -/

/-- What becomes of a descriptor that has been read: it is held while earlier ones are active and it waits for them; its semaphore is
one that its task may not use; or it leaves the queue, active from its first byte, and its engine runs it. -/
theorem State.startRead_eq (u : State) (p e : Nat) (q : CpyEntry) (d : Desc) :
    u.startRead p e q d =
      if d.afterPrior = true ∧ ((u.core p).ce e).act ≠ [] then
        u.updCore p fun k => k.setCe e { (u.core p).ce e with queue := { q with desc := some d } :: ((u.core p).ce e).queue.drop 1 }
      else if d.semAdd ≠ 0 ∧ u.semOfCore (u.core p) (p / 11) d.sem = none then u.coreFault p 1 (4 + e) q.idx d.sem
      else (u.updCore p fun k => k.setCe e
        { queue := ((u.core p).ce e).queue.drop 1
          act := ((u.core p).ce e).act ++
            [{ id := q.id, idx := q.idx, scratch := q.scratch, desc := d
               sem := if d.semAdd = 0 then none else u.semOfCore (u.core p) (p / 11) d.sem
               cur := some (d.firstRow.1, d.firstRow.2, 0), nextSeq := 0, reads := [], buf := [], bufDst := 0, outq := [], outstanding := 0
               flush := 0, stopped := false }] }).run p e q.id := by
  refine if_congr Iff.rfl rfl ?_
  by_cases hadd : d.semAdd = 0
  · simp only [hadd, ne_eq, not_true_eq_false, false_and, if_true, if_false]
  · cases hsem : u.semOfCore (u.core p) (p / 11) d.sem <;>
      simp only [hadd, ne_eq, not_false_eq_true, true_and, if_true, if_false, Option.map_none, Option.map_some, reduceCtorEq]

section
variable {s : State} {p e : Nat} {q : CpyEntry} {rest : List CpyEntry} {d : Desc}
  (hp : p < 880) (he : e < 2) (hbusy : (s.core p).busy = true) (hheld : s.held (p / 11) = false) (hwork : s.working = true)
  (hqueue : ((s.core p).ce e).queue = q :: rest) (hfree : ((s.core p).inflight.any fun f => q.waits.contains f.id) = false)
include hp he hbusy hheld hwork hqueue hfree

/-- A descriptor that was held starts without a second read. -/
theorem doDescriptorStart_held (fixed bad : List Nat) (hdesc : q.desc = some d) :
    doDescriptorStart p e fixed bad s = s.startRead p e q d := by
  simp only [doDescriptorStart, hbusy, hheld, hwork, hqueue, hfree, hdesc, Nat.not_le.2 hp, Nat.not_le.2 he, decide_false,
    Bool.not_true, Bool.or_false, Bool.false_eq_true, if_false]

/-- An uncorrectable word among the bytes of a descriptor is its fault. -/
theorem doDescriptorStart_ue {bad : List Nat} {f : IFault} (fixed : List Nat) (hdesc : q.desc = none)
    (hread : ((s.core p).upset bad).scratchRead (4 + e) q.scratch 64 = .error f) :
    doDescriptorStart p e fixed bad s = (s.setCore p ((s.core p).upset bad)).coreFault p 4 (4 + e) q.idx f.detail := by
  simp only [doDescriptorStart, hbusy, hheld, hwork, hqueue, hfree, hdesc, hread, Core.scratchRead_cause hread, Nat.not_le.2 hp,
    Nat.not_le.2 he, decide_false, Bool.not_true, Bool.or_false, Bool.false_eq_true, if_false]

/-- A descriptor that was read is checked against its CPY and by itself, and then starts. -/
theorem doDescriptorStart_read {bad : List Nat} {bs : List Byte} (fixed : List Nat) (hdesc : q.desc = none)
    (hread : ((s.core p).upset bad).scratchRead (4 + e) q.scratch 64 = .ok bs) :
    doDescriptorStart p e fixed bad s =
      let u := (s.setCore p ((s.core p).upset bad)).corrects p fixed
      let d := Desc.ofBytes (((s.core p).upset bad).bytes q.scratch 64) q.srcAdd q.dstAdd
      if d.agrees q.op = false then u.coreFault p 2 (4 + e) q.idx q.scratch
      else if u.descOk p d = false then u.coreFault p 3 (4 + e) q.idx q.scratch
      else u.startRead p e q d := by
  simp only [doDescriptorStart, hbusy, hheld, hwork, hqueue, hfree, hdesc, hread, Core.scratchRead_bytes hread, Nat.not_le.2 hp,
    Nat.not_le.2 he, decide_false, Bool.not_true, Bool.or_false, Bool.false_eq_true, if_false, Bool.not_eq_true']

end

/-- Settles O21: a held descriptor starts at once, and one to be read goes by what the read finds. -/
theorem descriptorStarts : Obligations.DescriptorStarts := by
  rintro s p e fixed bad _ _ q rest d _ rfl rfl hp he hbusy hheld hwork hqueue hfree rfl
  constructor
  · rintro hdesc rfl
    cases hread : ((s.core p).upset bad).scratchRead (4 + e) q.scratch 64 with
    | error f => exact congrArg Host.Outcome.next (doDescriptorStart_ue hp he hbusy hheld hwork hqueue hfree fixed hdesc hread)
    | ok bs =>
      have hstart := doDescriptorStart_read hp he hbusy hheld hwork hqueue hfree fixed hdesc hread
      simp only [State.startRead_eq] at hstart
      exact congrArg Host.Outcome.next hstart
  · intro hdesc
    exact congrArg Host.Outcome.next
      ((doDescriptorStart_held hp he hbusy hheld hwork hqueue hfree fixed bad hdesc).trans (State.startRead_eq ..))

end Sys2Proof.Machine

/-! PROOFS. Jobs from dispatch to completion: task tables, plans, barriers, restarts and records (R113 to R116, R144 to R147, R250,
R347, R366, R370, R414). -/

namespace Sys2Proof.Machine

/-! ### Dispatch (R347, R366) -/

section
variable {s : State} {i q : Nat} {j : Job} {es : List (List Byte)} {ts : List Task}
  (hwork : s.working = true) (hjob : s.job? i q = some j) (hphase : j.phase = .accepted) (hend : j.endStatus = none)
  (hstart : j.start ≤ s.tb.count) (hfree : s.fieldsFree j = true) (hneed : s.neededNow j = false) (hpins : s.pinsResident j = true)
  (hrows : j.allWithdrawn = false)
  (hes : es = (List.range j.nTasks).map fun k => slice (s.panReadG j.taskTable (128 * j.nTasks)) (128 * k) 128) (hts : ts = es.map taskOf)
include hwork hjob hphase hend hstart hfree hneed hpins hrows hes hts

/-- A task table that breaks R366, or that or a program of which holds an uncorrectable block, ends the job. -/
theorem doDispatch_taskFault (hbad : es.all (s.taskOk j) = false ∨ s.badG j.taskTable (128 * j.nTasks) = true ∨
      distinct (ts.map fun t => (t.fieldSlot, t.logical)) = false ∨ (ts.any fun t => s.badG t.prog (8 * t.words)) = true) :
    doDispatch i q s = s.endJob i q stTaskFault := by
  have hcheck : (s.badG j.taskTable (128 * j.nTasks) || !es.all (s.taskOk j) || !distinct (ts.map fun t => (t.fieldSlot, t.logical)) ||
      ts.any fun t => s.badG t.prog (8 * t.words)) = true := by
    obtain h | h | h | h := hbad <;> simp [h]
  subst hts hes
  simp only [doDispatch, hwork, hjob, hphase, hend, hfree, hneed, hpins, hrows, Nat.not_lt.2 hstart, hcheck, ne_eq, not_true_eq_false,
    Option.isSome_none, Bool.false_eq_true, Bool.true_eq_false, or_self, if_false, if_true]

variable (hok : es.all (s.taskOk j) = true) (htable : s.badG j.taskTable (128 * j.nTasks) = false)
  (hdist : distinct (ts.map fun t => (t.fieldSlot, t.logical)) = true) (hprog : (ts.any fun t => s.badG t.prog (8 * t.words)) = false)
include hok htable hdist hprog

/-- A table that passes: cores in retention are woken first, and the tasks start once their cores are ready. -/
theorem doDispatch_passed : doDispatch i q s =
    if s.retained j ts ≠ [] then (s.retained j ts).foldl State.wake s
    else if s.coresReady j ts = false then s
    else
      let u := if j.any then s.memWrite i j.fieldList (padTo 128 (j.fields.map (BitVec.ofNat 8))) else s
      let v := if j.rows = 0 then u else u.memWrite i j.sheaf (u.sheafTable j)
      let tasks := ts.zipIdx.map fun x => { x.1 with taskId := v.adm.nextTask + 1 + x.2 }
      ((State.updJob { v with adm := { v.adm with nextTask := v.adm.nextTask + tasks.length } } i q fun j =>
        { j with phase := .running, dispatchTb := v.tb.count, planAt := v.tb.count + 3000, barrierTb := v.tb.count, quantumOver := false,
                 tasks := tasks }).startTasks j tasks).trainState j 1 2 := by
  have hcheck : (s.badG j.taskTable (128 * j.nTasks) || !es.all (s.taskOk j) || !distinct (ts.map fun t => (t.fieldSlot, t.logical)) ||
      ts.any fun t => s.badG t.prog (8 * t.words)) = false := by
    simp [hok, htable, hdist, hprog]
  subst hts hes
  simp only [doDispatch, hwork, hjob, hphase, hend, hfree, hneed, hpins, hrows, Nat.not_lt.2 hstart, hcheck, ne_eq, not_true_eq_false,
    Option.isSome_none, Bool.false_eq_true, Bool.true_eq_false, or_self, if_false]

end

/-! ### Plans and the end of a task (R144, R145, R250) -/

section
variable {s : State} {p : Nat} (hwork : s.working = true) (hbusy : (s.core p).busy = true) (hheld : s.held (p / 11) = false)
include hwork hbusy hheld

theorem doTaskEnd_halted (hdrain : (s.core p).drained = true) (hwait : (s.core p).wait = .halt) :
    doTaskEnd p s = ((s.setCore p { s.core p with act := .idle, wait := .none }).updJob (s.core p).inst (s.core p).seq fun j =>
      j.updTask (s.core p).taskNo fun t => { t with halted := true, haltAt := j.barrier, sticky := (s.core p).sticky }).afterArrival
        (s.core p).inst (s.core p).seq := by
  simp only [doTaskEnd, hwork, hbusy, hheld, hdrain, hwait, ne_eq, not_true_eq_false, decide_false, Bool.not_true, Bool.or_false,
    Bool.false_eq_true, if_false]

section
variable {id : Nat} (hdrain : (s.core p).drained = true) (hwait : (s.core p).wait = .plan id)
include hdrain hwait

theorem doPlanRecordWrite_ue (hue : (s.core p).ueCause ≠ 0) :
    doPlanRecordWrite p s = s.coreFault p (s.core p).ueCause 0 (s.core p).pi (s.firstBad (s.core p).inst (s.core p).ueAddr) := by
  simp only [doPlanRecordWrite, hwork, hbusy, hheld, hdrain, hwait, hue, Bool.not_true, Bool.or_false, Bool.false_eq_true, if_false,
    ne_eq, not_false_eq_true, if_true]

variable (hue : (s.core p).ueCause = 0)
include hue

theorem doPlanRecordWrite_outside
    (haddr : s.addrOk (s.core p).inst (p / 11) .write (planCopy (s.core p).saveArea ((s.core p).planCount + 1)) 0x300 = false) :
    doPlanRecordWrite p s = s.coreFault p 1 0 (s.core p).pi (planCopy (s.core p).saveArea ((s.core p).planCount + 1)) := by
  simp only [doPlanRecordWrite, hwork, hbusy, hheld, hdrain, hwait, hue, haddr, Bool.not_true, Bool.or_false, Bool.false_eq_true,
    if_false, ne_eq, not_true_eq_false, Bool.not_false, if_true]

/-- One write of a plan record leaves core p for the column that its block lies in. -/
def State.sendRecord (p : Nat) (c : Core) (s : State) (w : CopyWrite) : State :=
  match s.place w.dst.toNat with
  | .pan r _ => s.send { id := 0, kind := .write, origin := .seq p, inst := c.inst, srcUnit := posUnit p 0, dstUnit := posUnit r 7,
                         addr := w.dst, n := w.data.length, seq := c.taskId, data := w.data }
  | _ => s

theorem doPlanRecordWrite_sent {ws : List CopyWrite}
    (haddr : s.addrOk (s.core p).inst (p / 11) .write (planCopy (s.core p).saveArea ((s.core p).planCount + 1)) 0x300 = true)
    (hws : ws = cutWrites 64 false 0x400 (BitVec.ofNat 64 (planCopy (s.core p).saveArea ((s.core p).planCount + 1)))
      ((s.core p).planRecord ((s.core p).planCount + 1) id)) :
    doPlanRecordWrite p s = ws.foldl (State.sendRecord p (s.core p))
      (s.setCore p { s.core p with planCount := (s.core p).planCount + 1, wait := .planAck ws.length id }) := by
  subst hws
  simp only [doPlanRecordWrite, hwork, hbusy, hheld, hdrain, hwait, hue, haddr, Bool.not_true, Bool.or_false, Bool.false_eq_true,
    if_false, ne_eq, not_true_eq_false]
  rfl

end

theorem doBarrierArrival_acknowledged {id : Nat} {j : Job} (hwait : (s.core p).wait = .planAck 0 id)
    (hjob : s.job? (s.core p).inst (s.core p).seq = some j) :
    doBarrierArrival p s =
      if (j.planId.any (· ≠ id)) = true ∨ j.planBad id = true then s.coreFault p 2 0 (s.core p).pi 0
      else ((s.setCore p { s.core p with act := .waiting, wait := .planBarrier (s.core p).planCount }).updJob
        (s.core p).inst (s.core p).seq fun j =>
          { j.updTask (s.core p).taskNo (fun t => { t with arrived := true, k7 := (s.core p).k.getLsbD 7 }) with
            planId := some id }).afterArrival (s.core p).inst (s.core p).seq := by
  simp only [doBarrierArrival, hwork, hbusy, hheld, hwait, hjob, Bool.not_true, Bool.or_false, Bool.false_eq_true, if_false,
    Bool.or_eq_true]

end

/-! ### Barriers and restarts (R145 to R147, R414) -/

section
variable {s : State} {i q : Nat} {j : Job} (hwork : s.working = true) (hjob : s.job? i q = some j)
include hwork hjob

theorem doBarrierComplete_free (hphase : j.phase = .running) (hend : j.endStatus = none) (harr : j.allArrived = true)
    (hheld : ∀ f ∈ j.fields, s.held f = false) (hrefresh : s.refreshDue j = false) (hfree : s.barrierFree j = true) :
    doBarrierComplete i q s = s.completeBarrier j := by
  have hany : j.fields.any s.held = false := by simpa using hheld
  simp only [doBarrierComplete, hwork, hjob, hphase, hend, harr, hany, hrefresh, hfree, ne_eq, not_true_eq_false, decide_false,
    Option.isSome_none, Bool.not_true, Bool.or_false, Bool.false_eq_true, if_false, if_true]

section
variable {ts : List Task} (hend : j.endStatus = none) (hstart : j.start ≤ s.tb.count) (hfree : s.fieldsFree j = true)
  (hneed : s.neededNow j = false) (hue : j.ue = none) (htasks : j.tasks ≠ []) (hts : ts = j.tasks.filter j.again)
  (hready : s.coresReady j ts = true)
  (hhung : (ts.any fun t => (s.taskPos j t).any fun p => (s.core p).hungAt.isSome || s.mgt.fenceReq = some p) = false)
include hend hstart hfree hneed hue htasks hts hready hhung

/-- The fifth restart from one barrier ends the job. -/
theorem doTaskRestart_fifth (hstop : j.phase = .stopped) (hfour : 4 ≤ j.restarts) :
    doTaskRestart i q s = s.endJob i q (if j.hostFault = true then 0x77 else stTaskFault) := by
  subst hts
  simp only [doTaskRestart, hwork, hjob, hstop, hend, hfree, hneed, hue, hready, hhung, hfour, htasks, Nat.not_lt.2 hstart,
    List.isEmpty_iff, Option.isSome_none, Option.any_none, ne_eq, not_true_eq_false, false_and, Bool.false_eq_true,
    Bool.true_eq_false, or_self, if_false, and_self, if_true]

/-- A job without a training record, whose semaphores are cleared, resumes its tasks from its last barrier. -/
theorem doTaskRestart_resumes (hphase : j.phase = .stopped ∨ j.phase = .sliced) (hfour : j.phase = .stopped → j.restarts < 4)
    (hpos : (ts.any fun t => (s.taskPos j t).isNone) = false)
    (hsound : (ts.any fun t => s.badG t.prog (8 * t.words) || (j.barrier ≠ 0 && s.badG (planCopy t.save j.barrier) 0x300)) = false)
    (hawake : s.retained j ts = []) (htrain : j.train = none) :
    doTaskRestart i q s = (j.tasks.zipIdx.filter fun x => j.again x.1).foldl (fun t x => t.restartTask j x.2 x.1)
      ((s.semClear (s.semIn i j.semBase j.semCount)).updJob i q fun k => { k with
        phase := .running, slicedFor := none, dispatchTb := s.tb.count, planAt := s.tb.count + 3000, barrierTb := s.tb.count
        quantumOver := false, planId := none, arriveSent := false, ue := none
        restarts := if j.phase = .stopped then k.restarts + 1 else k.restarts
        tasks := k.tasks.map fun t => if k.again t = true then { t with arrived := false, halted := false } else t }) := by
  have hresting : ¬(j.phase ≠ .stopped ∧ j.phase ≠ .sliced) := by
    rintro ⟨hstop, hslice⟩
    exact hphase.elim hstop hslice
  have hfew : ¬(j.phase = .stopped ∧ 4 ≤ j.restarts) := fun h => Nat.not_le.2 (hfour h.1) h.2
  subst hts
  simp only [doTaskRestart, hwork, hjob, hresting, hfew, hend, hfree, hneed, hue, hready, hhung, htasks, hpos, hsound, hawake, htrain,
    Nat.not_lt.2 hstart, List.isEmpty_iff, Option.isSome_none, Option.any_none, ne_eq, not_true_eq_false, Bool.false_eq_true,
    Bool.true_eq_false, or_self, if_false]

end

theorem doJobComplete_drained (hdone : (j.phase = .running ∧ j.tasks.all (·.halted) = true) ∨ j.endStatus ≠ none)
    (hdrain : s.jobDrained i q = true) :
    doJobComplete i q s =
      let status := j.endStatus.getD (if j.allWithdrawn = true then stWithdrawn else 0)
      let gone := (j.withdrawn.filter fun r => decide (r < j.rows)).length
      let t := s.writeRecord j .done (recordHead status j.cls j.tag s.tb.count (if status = 0 then j.rows - gone else 0) gone
        ((j.tasks.filter (·.halted)).foldl (fun v t => v ||| t.sticky.toNat) 0))
      (j.pins.foldl State.unpin { t with jobs := t.jobs.filter fun k => !(k.inst = i && k.seq = q) }).endTraining j := by
  have hgo : ((!(decide (j.phase = .running) && j.tasks.all (·.halted)) && j.endStatus.isNone) || !s.jobDrained i q || !s.working) =
      false := by
    obtain ⟨hrun, hhalt⟩ | hend := hdone
    · simp [hrun, hhalt, hdrain, hwork]
    · simp [Option.isNone_eq_false_iff.2 (Option.isSome_iff_ne_none.2 hend), hdrain, hwork]
  simp only [doJobComplete, hjob, hgo, Bool.false_eq_true, if_false]

end

/-- Settles O46: each command by the lemma for its outcome. -/
theorem jobsRunAndComplete : Obligations.JobsRunAndComplete := by
  intro s hwork
  refine ⟨fun i q j es ts hjob hphase hend hstart hfree hneed hpins hrows hes hts => ⟨fun hbad => ?fault, ?passed⟩, ?task, ?arrival,
    fun i q j hjob => ⟨?barrier, ?restart, ?complete⟩⟩
  case fault =>
    exact congrArg Host.Outcome.next
      (doDispatch_taskFault hwork hjob hphase hend hstart hfree hneed hpins hrows hes hts hbad)
  case passed =>
    intro hok htable hdist hprog
    have hdispatch := doDispatch_passed hwork hjob hphase hend hstart hfree hneed hpins hrows hes hts hok htable hdist hprog
    refine ⟨fun hasleep => congrArg Host.Outcome.next (hdispatch.trans (if_pos hasleep)), ?_⟩
    rintro _ _ _ hawake hready rfl rfl rfl
    exact congrArg Host.Outcome.next
      ((hdispatch.trans (if_neg (not_not.2 hawake))).trans (if_neg (ne_false_of_eq_true hready)))
  case task =>
    rintro p _ rfl hbusy hdrain hheld
    refine ⟨fun hwait => congrArg Host.Outcome.next (doTaskEnd_halted hwork hbusy hheld hdrain hwait), fun id hwait =>
      ⟨fun hue => congrArg Host.Outcome.next (doPlanRecordWrite_ue hwork hbusy hheld hdrain hwait hue), fun hue haddr =>
        congrArg Host.Outcome.next (doPlanRecordWrite_outside hwork hbusy hheld hdrain hwait hue haddr), fun ws hue haddr hws => ?_⟩⟩
    exact congrArg Host.Outcome.next (doPlanRecordWrite_sent hwork hbusy hheld hdrain hwait hue haddr hws)
  case arrival =>
    rintro p id _ j rfl hbusy hheld hwait hjob
    exact congrArg Host.Outcome.next (doBarrierArrival_acknowledged hwork hbusy hheld hwait hjob)
  case barrier =>
    intro hphase hend harr hheld hrefresh hfree
    exact congrArg Host.Outcome.next (doBarrierComplete_free hwork hjob hphase hend harr hheld hrefresh hfree)
  case restart =>
    intro ts hphase hend hstart hfree hneed hue htasks hts hready hhung
    refine ⟨fun hstop hfour => congrArg Host.Outcome.next
      (doTaskRestart_fifth hwork hjob hend hstart hfree hneed hue htasks hts hready hhung hstop hfour), ?_⟩
    rintro _ _ hfour hpos hsound hawake htrain rfl rfl
    exact congrArg Host.Outcome.next (doTaskRestart_resumes hwork hjob hend hstart hfree hneed hue htasks hts hready hhung hphase hfour
      hpos hsound hawake htrain)
  case complete =>
    rintro _ _ _ hdone hdrain rfl rfl rfl
    exact congrArg Host.Outcome.next (doJobComplete_drained hwork hjob hdone hdrain)

end Sys2Proof.Machine

/-! PROOFS. The control class and PLAN: a word with no defined class and operation, writes of address registers and counters, and
branches, calls and stops (R117 to R119, R123, R124, R141, R144, R145). -/

namespace Sys2Proof.Machine

/-! ### A word with no defined class and operation (R123, R124) -/

theorem issue_undefined {s : State} {p cls op : Nat} {ops : BitVec 56} {body : State → Core → Except IFault State}
    (hissue : s.canIssue p = true) (hundef : opDefined (bits (s.core p).word 63 60) (bits (s.core p).word 59 56) = false) :
    issue s p cls op ops body = s.coreFault p 2 0 (s.core p).pi 0 := by
  simp only [issue, hissue, hundef, Bool.not_true, Bool.not_false, Bool.false_eq_true, if_false, if_true]

/-- Settles O13: the fault is taken before the word is compared with the command, so it is the same for each of them. -/
theorem undefinedWordFaults : Obligations.UndefinedWordFaults := by
  intro s p ops hissue hundef i hmem
  have hfault (cls op : Nat) (o : BitVec 56) (body : Core → Except IFault Core) :
      issueCore s p cls op o body = s.coreFault p 2 0 (s.core p).pi 0 := issue_undefined hissue hundef
  simp only [List.mem_cons, List.not_mem_nil, or_false] at hmem
  rcases hmem with rfl | rfl | rfl | rfl | rfl | rfl | rfl | rfl | rfl | rfl | rfl | rfl | rfl | rfl | rfl | rfl <;>
  exact congrArg Host.Outcome.next (hfault ..)

/-! ### Address registers and counters (R118, R141) -/

theorem setaBody_ok {ops : BitVec 56} {c : Core} (hf : onlyFields ops.toNat [(55, 51), (50, 50), (31, 0)] = true) :
    setaBody ops c = .ok (c.advance.setA (fld ops 55 51) (BitVec.ofNat 64
      (if fld ops 50 50 = 1 then (c.areg (fld ops 55 51)).toNat % 2 ^ 32 + fld ops 31 0 * 2 ^ 32 else fld ops 31 0))) := by
  simp only [setaBody, hf, require_true, Except.ok_bind, bit_eq_fld, decide_eq_true_eq]
  rfl

theorem addaBody_ok {ops : BitVec 56} {c : Core} (hf : onlyFields ops.toNat [(55, 51), (50, 46), (31, 0)] = true) :
    addaBody ops c = .ok (c.advance.setA (fld ops 55 51)
      (c.areg (fld ops 50 46) + BitVec.ofInt 64 (sext 32 (fld ops 31 0)))) := by
  simp only [addaBody, hf, require_true]
  rfl

theorem addarBody_ok {ops : BitVec 56} {c : Core} (hf : onlyFields ops.toNat [(55, 51), (50, 46), (45, 41)] = true) :
    addarBody ops c = .ok (c.advance.setA (fld ops 55 51) (c.areg (fld ops 50 46) + c.areg (fld ops 45 41))) := by
  simp only [addarBody, hf, require_true]
  rfl

theorem setcBody_ok {ops : BitVec 56} {c : Core} (hf : onlyFields ops.toNat [(55, 52), (31, 0)] = true) :
    setcBody ops c = .ok (c.advance.setC (fld ops 55 52) (fld ops 31 0)) := by
  simp only [setcBody, hf, require_true]
  rfl

/-- An address register other than a0 reads what was written. -/
theorem Core.areg_setA {c : Core} {r : Nat} (v : Word) (hr : r ≠ 0) (hs : Tab.sorted c.a = true) : (c.setA r v).areg r = v := by
  rw [Core.setA, if_neg hr, Core.areg, if_neg hr]
  exact Tab.get_put_self hs

/-- Settles O10: each body is the write it makes; a0, the sums and the check of an operand are by definition. -/
theorem addressAndCounterWrites : Obligations.AddressAndCounterWrites := by
  intro s p ops
  refine ⟨fun hat hf => ?seta, fun hat hf => ?adda, fun hat hf => ?addar, fun hat hf => ?setc,
    fun c v => ⟨c.setA_zero v, c.areg_zero, fun _ hr hs => Core.areg_setA v hr hs⟩, BitVec.toNat_add, fun _ _ _ _ _ _ => rfl⟩
  case seta => exact congrArg Host.Outcome.next (issueCore_at hat (by decide) (by decide) rfl (setaBody_ok hf))
  case adda => exact congrArg Host.Outcome.next (issueCore_at hat (by decide) (by decide) rfl (addaBody_ok hf))
  case addar => exact congrArg Host.Outcome.next (issueCore_at hat (by decide) (by decide) rfl (addarBody_ok hf))
  case setc => exact congrArg Host.Outcome.next (issueCore_at hat (by decide) (by decide) rfl (setcBody_ok hf))

/-! ### Branches, calls and stops (R141, R144, R145) -/

theorem target_ok {ops : BitVec 56} (ht : fld ops 19 0 < 8192) : target ops.toNat = .ok (fld ops 19 0) := if_pos ht

theorem brBody_ok {ops : BitVec 56} {c : Core} (hf : onlyFields ops.toNat [(55, 54), (53, 50), (19, 0)] = true)
    (ht : fld ops 19 0 < 8192) (hsel : fld ops 55 54 = 0 ∨ fld ops 55 54 = 3 ∨ fld ops 53 50 ≤ 7) :
    brBody ops c = .ok { c with
      pi := if fld ops 55 54 = 0 ∨ (fld ops 55 54 = 1 ∧ c.k.getLsbD (fld ops 53 50) = true) ∨
               (fld ops 55 54 = 2 ∧ c.k.getLsbD (fld ops 53 50) = false) ∨ (fld ops 55 54 = 3 ∧ c.creg (fld ops 53 50) = 1)
            then fld ops 19 0 else (c.pi + 1) % 8192 } := by
  have hcond : fld ops 55 54 < 4 := Nat.mod_lt _ (by decide)
  have hreq : (decide (fld ops 55 54 = 0) || decide (fld ops 55 54 = 3) || decide (fld ops 53 50 ≤ 7)) = true := by
    simpa [or_assoc] using hsel
  rw [fld, fld] at hreq
  simp only [brBody, hf, target_ok ht, hreq, require_true, Except.ok_bind]
  refine congrArg Except.ok ((if_congr ?taken rfl rfl).trans (apply_ite (fun i => { c with pi := i }) _ _ _).symm)
  change (if fld ops 55 54 = 0 then true else if fld ops 55 54 = 1 then c.kbit (fld ops 53 50)
    else if fld ops 55 54 = 2 then !c.kbit (fld ops 53 50) else decide (c.creg (fld ops 53 50) = 1)) = true ↔ _
  obtain h | h | h | h : fld ops 55 54 = 0 ∨ fld ops 55 54 = 1 ∨ fld ops 55 54 = 2 ∨ fld ops 55 54 = 3 := by omega
  all_goals simp [h, Core.kbit]

theorem loopBody_ok {ops : BitVec 56} {c : Core} (hf : onlyFields ops.toNat [(55, 52), (19, 0)] = true)
    (ht : fld ops 19 0 < 8192) :
    loopBody ops c = .ok { c with
      c := Tab.put 0 (fld ops 55 52) (BitVec.ofNat 32 (c.creg (fld ops 55 52) - 1)) c.c
      pi := if 2 ≤ c.creg (fld ops 55 52) then fld ops 19 0 else (c.pi + 1) % 8192 } := by
  have hmore : c.creg (fld ops 55 52) - 1 ≠ 0 ↔ 2 ≤ c.creg (fld ops 55 52) := by omega
  simp only [loopBody, hf, target_ok ht, require_true, Except.ok_bind]
  exact congrArg Except.ok ((if_congr hmore rfl rfl).trans
    (apply_ite (fun i => { c.setC (fld ops 55 52) (c.creg (fld ops 55 52) - 1) with pi := i }) _ _ _).symm)

/-- A ninth entry of the call stack is undefined. -/
theorem callBody_eq {ops : BitVec 56} {c : Core} (hf : onlyFields ops.toNat [(19, 0)] = true) (ht : fld ops 19 0 < 8192) :
    callBody ops c = if c.stack.length < 8
      then .ok { c with stack := c.stack ++ [(c.pi + 1) % 8192], pi := fld ops 19 0 } else .error (illegal 0) := by
  simp only [callBody, hf, Bool.true_and]
  split
  next hroom => rw [decide_eq_true hroom, require_true, Except.ok_bind, target_ok ht, Except.ok_bind]
  next hfull => rw [decide_eq_false hfull, require_false, Except.error_bind]

theorem retBody_append {c : Core} {k : Nat} {rest : List Nat} (hstack : c.stack = rest ++ [k]) :
    retBody 0 c = .ok { c with stack := rest, pi := k } := by
  have hreq : (decide ((0 : BitVec 56).toNat = 0) && !c.stack.isEmpty) = true := by simp [hstack]
  simp only [retBody, hreq, require_true, Except.ok_bind]
  simp only [hstack, List.dropLast_concat, List.getLast?_concat, Option.getD_some]

theorem retBody_empty {c : Core} (hstack : c.stack = []) : retBody 0 c = .error (illegal 0) := by
  simp [retBody, hstack]

theorem haltBody_zero (c : Core) : haltBody 0 c = .ok { c with wait := .halt } := rfl

/-- An uncorrectable block that the task consumed faults at PLAN (R410). -/
theorem planBody_eq {ops : BitVec 56} {c : Core} (hf : onlyFields ops.toNat [(55, 40)] = true) :
    planBody ops c = if c.ueCause = 0 then .ok { c with wait := .plan (fld ops 55 40) } else .error ⟨c.ueCause, 0, c.ueAddr⟩ := by
  simp only [planBody, hf, require_true, Except.ok_bind]
  exact ite_not ..

/-- Settles O11: each body is its move, or the fault of its stack or of the block its task consumed. -/
theorem branchesCallsAndStops : Obligations.BranchesCallsAndStops := by
  intro s p ops
  refine ⟨fun hat hf ht hsel => ?br, fun hat hf ht => ?loop, fun hat hf ht => ?call,
    fun hat => ⟨fun k rest hstack => ?ret, fun hempty => ?retEmpty⟩, fun hat => ?halt, fun hat hf => ?plan⟩
  case br => exact congrArg Host.Outcome.next (issueCore_at hat (by decide) (by decide) rfl (brBody_ok hf ht hsel))
  case loop => exact congrArg Host.Outcome.next (issueCore_at hat (by decide) (by decide) rfl (loopBody_ok hf ht))
  case call =>
    have hbody := callBody_eq (c := s.core p) hf ht
    split
    next hroom => exact congrArg Host.Outcome.next (issueCore_at hat (by decide) (by decide) rfl (hbody.trans (if_pos hroom)))
    next hfull => exact congrArg Host.Outcome.next (issueCore_fault hat (by decide) (by decide) rfl (hbody.trans (if_neg hfull)))
  case ret => exact congrArg Host.Outcome.next (issueCore_at hat (by decide) (by decide) rfl (retBody_append hstack))
  case retEmpty => exact congrArg Host.Outcome.next (issueCore_fault hat (by decide) (by decide) rfl (retBody_empty hempty))
  case halt => exact congrArg Host.Outcome.next (issueCore_at hat (by decide) (by decide) rfl (haltBody_zero _))
  case plan =>
    have hbody := planBody_eq (c := s.core p) hf
    split
    next hclean => exact congrArg Host.Outcome.next (issueCore_at hat (by decide) (by decide) rfl (hbody.trans (if_pos hclean)))
    next hue =>
      have hfault := issueCore_fault hat (by decide) (by decide) rfl (hbody.trans (if_neg hue))
      exact congrArg Host.Outcome.next hfault

end Sys2Proof.Machine

/-! PROOFS. Full/empty operations: their issue and reissue, and what their column controller does with them (R140, R322 to R324). -/

namespace Sys2Proof.Machine

/-! ### Issue and reissue (R140, R322, R324) -/

theorem State.feSend_outside {s : State} {p : Nat} {c : Core} {op : FeOp} (h : s.feTarget p c op.addr = none) :
    s.feSend p c op = .error ⟨1, 0, op.addr.toNat⟩ := by
  simp only [State.feSend, h]

theorem State.feSend_sent {s : State} {p q off : Nat} {c : Core} {op : FeOp} (h : s.feTarget p c op.addr = some (q, off))
    (hue : op.load = true ∨ c.readUe op.line 64 = false) :
    s.feSend p c op = .ok ((s.setCore p { c with act := .waiting, wait := .fe op }).send
      { id := 0, kind := .fe, origin := .seq p, inst := c.inst, srcUnit := posUnit p 0, dstUnit := posUnit q 7,
        addr := op.addr, n := 64, seq := c.taskId, data := if op.load = true then [] else c.bytes op.line 64, fe := some op }) := by
  simp only [State.feSend, h]
  split
  next hload => rfl
  next hstore => rw [Core.scratchRead_sound 0 (hue.resolve_left hstore)]; rfl

/-- The bits that must be zero are, of which a store has KEEP too, and the line lies in the scratchpad. -/
theorem feBody_eq {p a : Nat} {load : Bool} {ops : BitVec 56} {s : State} {c : Core} (hres : fld ops 44 20 = 0)
    (hkeep : load = true ∨ fld ops 45 45 = 0) (hline : c.scratchOp 0 (fld ops 50 46) (fld ops 19 0) 64 64 = .ok a) :
    feBody p load ops.toNat s c =
      s.feSend p c { load := load, addr := c.areg (fld ops 55 51), line := a, keep := decide (fld ops 45 45 = 1) } := by
  have hreq : (decide (fld ops 44 20 = 0) && (load || !decide (fld ops 45 45 = 1))) = true := by
    obtain rfl | h45 := hkeep
    · simp [hres]
    · simp [hres, h45]
  rw [fld] at hreq
  rw [fld, fld] at hline
  simp only [feBody, bit_eq_fld, hreq, hline, require_true, Except.ok_bind]
  rfl

theorem doFeRetry_sent {s : State} {p due q off : Nat} {op : FeOp} (hwait : (s.core p).wait = .feRetry due op)
    (hdue : due ≤ s.tb.count) (hheld : s.held (p / 11) = false) (hwork : s.working = true)
    (htarget : s.feTarget p (s.core p) op.addr = some (q, off)) (hue : op.load = true ∨ (s.core p).readUe op.line 64 = false) :
    doFeRetry p s = (s.setCore p { s.core p with act := .waiting, wait := .fe op }).send
      { id := 0, kind := .fe, origin := .seq p, inst := (s.core p).inst, srcUnit := posUnit p 0, dstUnit := posUnit q 7,
        addr := op.addr, n := 64, seq := (s.core p).taskId, data := if op.load = true then [] else (s.core p).bytes op.line 64
        fe := some op } := by
  simp only [doFeRetry, hwait, Nat.not_lt.2 hdue, hheld, hwork, State.feSend_sent htarget hue, decide_false, Bool.not_true,
    Bool.or_false, Bool.false_eq_true, if_false]

/-! ### What sending and taking a token leave -/

/-- What depends on neither the channels nor the counters is as it was when a token has been sent. -/
theorem State.of_send {α : Type} (f : State → α)
    (hf : ∀ (s : State) net nextTok obs, f { s with net := net, nextTok := nextTok, obs := obs } = f s) (s : State) (t : Token) :
    f (s.send t) = f s :=
  calc f (s.send t) = f { s.send t with net := s.net, nextTok := s.nextTok, obs := s.obs } := (hf _ _ _ _).symm
    _ = f s := by rw [(s.send_frame t).1]

theorem State.of_wakeCore {α : Type} (f : State → α)
    (hf : ∀ (s : State) net nextTok obs, f { s with net := net, nextTok := nextTok, obs := obs } = f s)
    (s : State) (unit p inst taskId : Nat) : f (s.wakeCore unit p inst taskId) = f s := State.of_send f hf s _

/-- The wake token is on its way to the core's sequencer. -/
theorem State.wakeCore_net (s : State) (unit p inst taskId : Nat) :
    ∃ x ∈ (s.wakeCore unit p inst taskId).net, x.kind = .wake ∧ x.origin = .seq p ∧ x.dstUnit = posUnit p 0 ∧ x.seq = taskId := by
  rw [State.wakeCore, (State.send_frame _ _).2]
  exact ⟨_, List.mem_append_right _ (List.mem_singleton_self _), rfl, rfl, rfl, rfl⟩

@[simp] theorem State.cores_take (s : State) (t : Token) : (s.take t).cores = s.cores :=
  State.of_take State.cores (fun _ _ _ => rfl) s t
@[simp] theorem State.core_take (s : State) (t : Token) (p : Nat) : (s.take t).core p = s.core p :=
  State.of_take (fun s => s.core p) (fun _ _ _ => rfl) s t
@[simp] theorem State.tags_take (s : State) (t : Token) : (s.take t).tags = s.tags := State.of_take State.tags (fun _ _ _ => rfl) s t
@[simp] theorem State.pan_take (s : State) (t : Token) : (s.take t).pan = s.pan := State.of_take State.pan (fun _ _ _ => rfl) s t
@[simp] theorem State.sem_take (s : State) (t : Token) : (s.take t).sem = s.sem := State.of_take State.sem (fun _ _ _ => rfl) s t
@[simp] theorem State.gran_take (s : State) (t : Token) : (s.take t).gran = s.gran := State.of_take State.gran (fun _ _ _ => rfl) s t
@[simp] theorem State.feWaiters_take (s : State) (t : Token) : (s.take t).feWaiters = s.feWaiters :=
  State.of_take State.feWaiters (fun _ _ _ => rfl) s t
@[simp] theorem State.tb_take (s : State) (t : Token) : (s.take t).tb = s.tb := State.of_take State.tb (fun _ _ _ => rfl) s t
@[simp] theorem State.region_take (s : State) (t : Token) (r : Nat) : (s.take t).region r = s.region r :=
  State.of_take (fun s => s.region r) (fun _ _ _ => rfl) s t
@[simp] theorem State.place_take (s : State) (t : Token) (a : Nat) : (s.take t).place a = s.place a :=
  State.of_take (fun s => s.place a) (fun _ _ _ => rfl) s t
@[simp] theorem State.panKey_take (s : State) (t : Token) (q off : Nat) : (s.take t).panKey q off = s.panKey q off :=
  State.of_take (fun s => s.panKey q off) (fun _ _ _ => rfl) s t
@[simp] theorem State.panRead_take (s : State) (t : Token) (q off n : Nat) : (s.take t).panRead q off n = s.panRead q off n :=
  State.of_take (fun s => s.panRead q off n) (fun _ _ _ => rfl) s t

/-! ### One operation performed (R140, R323) -/

/-- What a pan write makes of pan DRAM depends on pan DRAM and the map of the columns alone. -/
theorem State.pan_panWrite_congr {s u : State} (hpan : u.pan = s.pan) (hkey : u.panKey = s.panKey) (q off : Nat) (bs : List Byte) :
    (u.panWrite q off bs).pan = (s.panWrite q off bs).pan := by
  induction bs generalizing s u off with
  | nil => exact hpan
  | cons b bs ih =>
    have hput : (u.panPut q off b).pan = (s.panPut q off b).pan := by
      unfold State.panPut
      rw [hkey]
      split
      · exact congrArg (Tab.put 0 _ b) hpan
      · exact hpan
    rw [State.panWrite_cons, State.panWrite_cons]
    exact ih hput (by rw [State.panPut_panKey, State.panPut_panKey, hkey]) (off + 1)

/-- What does not depend on pan DRAM is as it was when a column has been written. -/
theorem State.of_panWrite {α : Type} (f : State → α) (hf : ∀ (s : State) pan, f { s with pan := pan } = f s)
    (s : State) (q off : Nat) (bs : List Byte) : f (s.panWrite q off bs) = f s :=
  (hf _ s.pan).symm.trans (congrArg f (s.panWrite_frame q off bs))

/-- A range of the scratchpad reads back the bytes written to it. -/
theorem Core.bytes_write {c : Core} (hwf : c.scratchWf) (hue : c.ueWords = []) (a : Nat) (bs : List Byte) :
    (c.write a bs).bytes a bs.length = bs := by
  rw [Core.write_eq_putBytes hue]
  apply List.ext_getElem
  · simp [Core.bytes]
  · intro i hi hb
    simp only [Core.bytes, List.getElem_map, List.getElem_range, Core.byte_putBytes hwf, Nat.add_sub_cancel_left]
    rw [if_pos (by omega), List.getD_eq_getElem _ _ hb]

section
variable {s : State} {q off : Nat} {w : FeWaiter}

/-- The state once the block of a load has been put into its line: the core consumes an uncorrectable block with it. -/
def State.feLoaded (s : State) (q off : Nat) (w : FeWaiter) : State :=
  s.updCore w.p fun c =>
    let ue := Tab.get false s.panUe (s.tagNo q off)
    { c.write w.op.line (s.panRead q off 64) with
      ueCause := if (ue && decide (c.ueCause = 0)) = true then 7 else c.ueCause
      ueAddr := if (ue && decide (c.ueCause = 0)) = true then w.op.addr.toNat else c.ueAddr }

theorem State.fePerform_load (hload : w.op.load = true) :
    s.fePerform q off w = (if w.op.keep = true then s.feLoaded q off w
      else { s.feLoaded q off w with tags := Tab.put false (s.tagNo q off) false s.tags }).wakeCore (posUnit q 7) w.p w.inst w.taskId := by
  simp only [State.fePerform, hload, if_true]
  rfl

theorem State.fePerform_store (hstore : w.op.load = false) :
    s.fePerform q off w = ({ s.panWrite q off w.data with
      tags := Tab.put false (s.tagNo q off) true s.tags
      panUe := Tab.put false (s.tagNo q off) false s.panUe } : State).wakeCore (posUnit q 7) w.p w.inst w.taskId := by
  simp only [State.fePerform, hstore, Bool.false_eq_true, if_false, State.of_panWrite State.tags fun _ _ => rfl,
    State.of_panWrite State.panUe fun _ _ => rfl]

/-- What depends on neither the cores nor pan DRAM with its tags and uncorrectable blocks, nor on the channels and counters, is as it
was when an operation has been performed. -/
theorem State.of_fePerform {α : Type} (f : State → α)
    (hf : ∀ (s : State) cores pan tags panUe net nextTok obs, f { s with
      cores := cores, pan := pan, tags := tags, panUe := panUe, net := net, nextTok := nextTok, obs := obs } = f s)
    (s : State) (q off : Nat) (w : FeWaiter) : f (s.fePerform q off w) = f s := by
  cases hload : w.op.load with
  | true =>
    rw [State.fePerform_load hload, State.of_wakeCore f fun s => hf s _ _ _ _]
    split
    · exact hf s _ s.pan s.tags s.panUe s.net s.nextTok s.obs
    · exact hf s _ s.pan _ s.panUe s.net s.nextTok s.obs
  | false =>
    rw [State.fePerform_store hload, State.of_wakeCore f fun s => hf s _ _ _ _]
    exact (hf (s.panWrite q off w.data) _ _ _ _ _ _ _).trans (State.of_panWrite f (fun s pan => hf s _ pan _ _ _ _ _) ..)

theorem State.tags_fePerform_load (hload : w.op.load = true) :
    (s.fePerform q off w).tags = if w.op.keep = true then s.tags else Tab.put false (s.tagNo q off) false s.tags := by
  rw [State.fePerform_load hload, State.of_wakeCore State.tags fun _ _ _ _ => rfl]
  exact apply_ite State.tags ..

theorem State.tags_fePerform_store (hstore : w.op.load = false) :
    (s.fePerform q off w).tags = Tab.put false (s.tagNo q off) true s.tags := by
  rw [State.fePerform_store hstore, State.of_wakeCore State.tags fun _ _ _ _ => rfl]

/-- A load empties the tag of its block unless KEEP, and a store fills it. -/
theorem State.tag_fePerform (hs : Tab.sorted s.tags = true) (hfits : Tab.get false s.tags (s.tagNo q off) = w.op.load) :
    Tab.get false (s.fePerform q off w).tags (s.tagNo q off) = if w.op.load = true then w.op.keep else true := by
  cases hload : w.op.load with
  | true =>
    rw [State.tags_fePerform_load hload, if_pos rfl]
    split
    next hkeep => rw [hfits, hload, hkeep]
    next hkeep => rw [Tab.get_put_self hs, Bool.eq_false_iff.2 hkeep]
  | false =>
    rw [State.tags_fePerform_store hload]
    exact Tab.get_put_self hs

theorem State.pan_fePerform_load (hload : w.op.load = true) : (s.fePerform q off w).pan = s.pan := by
  rw [State.fePerform_load hload, State.of_wakeCore State.pan fun _ _ _ _ => rfl]
  split <;> rfl

theorem State.pan_fePerform_store (hstore : w.op.load = false) : (s.fePerform q off w).pan = (s.panWrite q off w.data).pan := by
  rw [State.fePerform_store hstore, State.of_wakeCore State.pan fun _ _ _ _ => rfl]

/-- The line of a load reads back the block. -/
theorem State.bytes_fePerform_load (hload : w.op.load = true) (hs : Tab.sorted s.cores = true) (hwf : (s.core w.p).scratchWf)
    (hue : (s.core w.p).ueWords = []) : ((s.fePerform q off w).core w.p).bytes w.op.line 64 = s.panRead q off 64 := by
  have hlen : (s.panRead q off 64).length = 64 := by simp [State.panRead]
  have hcore : (s.fePerform q off w).core w.p = (s.feLoaded q off w).core w.p := by
    rw [State.fePerform_load hload, State.of_wakeCore (fun s => s.core w.p) fun _ _ _ _ => rfl]
    split <;> rfl
  rw [hcore, State.feLoaded, State.core_updCore hs]
  calc ((s.core w.p).write w.op.line (s.panRead q off 64)).bytes w.op.line 64
      = ((s.core w.p).write w.op.line (s.panRead q off 64)).bytes w.op.line (s.panRead q off 64).length := by rw [hlen]
    _ = s.panRead q off 64 := Core.bytes_write hwf hue ..

theorem State.wake_fePerform (s : State) (q off : Nat) (w : FeWaiter) :
    ∃ x ∈ (s.fePerform q off w).net, x.kind = .wake ∧ x.origin = .seq w.p ∧ x.dstUnit = posUnit w.p 0 ∧ x.seq = w.taskId := by
  unfold State.fePerform
  exact State.wakeCore_net ..

/-- With no waiter of the block there is nothing to examine. -/
theorem State.feExamine_none (fuel : Nat) (hnone : ∀ x ∈ s.feWaiters, ¬(x.pos = q ∧ x.block = off / 64)) :
    State.feExamine q off fuel s = s := by
  cases fuel with
  | zero => rfl
  | succ fuel =>
    have hfind : (s.feWaiters.find? fun w => w.pos = q && w.block = off / 64 && s.feHolds (s.tagNo q off) w.op) = none := by
      refine List.find?_eq_none.2 fun x hx hholds => hnone x hx ?_
      simp only [Bool.and_eq_true, decide_eq_true_eq] at hholds
      exact hholds.1
    simp only [State.feExamine, hfind]

end

/-! ### The arrival of an operation (R324) -/

/-- An operation that reaches its column controller while its core still waits is performed, waits at the column, or is answered RETRY. -/
theorem doFeArrival_eq {s : State} {tok p q off k : Nat} {t : Token} {op : FeOp} (harr : s.arriving tok [.fe] = some t)
    (horig : t.origin = .seq p) (hfe : t.fe = some op) (hplace : s.place t.addr.toNat = .pan q off)
    (htrained : (Tab.get {} s.panCtl q).retraining = false) (hinst : s.fieldInst (p / 11) = some t.inst)
    (hwait : (s.take t).stillWaits p t.seq = true) (hkey : s.panKey q off = some k) :
    doFeArrival tok s =
      let w : FeWaiter := { block := off / 64, pos := q, p := p, inst := t.inst, taskId := t.seq, op := op, data := t.data }
      if Tab.get false s.tags (k / 64) = op.load then State.feExamine q off 33 ((s.take t).fePerform q off w)
      else if (s.feWaiters.filter fun x => x.pos = q).length < 32 then { s.take t with feWaiters := s.feWaiters ++ [w] }
      else (s.take t).updCore p fun c => { c with act := .running, wait := .feRetry (s.tb.count +
        (if (s.region (p / 11)).rate = 0 then 0 else ceilDiv (64 * 1000) (s.region (p / 11)).rate)) op } := by
  have htag : (s.take t).tagNo q off = k / 64 := by simp [State.tagNo, hkey]
  simp only [doFeArrival, harr, horig, hfe, hplace, htrained, hwait, hkey, htag, State.feHolds, State.place_take,
    State.fieldInst_take, State.panKey_take, State.tags_take, State.feWaiters_take, State.tb_take, State.region_take, hinst,
    ne_eq, not_true_eq_false, Bool.not_true, Bool.false_eq_true, Option.isNone_some, if_false, decide_eq_true_eq]

/-- Settles O27: issue and reissue by what they send; an arrival by its case, of which the one performed goes by what the operation
changes, as no waiter of its block is left to examine. -/
theorem fullEmptyOperations : Obligations.FullEmptyOperations := by
  refine ⟨?issue, ?arrival, ?retry⟩
  case issue =>
    rintro s p ops load _ a _ rfl hat hres hkeep ha hin hal rfl
    have hexec : exec (if load = true then .feLoad p ops else .feStore p ops) s =
        .next (issue s p 6 (if load = true then 4 else 5) ops (feBody p load ops.toNat)) := by
      cases load <;> rfl
    have hop : (if load = true then 4 else 5) < 16 ∧ opDefined 6 (if load = true then 4 else 5) = true := by
      cases load <;> decide
    rw [hexec, issue_at hat (by decide) hop.1 hop.2, feBody_eq hres hkeep (Core.scratchOp_inside 0 ha hin hal)]
    refine ⟨fun houtside => ?_, fun q off htarget hue => ?_⟩
    · rw [State.feSend_outside houtside]
    · rw [State.feSend_sent htarget hue]
  case arrival =>
    rintro s tok p q off k t op _ harr horig hfe hplace htrained hinst hwait hkey rfl
    have harrival := doFeArrival_eq harr horig hfe hplace htrained hinst hwait hkey
    have htag : (s.take t).tagNo q off = k / 64 := by simp [State.tagNo, hkey]
    refine ⟨fun hfits => congrArg Host.Outcome.next (harrival.trans (if_pos hfits)), fun hfits hnone => ?performed,
      fun hmiss hroom => congrArg Host.Outcome.next ((harrival.trans (if_neg hmiss)).trans (if_pos hroom)), ?retried⟩
    case retried =>
      rintro _ hmiss hfull rfl
      exact congrArg Host.Outcome.next ((harrival.trans (if_neg hmiss)).trans (if_neg (Nat.not_lt.2 hfull)))
    case performed =>
      have hwaiters (w : FeWaiter) : ((s.take t).fePerform q off w).feWaiters = s.feWaiters :=
        (State.of_fePerform State.feWaiters (fun _ _ _ _ _ _ _ _ => rfl) ..).trans (s.feWaiters_take t)
      refine ⟨(s.take t).fePerform q off _, congrArg Host.Outcome.next ((harrival.trans (if_pos hfits)).trans
          (State.feExamine_none 33 (by rwa [hwaiters]))), fun hs => ?tag, hwaiters _,
        (State.of_fePerform State.sem (fun _ _ _ _ _ _ _ _ => rfl) ..).trans (s.sem_take t),
        (State.of_fePerform State.gran (fun _ _ _ _ _ _ _ _ => rfl) ..).trans (s.gran_take t),
        fun hload => (State.pan_fePerform_load hload).trans (s.pan_take t), fun hstore => ?stored,
        fun hload hs hwf hue => ?loaded, State.wake_fePerform ..⟩
      case tag =>
        rw [← htag]
        exact State.tag_fePerform (by simpa using hs) (by simpa [htag] using hfits)
      case stored =>
        exact (State.pan_fePerform_store hstore).trans
          (State.pan_panWrite_congr (s.pan_take t) (funext₂ fun q off => s.panKey_take t q off) ..)
      case loaded =>
        exact (State.bytes_fePerform_load hload (by simpa using hs) (by simpa using hwf) (by simpa using hue)).trans
          (s.panRead_take t ..)
  case retry =>
    rintro s p due q off op _ rfl hwait hdue hheld hwork htarget hue
    exact congrArg Host.Outcome.next (doFeRetry_sent hwait hdue hheld hwork htarget hue)

end Sys2Proof.Machine

/-! PROOFS. Base slots: the commands of THR_BASE_CMD, and what releases, empties and copies a slot (R201, R204, R205, R208, R235,
R238). -/

namespace Sys2Proof.Machine

/-! ### Commands (R204, R235, R238) -/

section
variable {s : State} {v : BitVec 32} {op : Nat} {body : State → Nat → Nat → State}

theorem State.slotCmd_busy (hbar : s.bar0All = true) (hwork : s.working = true) (hop : fld v 2 0 = op)
    (hbusy : s.thr.cmd.isSome = true) : s.slotCmd op v body = { s with thr := { s.thr with refused := true } } := by
  simp [State.slotCmd, hop, hbar, hwork, hbusy]

theorem State.slotCmd_idle (hbar : s.bar0All = true) (hwork : s.working = true) (hop : fld v 2 0 = op)
    (hidle : s.thr.cmd = none) : s.slotCmd op v body = body s (fld v 5 4) (fld v 7 6) := by
  simp [State.slotCmd, hop, hbar, hwork, hidle]

end

theorem State.isFork_of_slotRec {s : State} {k : Nat} {r : SlotRec} (hrec : s.slotRec? k = some r) : s.isFork k = r.fork := by
  simp [State.isFork, hrec]

/-- A declared slot that is no FORK admits a command by its state alone. -/
theorem State.slotCmdCheck_declared {s : State} {k : Nat} {r : SlotRec} (hrec : s.slotRec? k = some r) (hfork : r.fork = false)
    (ok : Bool) : s.slotCmdCheck k ok = if ok = true then none else some thrBadState := by
  cases ok <;> simp [State.slotCmdCheck, State.isFork_of_slotRec hrec, hrec, hfork]

/-- Zeroing of a slot starts by a CLEAR, which ends the STAGE of that slot or not (R204, R310). -/
def State.clearSlot (s : State) (k : Nat) (aborts : Bool) : State :=
  let t := (s.stopConsuming k).updSlot k fun x => { x with zeroing := true }
  { t with thr := { t.thr with cmd := some (4, k, aborts) } }

theorem doClear_staging {s : State} {v : BitVec 32} (hbar : s.bar0All = true) (hwork : s.working = true) (hop : fld v 2 0 = 4)
    (hstage : s.thr.cmd = some (1, fld v 5 4, false)) : doClear v s = s.clearSlot (fld v 5 4) true := by
  simp [doClear, State.clearSlot, hop, hbar, hwork, hstage]

theorem doClear_busy {s : State} {v : BitVec 32} (hbar : s.bar0All = true) (hwork : s.working = true) (hop : fld v 2 0 = 4)
    (hbusy : s.thr.cmd.isSome = true) (hother : s.thr.cmd ≠ some (1, fld v 5 4, false)) :
    doClear v s = { s with thr := { s.thr with refused := true } } := by
  simp only [doClear, hother, decide_false, Bool.and_false, Bool.false_eq_true, if_false]
  exact State.slotCmd_busy hbar hwork hop hbusy

section idle
variable {s : State} {v : BitVec 32} {r : SlotRec}
variable (hbar : s.bar0All = true) (hwork : s.working = true) (hidle : s.thr.cmd = none)
  (hrec : s.slotRec? (fld v 5 4) = some r) (hfork : r.fork = false)
include hbar hwork hidle hrec hfork

theorem doStage_idle (hop : fld v 2 0 = 1) : doStage v s =
    if (s.slot (fld v 5 4)).state = .empty then
      State.updSlot { s with thr := { s.thr with cmd := some (1, fld v 5 4, false) } } (fld v 5 4)
        fun x => { x with state := .staging, redirect := none, digest := 0, zeroing := false }
    else s.thrDone thrBadState := by
  rw [doStage, State.slotCmd_idle hbar hwork hop hidle, State.slotCmdCheck_declared hrec hfork]
  by_cases hempty : (s.slot (fld v 5 4)).state = .empty
  · simp only [hempty, decide_true, if_true]; rfl
  · simp only [hempty, decide_false, Bool.false_eq_true, if_false]

theorem doActivate_idle (hop : fld v 2 0 = 2) : doActivate v s =
    if (s.slot (fld v 5 4)).state ≠ .ready then s.thrDone thrBadState
    else if ∃ j ∈ List.range 4, (s.slot j).state = .active ∧ (s.slot j).digest = (s.slot (fld v 5 4)).digest then s.thrDone thrSame
    else (s.updSlot (fld v 5 4) fun x => { x with state := .active }).thrDone thrOk := by
  rw [doActivate, State.slotCmd_idle hbar hwork hop hidle, State.slotCmdCheck_declared hrec hfork]
  by_cases hready : (s.slot (fld v 5 4)).state = .ready
  · simp only [hready, decide_true, if_true, List.any_eq_true, Bool.and_eq_true, decide_eq_true_eq, ne_eq, not_true_eq_false,
      if_false]
  · simp only [hready, decide_false, Bool.false_eq_true, if_false, ne_eq, not_false_eq_true, if_true]

theorem doSwitch_idle {r2 : SlotRec} (hop : fld v 2 0 = 3) (hnew : s.slotRec? (fld v 7 6) = some r2) (hfork2 : r2.fork = false) :
    doSwitch v s =
      if (s.slot (fld v 5 4)).state ≠ .active ∨ (s.slot (fld v 7 6)).state ≠ .ready then s.thrDone thrBadState
      else if (s.slot (fld v 5 4)).digest = (s.slot (fld v 7 6)).digest then s.thrDone thrSame
      else (((List.range 64).filter fun i => bit r.readers i).foldl
        (fun (t : State) i => t.post i 5 0 0
          (leBytes 1 (fld v 5 4) ++ leBytes 1 (fld v 7 6) ++ leBytes 6 0 ++ digestBytes (s.slot (fld v 7 6)).digest))
        (s.retireSlot (fld v 5 4) (some (fld v 7 6)))).thrDone thrOk := by
  rw [doSwitch, State.slotCmd_idle hbar hwork hop hidle]
  simp only [State.isFork_of_slotRec hrec, State.isFork_of_slotRec hnew, hrec, hnew, hfork, hfork2, Option.isNone_some,
    Option.map_some, Option.getD_some, Bool.or_self, Bool.false_eq_true, or_false, if_false]

theorem doClear_idle (hop : fld v 2 0 = 4) : doClear v s =
    if (s.slot (fld v 5 4)).state = .staging ∨ (s.slot (fld v 5 4)).state = .ready then s.clearSlot (fld v 5 4) false
    else s.thrDone thrBadState := by
  have hnone : s.thr.cmd ≠ some (1, fld v 5 4, false) := by simp [hidle]
  simp only [doClear, hnone, decide_false, Bool.and_false, Bool.false_eq_true, if_false]
  rw [State.slotCmd_idle hbar hwork hop hidle, State.slotCmdCheck_declared hrec hfork]
  by_cases hin : (s.slot (fld v 5 4)).state = .staging ∨ (s.slot (fld v 5 4)).state = .ready
  · simp only [hin, Bool.or_eq_true, decide_eq_true_eq, if_true]; rfl
  · simp only [hin, Bool.or_eq_true, decide_eq_true_eq, if_false]

theorem doRetire_idle (hop : fld v 2 0 = 5) : doRetire v s =
    if (s.slot (fld v 5 4)).state = .active then (s.retireSlot (fld v 5 4) none).thrDone thrOk else s.thrDone thrBadState := by
  rw [doRetire, State.slotCmd_idle hbar hwork hop hidle, State.slotCmdCheck_declared hrec hfork]
  by_cases hactive : (s.slot (fld v 5 4)).state = .active <;>
    simp only [hactive, decide_true, decide_false, Bool.false_eq_true, if_true, if_false]

end idle

/-- The four commands that any command in progress refuses. -/
theorem exec_slotCommand_busy {s : State} {v : BitVec 32} {i : Instr} (hbar : s.bar0All = true) (hwork : s.working = true)
    (hbusy : s.thr.cmd.isSome = true)
    (hi : (fld v 2 0, i) ∈ [(1, Instr.stage v), (2, .activate v), (3, .switch v), (5, .retire v)]) :
    exec i s = .next { s with thr := { s.thr with refused := true } } := by
  simp only [List.mem_cons, Prod.mk.injEq, List.not_mem_nil, or_false] at hi
  obtain ⟨hop, rfl⟩ | ⟨hop, rfl⟩ | ⟨hop, rfl⟩ | ⟨hop, rfl⟩ := hi <;>
    exact congrArg Host.Outcome.next (State.slotCmd_busy hbar hwork hop hbusy)

/-! ### Slots that leave service (R204, R205) -/

theorem State.zeroSlot_thr (s : State) (k : Nat) : (s.zeroSlot k).thr = s.thr := by
  have hzero : ∀ (t : State) (x : Nat × Nat × Nat), (t.panZero x.1 x.2.1 x.2.2).thr = t.thr := fun _ _ => rfl
  exact State.foldl_keeps hzero (s.slotExtents k) s

/-- Emptying a slot changes that slot alone in the thresher. -/
theorem State.emptySlot_thr (s : State) (k : Nat) : (s.emptySlot k).thr = { s.thr with slots := Tab.upd {} k (fun x =>
    { x with state := .empty, digest := 0, zeroing := false, forkEntry := none, copyFrom := none }) s.thr.slots } := by
  have halert (t : State) : (t.alert 4).thr = t.thr := rfl
  rw [State.emptySlot, halert, State.updSlot_thr, State.zeroSlot_thr]

theorem doSlotRelease_retiring {s : State} {k : Nat} (hwork : s.working = true) (hk : k < 4)
    (hretiring : (s.slot k).state = .retiring) (hidle : (s.slot k).zeroing = false) : doSlotRelease k s =
      if (∃ j ∈ s.jobs, j.slot = k) ∨ (∃ e ∈ s.cat, e.2.state ≠ .free ∧ e.2.slot = k ∧ e.2.pins ≠ 0) then s
      else s.updSlot k fun x => { x with zeroing := true } := by
  have hgo : ¬(4 ≤ k ∨ (s.slot k).state ≠ .retiring ∨ (s.slot k).zeroing = true ∨ s.working = false) := by
    simp [hretiring, hidle, hwork, hk]
  rw [doSlotRelease, if_neg hgo]
  simp only [Bool.or_eq_true, List.any_eq_true, Bool.and_eq_true, decide_eq_true_eq, and_assoc]

theorem doBaseReleased_zeroed {s : State} {k : Nat} (hwork : s.working = true) (hk : k < 4)
    (hretiring : (s.slot k).state = .retiring) (hzeroing : (s.slot k).zeroing = true) :
    doBaseReleased k s = (s.emptySlot k).event thrUnit 0x51 k (s.slotConfid k) := by
  have hgo : ¬(4 ≤ k ∨ (s.slot k).state ≠ .retiring ∨ (s.slot k).zeroing = false ∨ s.working = false) := by
    simp [hretiring, hzeroing, hwork, hk]
  rw [doBaseReleased, if_neg hgo]

/-- What CLEAR waits for ends it, when it is the command in progress on that slot. -/
theorem doSlotZeroingComplete_zeroed {s : State} {k : Nat} (hwork : s.working = true) (hk : k < 4)
    (hserve : (s.slot k).state ≠ .retiring) (hzeroing : (s.slot k).zeroing = true) : doSlotZeroingComplete k s =
      match s.thr.cmd with
      | some (4, j, a) => if j = k then (s.emptySlot k).thrDone (if a then thrAborted else thrOk) else s.emptySlot k
      | _ => s.emptySlot k := by
  have hgo : ¬(4 ≤ k ∨ (s.slot k).zeroing = false ∨ (s.slot k).state = .retiring ∨ s.working = false) := by
    simp [hserve, hzeroing, hwork, hk]
  have hcmd : (s.emptySlot k).thr.cmd = s.thr.cmd := by rw [State.emptySlot_thr]
  rw [doSlotZeroingComplete, if_neg hgo]
  dsimp only
  generalize (s.emptySlot k).thr.cmd = cmd at hcmd ⊢
  subst hcmd
  rfl

/-! ### The end of a copy (R208) -/

theorem doForkCopyComplete_copied {s : State} {k src i tag e : Nat} (hwork : s.working = true)
    (hcopy : (s.slot k).copyFrom = some (src, i, tag)) (hentry : (s.slot k).forkEntry = some e) :
    doForkCopyComplete k s =
      let t := (s.updSlot k fun x => { x with state := .active, copyFrom := none }).updEntry e
        fun y => { y with state := if y.state = .loading then .resident else y.state }
      t.reply i 0 tag (leBytes 4 (t.handle e)) := by
  simp only [doForkCopyComplete, hcopy, hentry, hwork, Bool.true_eq_false, if_false]

/-- Settles O40: each command by the lemma for it, with none in progress and with one. -/
theorem baseSlotCommands : Obligations.BaseSlotCommands := by
  intro s hbar hwork
  refine ⟨?idle, fun v i hbusy hi => exec_slotCommand_busy hbar hwork hbusy hi, ?busy, ?staging, ?retiring, ?zeroed,
    s.emptySlot_thr, ?copied⟩
  case idle =>
    rintro v _ _ r hidle rfl rfl hrec hfork
    exact ⟨fun hop => congrArg Host.Outcome.next (doStage_idle hbar hwork hidle hrec hfork hop),
      fun hop => congrArg Host.Outcome.next (doActivate_idle hbar hwork hidle hrec hfork hop),
      fun r2 hop hnew hfork2 => congrArg Host.Outcome.next (doSwitch_idle hbar hwork hidle hrec hfork hop hnew hfork2),
      fun hop => congrArg Host.Outcome.next (doClear_idle hbar hwork hidle hrec hfork hop),
      fun hop => congrArg Host.Outcome.next (doRetire_idle hbar hwork hidle hrec hfork hop)⟩
  case busy => exact fun v hop hbusy hother => congrArg Host.Outcome.next (doClear_busy hbar hwork hop hbusy hother)
  case staging =>
    rintro v _ rfl hop hstage
    exact congrArg Host.Outcome.next (doClear_staging hbar hwork hop hstage)
  case retiring => exact fun k hk hretiring =>
    ⟨fun hidle => congrArg Host.Outcome.next (doSlotRelease_retiring hwork hk hretiring hidle),
      fun hzeroing => congrArg Host.Outcome.next (doBaseReleased_zeroed hwork hk hretiring hzeroing)⟩
  case zeroed =>
    exact fun k hk hserve hzeroing => congrArg Host.Outcome.next (doSlotZeroingComplete_zeroed hwork hk hserve hzeroing)
  case copied => exact fun k src i tag e hcopy hentry =>
    ⟨_, rfl, congrArg Host.Outcome.next (doForkCopyComplete_copied hwork hcopy hentry)⟩

end Sys2Proof.Machine

/-! PROOFS. Base streams: their start, what is passed on of them, and how they end (R203, R270, R301 to R304, R308, R309, R312). -/

namespace Sys2Proof.Machine

/-! ### START (R302, R312) -/

/-- The stream that START heads with the source set (R302). -/
def Thr.headed (t : Thr) (v : BitVec 32) : Thr :=
  { t with
    stream := some { source := none, slot := 4, consuming := false, data := [], received := 0, place := none, ports := fld v 2 1,
                     remaining := t.srcLen.toNat }
    sBytes := 0
    sResult := strOk }

section start
variable {s : State} {v : BitVec 32}
variable (hwork : s.working = true) (hgo : bit v.toNat 0 = true) (hbar : s.bar0All = true)
include hwork hgo hbar

theorem doStart_busy (port : Nat) (hbusy : s.thr.stream.isSome = true) :
    doStart port v s = { s with thr := { s.thr with sResult := strRefused } } := by
  simp [doStart, hgo, hbar, hwork, hbusy]

theorem doStart_free (port : Nat) (hfree : s.thr.stream = none) :
    doStart port v s = State.headNext { s with thr := s.thr.headed v } := by
  simp [doStart, Thr.headed, hgo, hbar, hwork, hfree]

end start

/-- The first piece is asked for at the start of the source. -/
theorem State.headNext_headed (s : State) (v : BitVec 32) (hlen : s.thr.srcLen.toNat ≠ 0) :
    State.headNext { s with thr := s.thr.headed v } =
      if fld v 2 1 = 0 then State.breakStream { s with thr := s.thr.headed v } strHost
      else State.hostAsk { s with thr := s.thr.headed v } (if fld v 2 1 = 3 then 0 else fld v 2 1 - 1) none s.thr.srcAddr.toNat
        (min 4096 s.thr.srcLen.toNat) .stream := by
  simp only [State.headNext, Thr.headed, hlen, Option.isSome_none, Bool.false_eq_true, or_self, if_false, Nat.zero_div,
    Nat.zero_mod, Nat.add_zero]

/-! ### Messages of the STREAM class (R270, R301, R303, R309) -/

section messages
variable {s : State} {n i key : Nat} {b plain : List Byte}

theorem doForward_waits (h : s.incoming n 2 0xFF key b plain) (hkind : msgKind plain = 5) (hask : msgResp plain = false)
    (hother : (s.thr.stream.any fun x => x.source ≠ some n || x.ended) = true) : doForward n key plain s = s := by
  rw [doForward, State.receive_incoming h, if_pos (by simp [hkind, hask]), if_pos (by simpa using hother), Option.getD_some]

theorem doForward_module (h : s.incoming n 2 0xFF key b plain) (hkind : msgKind plain = 5) (hask : msgResp plain = false)
    (hfree : (s.thr.stream.any fun x => x.source ≠ some n || x.ended) = false) : doForward n key plain s =
      if ((s.accepted n 2 0xFF key b).linkRec? n).any (·.upstream) = true
      then (s.accepted n 2 0xFF key b).passStream (some n) (msgAddr plain) (msgArg plain) (msgPayload plain)
      else s.accepted n 2 0xFF key b := by
  rw [doForward, State.receive_incoming h, if_pos (by simp [hkind, hask]), if_neg (by simpa using hfree), Option.getD_none, if_pos rfl]

theorem doForward_ofInst (h : s.incoming n 2 i key b plain) (hkind : msgKind plain = 5) (hask : msgResp plain = false)
    (hi : i ≠ 0xFF) : doForward n key plain s = (s.accepted n 2 i key b).instForward n i (msgAddr plain) (msgPayload plain) := by
  rw [doForward, State.receive_incoming h, if_pos (by simp [hkind, hask]), if_neg (by simp [hi]), Option.getD_none, if_neg hi]

theorem doStreamAbort_taken (h : s.incoming n 0 i key b plain) (hkind : msgKind plain = 6) (hask : msgResp plain = false)
    (harg : msgArg plain = 5) : doStreamAbort n key plain s =
      if ((s.accepted n 0 i key b).thr.stream.any fun x => x.source = some n) = true
      then (s.accepted n 0 i key b).breakStream strBroken else s.accepted n 0 i key b := by
  rw [doStreamAbort, State.receive_incoming h, if_pos (by simp [hkind, hask, harg])]
  rfl

end messages

/-! ### STREAM_END (R203, R303 to R308, R312) -/

section ends
variable {s : State} {x : Stream}
variable (hwork : s.working = true) (hstream : s.thr.stream = some x) (hended : x.ended = true)
include hwork hstream hended

theorem doStreamEnd_forwarded (hpass : x.consuming = false) : doStreamEnd s = s.streamDone := by
  simp [doStreamEnd, hstream, hended, hwork, hpass]

variable {tab : List Byte} (huse : x.consuming = true) (hplace : x.place = some tab)
include huse hplace

theorem doStreamEnd_unreadable (hread : streamRead x.data = none) :
    doStreamEnd s = (s.failConsuming x.slot strInvalid).streamDone := by
  simp [doStreamEnd, hstream, hended, hwork, huse, hplace, hread]

variable {ts : List (Tensor × List Nat × List Byte × List Byte)} (hread : streamRead x.data = some ts)
include hread

theorem doStreamEnd_otherLineage (hdigest : digestBytes (lineageDigest x.data ts) ≠ slice x.data 0x40 64) :
    doStreamEnd s = (s.failConsuming x.slot strLineage).streamDone := by
  simp [doStreamEnd, hstream, hended, hwork, huse, hplace, hread, hdigest]

/-- The tiles are in the slot's columns, and the slot is READY. -/
def State.staged (s : State) (x : Stream) (tab : List Byte) (ts : List (Tensor × List Nat × List Byte × List Byte)) : State :=
  (s.writeTiles tab ts).updSlot x.slot fun y => { y with state := .ready, digest := lineageDigest x.data ts }

theorem doStreamEnd_staged (hdigest : digestBytes (lineageDigest x.data ts) = slice x.data 0x40 64) :
    doStreamEnd s =
      let u := s.staged x tab ts
      let t := (u.event thrUnit 0x50 x.slot (u.slotConfid x.slot)).stageDone x.slot thrOk
      State.streamDone { t with thr := { t.thr with sResult := strOk } } := by
  simp [doStreamEnd, State.staged, hstream, hended, hwork, huse, hplace, hread, hdigest]

end ends

/-- Settles O41: START by whether a stream is at the module, each message by the lemma for it, and the end by what the stream
decodes to. -/
theorem streamCommands : Obligations.StreamCommands := by
  intro s hwork
  refine ⟨?start, ?forward, ?abort, ?ends⟩
  case start =>
    refine fun port v hgo hbar => ⟨fun hbusy => congrArg Host.Outcome.next (doStart_busy hwork hgo hbar port hbusy), ?_⟩
    rintro _ hfree hlen rfl
    exact congrArg Host.Outcome.next ((doStart_free hwork hgo hbar port hfree).trans (s.headNext_headed v hlen))
  case forward =>
    refine fun n i key b plain h hkind hask => ⟨?_, ?_, fun hi => congrArg Host.Outcome.next (doForward_ofInst h hkind hask hi)⟩
    · rintro rfl hother
      exact congrArg Host.Outcome.next (doForward_waits h hkind hask hother)
    · rintro rfl hfree
      exact congrArg Host.Outcome.next (doForward_module h hkind hask hfree)
  case abort =>
    exact fun n i key b plain h hkind hask harg => congrArg Host.Outcome.next (doStreamAbort_taken h hkind hask harg)
  case ends =>
    refine fun x hstream hended =>
      ⟨fun hpass => congrArg Host.Outcome.next (doStreamEnd_forwarded hwork hstream hended hpass), fun tab ts huse hplace hread => ?_,
        fun tab huse hplace hread => congrArg Host.Outcome.next (doStreamEnd_unreadable hwork hstream hended huse hplace hread)⟩
    exact ⟨fun hdigest => congrArg Host.Outcome.next (doStreamEnd_otherLineage hwork hstream hended huse hplace hread hdigest),
      fun hdigest => ⟨_, rfl, congrArg Host.Outcome.next (doStreamEnd_staged hwork hstream hended huse hplace hread hdigest)⟩⟩

end Sys2Proof.Machine

/-! PROOFS. Variants: the messages for a catalogue entry, the end of a load, and page-ins (R208, R209, R212 to R215, R218, R222, R229,
R230, R372, R373). -/

namespace Sys2Proof.Machine

/-! ### Messages (R208, R212 to R215, R372) -/

section messages
variable {s : State} {port i : Nat} {ide : Bool} {msg : List Byte}

theorem doVariantLoad_full (h : s.fromMailbox port i ide 1 msg) (hfull : (s.debited i).freeEntry? = none) :
    doVariantLoad port i ide msg s = (s.debited i).reply i stNoEntry (msgTag msg) [] := by
  rw [doVariantLoad, State.message_taken h, hfull]

theorem doVariantLoad_free {x : Nat} (h : s.fromMailbox port i ide 1 msg) (hfree : (s.debited i).freeEntry? = some x) :
    doVariantLoad port i ide msg s =
      ((s.debited i).updEntry x fun e => { ({} : Entry) with
        state := .loading, gen := e.gen, inst := i, slot := leAt msg 0x14 1, gran := leAt msg 0x18 8
        pageIn := bit (leAt msg 0x15 1) 0, loading := true, loadLen := leAt msg 0x10 4, loadTag := msgTag msg }).fetch
        port (some i) (.sealed x) (leAt msg 8 8) (leAt msg 0x10 4) := by
  rw [doVariantLoad, State.message_taken h, hfree]

/-! A handle that names no entry. -/

section refused
variable {c : Nat} (hrefused : (s.debited i).msgEntry i msg = .error c)
include hrefused

theorem doVariantDelete_refused (h : s.fromMailbox port i ide 2 msg) :
    doVariantDelete port i ide msg s = (s.debited i).reply i c (msgTag msg) [] := by
  rw [doVariantDelete, State.message_taken h, hrefused]

theorem doVariantPageIn_refused (h : s.fromMailbox port i ide 3 msg) :
    doVariantPageIn port i ide msg s = (s.debited i).reply i c (msgTag msg) [] := by
  rw [doVariantPageIn, State.message_taken h, hrefused]

theorem doVariantQuery_refused (h : s.fromMailbox port i ide 4 msg) :
    doVariantQuery port i ide msg s = (s.debited i).reply i c (msgTag msg) [] := by
  rw [doVariantQuery, State.message_taken h, hrefused]

end refused

/-! A handle that names entry x. -/

section named
variable {x : Nat} (hnamed : (s.debited i).msgEntry i msg = .ok x)
include hnamed

theorem doVariantDelete_named (h : s.fromMailbox port i ide 2 msg) : doVariantDelete port i ide msg s =
    if ((s.debited i).entry x).state = .deleting then (s.debited i).reply i stDeleting (msgTag msg) []
    else ((((s.debited i).retireFork x).answerWaiters x stDeleting).updEntry x
      fun e => (if e.state = EntryState.stale then { e with freed := true }
        else { e with state := EntryState.deleting }).settle).reply i 0 (msgTag msg) [] := by
  rw [doVariantDelete, State.message_taken h, hnamed]

theorem doVariantPageIn_resident (h : s.fromMailbox port i ide 3 msg) (hresident : ((s.debited i).entry x).state = .resident) :
    doVariantPageIn port i ide msg s = (s.debited i).reply i 0 (msgTag msg) [] := by
  rw [doVariantPageIn, State.message_taken h, hnamed]
  exact (if_neg (by simp [hresident])).trans ((if_neg (by simp [hresident])).trans (if_pos hresident))

theorem doVariantPageIn_absent (h : s.fromMailbox port i ide 3 msg)
    (habsent : ((s.debited i).entry x).state = .held ∨ ((s.debited i).entry x).state = .evicting) :
    doVariantPageIn port i ide msg s =
      match (s.debited i).askPageIn x [x] with
      | none => (s.debited i).reply i stTooLarge (msgTag msg) []
      | some t => t.updEntry x fun e => { e with waiters := e.waiters ++ [msgTag msg] } := by
  rw [doVariantPageIn, State.message_taken h, hnamed]
  have hother {st : EntryState} (hne : st ≠ .held ∧ st ≠ .evicting) : ¬((s.debited i).entry x).state = st := by
    rintro rfl
    exact habsent.elim hne.1 hne.2
  refine (if_neg (hother (st := .deleting) (by decide))).trans ((if_neg (hother (st := .stale) (by decide))).trans
    ((if_neg (hother (st := .resident) (by decide))).trans ((if_neg (hother (st := .paging) (by decide))).trans ?_)))
  cases (s.debited i).askPageIn x [x] <;> rfl

theorem doVariantQuery_named (h : s.fromMailbox port i ide 4 msg) : doVariantQuery port i ide msg s =
    let e := (s.debited i).entry x
    (s.debited i).reply i 0 (msgTag msg) (leBytes 1 e.state.code ++ leBytes 2 e.pins ++ leBytes 2 e.frames.length) := by
  rw [doVariantQuery, State.message_taken h, hnamed]

end named

theorem doForkFromBase_refused (h : s.fromMailbox port i ide 5 msg)
    (hrefused : (s.debited i).forkRefusal (leAt msg 8 1) i ≠ 0) : doForkFromBase port i ide msg s =
      (s.debited i).reply i ((s.debited i).forkRefusal (leAt msg 8 1) i) (msgTag msg) [] := by
  rw [doForkFromBase, State.message_taken h]
  exact if_pos hrefused

/-- With an ACTIVE base and leave to read it, room in the fork slot and a free entry, the copy is made (R208). -/
theorem doForkFromBase_copies {k src x : Nat} {r : SlotRec} {t : State} (ht : t = s.debited i) (hk : k = leAt msg 8 1)
    (hsrc : src = leAt msg 9 1) (h : s.fromMailbox port i ide 5 msg) (hok : t.forkRefusal k i = 0)
    (hactive : (t.slot src).state = .active) (hrec : t.slotRec? src = some r) (hfork : r.fork = false)
    (hreader : bit r.readers i = true) (hroom : ((t.slotExtents src).map (·.2.2)).sum ≤ ((t.slotExtents k).map (·.2.2)).sum)
    (hfree : t.freeEntry? = some x) : doForkFromBase port i ide msg s =
      ((t.copySlot src k).updEntry x fun e =>
          { ({} : Entry) with state := .loading, gen := e.gen, inst := i, slot := k, fork := true, kinds := 64,
                              lineage := (t.slot src).digest }).updSlot k fun y =>
        { y with state := .staging, redirect := none, digest := (t.slot src).digest, forkEntry := some x,
                 copyFrom := some (src, i, msgTag msg) } := by
  have hbase : ¬((t.slot src).state ≠ .active ∨ t.isFork src = true ∨ (t.slotRec? src).isNone = true) := by
    simp [hactive, hrec, State.isFork_of_slotRec hrec, hfork]
  have hreads : ¬(!bit (((t.slotRec? src).map (·.readers)).getD 0) i) = true := by simp [hrec, hreader]
  subst hk hsrc
  rw [doForkFromBase, State.message_taken h, ← ht, hfree]
  exact (if_neg (not_not.2 hok)).trans ((if_neg hbase).trans ((if_neg hreads).trans (if_neg hroom.not_gt)))

end messages

/-! ### The end of a load (R209, R215, R218) -/

section load
variable {s : State} {x : Nat} {readOk : Bool} {image : List Byte}
variable (hwork : s.working = true) (hload : (s.entry x).loading = true) (hsealed : (s.entry x).sealed = some (readOk, image))
include hwork hload hsealed

/-- Once all is read, an image that breaks a rule of R218 is refused. -/
theorem doVariantLoadComplete_refused (hall : readOk = true → s.isFork (s.entry x).slot = true → (s.entry x).placeTab.isSome = true)
    (hbad : s.loadRefusal x readOk image (s.unsealed x image) ≠ 0) :
    doVariantLoadComplete x s = s.loadRefused x (s.loadRefusal x readOk image (s.unsealed x image)) := by
  have hgo : ¬(readOk && s.isFork (s.entry x).slot && (s.entry x).placeTab.isNone) = true := by
    rw [Bool.and_eq_true, Bool.and_eq_true, ← Option.not_isSome]
    rintro ⟨⟨hread, hfork⟩, hno⟩
    simp [hall hread hfork] at hno
  simp only [doVariantLoadComplete, hload, hwork, hsealed, Option.getD_some, Option.isNone_some, Bool.not_true, Bool.or_self,
    hgo, hbad, Bool.false_eq_true, ne_eq, not_false_eq_true, if_true, if_false]

variable {plain : List Byte} (hok : s.loadRefusal x readOk image (s.unsealed x image) = 0) (hplain : s.unsealed x image = some plain)
include hok hplain

/-- The image is in the granary range, and its entry HELD. -/
def State.heldImage (s : State) (x : Nat) (plain : List Byte) : State :=
  let e := s.entry x
  let u := s.granWrite e.inst e.gran plain
  (u.granHeal (u.granBase e.inst + e.gran) plain.length).updEntry x fun e => e.loaded plain false

theorem doVariantLoadComplete_held (hbase : s.isFork (s.entry x).slot = false) :
    doVariantLoadComplete x s =
      let t := s.heldImage x plain
      let u := if (s.entry x).pageIn = true then (t.askPageIn x [x]).getD t else t
      u.loadAnswer (s.entry x) 0 (u.handle x) := by
  have hok' : s.loadRefusal x readOk image (some plain) = 0 := hplain ▸ hok
  simp only [doVariantLoadComplete, State.heldImage, hload, hwork, hsealed, hbase, hplain, hok', Option.getD_some,
    Option.isNone_some, Bool.not_true, Bool.or_self, Bool.and_false, Bool.false_and, Bool.false_eq_true, ne_eq,
    not_true_eq_false, if_false]

variable {tab : List Byte} (hfork : s.isFork (s.entry x).slot = true) (htab : (s.entry x).placeTab = some tab)
include hfork htab

theorem doVariantLoadComplete_staged :
    doVariantLoadComplete x s =
      let f := s.stageFork (s.entry x).slot plain tab
      let t := ((f.2.updEntry x fun e => e.loaded plain true).updSlot (s.entry x).slot fun y => { y with forkEntry := some x }).alert 4
      if f.1 ≠ 0 then s.loadRefused x f.1 else t.loadAnswer (s.entry x) 0 (t.handle x) := by
  have hok' : s.loadRefusal x readOk image (some plain) = 0 := hplain ▸ hok
  simp only [doVariantLoadComplete, hload, hwork, hsealed, hfork, htab, hplain, hok', Option.getD_some, Option.isNone_some,
    Bool.not_true, Bool.or_self, Bool.and_false, Bool.false_eq_true, ne_eq, not_true_eq_false, if_true, if_false]

end load

/-! ### Page-ins (R220, R222, R229, R230) -/

section pageIn
variable {s : State} {x : Nat}
variable (hwork : s.working = true) (hpaging : (s.entry x).paging = true)
include hwork hpaging

theorem doPageInStart_room {fs : List Nat} (hwaits : (s.entry x).started = false)
    (hframes : fs = s.allocFrames (s.entry x).inst x (s.entry x).need) (hfit : (s.entry x).need ≤ fs.length)
    (hroom : s.pageInRoom x = true) :
    doPageInStart x s = s.updEntry x fun e => { e with started := true, cur := { e.cur with frames := fs } } := by
  have hgo : ¬(!(s.entry x).paging || (s.entry x).started || !s.working) = true := by simp [hwork, hpaging, hwaits]
  have hroom : ¬(fs.length < (s.entry x).need ∨ s.pageInRoom x = false) := by simp [hfit, hroom]
  rw [doPageInStart, if_neg hgo]
  dsimp only
  rw [← hframes, if_neg hroom]

/-- The resident image is in its frames, and the entry RESIDENT. -/
def State.pagedIn (s : State) (x : Nat) : State :=
  let e := s.entry x
  (s.writeFrames e.cur.frames (residentImage (s.granRead e.inst e.gran e.len) e.cur.frames)).updEntry x fun e =>
    ({ e with paging := false, started := false
              state := if e.state = EntryState.paging then .resident else e.state } : Entry).settle

theorem doPageInComplete_started (hstarted : (s.entry x).started = true) :
    doPageInComplete x s =
      let t := s.pagedIn x
      State.answerWaiters (if t.confid (s.entry x).inst = true then t
        else { t with adm := { t.adm with pageIns := holdAdd 0xFFFF t.adm.pageIns 1 } }) x 0 := by
  have hgo : ¬(!(s.entry x).paging || !(s.entry x).started || !s.working) = true := by simp [hwork, hpaging, hstarted]
  rw [doPageInComplete, if_neg hgo]
  rfl

end pageIn

/-- Settles O42: a message by whether its handle names an entry, a load by what its image is refused for and by its slot, and a
page-in by the room for it. -/
theorem variantCommands : Obligations.VariantCommands := by
  intro s
  refine ⟨fun port i ide msg => ⟨fun h => ?begun, ?refused, ?named, ?fork⟩, ?load, ?start, ?complete⟩
  case begun =>
    cases hfree : (s.debited i).freeEntry? with
    | none => exact congrArg Host.Outcome.next (doVariantLoad_full h hfree)
    | some x => exact congrArg Host.Outcome.next (doVariantLoad_free h hfree)
  case refused =>
    exact fun c hrefused => ⟨fun h => congrArg Host.Outcome.next (doVariantDelete_refused hrefused h),
      fun h => congrArg Host.Outcome.next (doVariantPageIn_refused hrefused h),
      fun h => congrArg Host.Outcome.next (doVariantQuery_refused hrefused h)⟩
  case named =>
    rintro x _ hnamed rfl
    exact ⟨fun h => congrArg Host.Outcome.next (doVariantDelete_named hnamed h),
      fun h => ⟨fun hresident => congrArg Host.Outcome.next (doVariantPageIn_resident hnamed h hresident),
        fun habsent => congrArg Host.Outcome.next (doVariantPageIn_absent hnamed h habsent)⟩,
      fun h => congrArg Host.Outcome.next (doVariantQuery_named hnamed h)⟩
  case fork =>
    refine fun k src r t ht h hk hsrc => ⟨?_, fun x hok hactive hrec hfork hreader hroom hfree =>
      congrArg Host.Outcome.next (doForkFromBase_copies ht hk hsrc h hok hactive hrec hfork hreader hroom hfree)⟩
    subst ht hk
    exact fun hrefused => congrArg Host.Outcome.next (doForkFromBase_refused h hrefused)
  case load =>
    rintro x readOk image plain _ hwork hload hsealed rfl
    refine ⟨fun hbad hall => congrArg Host.Outcome.next (doVariantLoadComplete_refused hwork hload hsealed hall hbad), ?held, ?staged⟩
    case held =>
      rintro _ hok hplain hbase rfl
      exact congrArg Host.Outcome.next (doVariantLoadComplete_held hwork hload hsealed hok hplain hbase)
    case staged =>
      rintro tab _ hok hplain hfork htab rfl
      have hstaged := doVariantLoadComplete_staged hwork hload hsealed hok hplain hfork htab
      refine ⟨fun hbad => congrArg Host.Outcome.next (hstaged.trans (if_pos hbad)), ?_⟩
      rintro _ hgood rfl
      exact congrArg Host.Outcome.next (hstaged.trans (if_neg (not_not.2 hgood)))
  case start =>
    exact fun x fs hwork hpaging hwaits hframes hfit hroom =>
      congrArg Host.Outcome.next (doPageInStart_room hwork hpaging hwaits hframes hfit hroom)
  case complete =>
    rintro x _ _ rfl hwork hpaging hstarted rfl
    exact congrArg Host.Outcome.next (doPageInComplete_started hwork hpaging hstarted)

end Sys2Proof.Machine

/-! PROOFS. Training: opening a record, the messages for one that is open, the delivery of a snapshot, and the update and refresh of
the slow tier (R243, R246 to R248, R262 to R264, R268 to R272). -/

namespace Sys2Proof.Machine

/-! ### Opening a record (R243, R244, R246) -/

section opening
variable {s : State} {i : Nat} {msg : List Byte}

/-- TRAIN_OPEN reads the record from its host. -/
theorem doTrainOpen_taken {port : Nat} {ide : Bool} (h : s.fromMailbox port i ide 0x10 msg) :
    doTrainOpen port i ide msg s = (s.debited i).fetch port (some i) (.record i msg) (leAt msg 8 8) 256 := by
  rw [doTrainOpen, State.message_taken h]

/-- A record that was read goes on to its table when its own fields are in range. -/
theorem State.recordArrived_read (record : List Byte) :
    s.recordArrived i msg true record =
      let r := padTo 256 record
      if recordFields r = false then s.reply i stTrainInvalid (msgTag msg) []
      else s.fetch (s.instPort i) (some i) (.table i msg r) (leAt msg 0x10 8) (96 * recTensors r) := by
  simp only [State.recordArrived, Bool.not_true, Bool.false_eq_true, if_false, Bool.not_eq_true']

variable {r table : List Byte}

theorem State.openTrain_invalid (hbad : s.recordOk i (leAt msg 0x18 8) r table = false) :
    s.openTrain i msg r true table = s.reply i stTrainInvalid (msgTag msg) [] := by
  simp only [State.openTrain, hbad, Bool.not_true, Bool.not_false, Bool.false_eq_true, if_true, if_false]

variable (hok : s.recordOk i (leAt msg 0x18 8) r table = true)
include hok

theorem State.openTrain_handleRefused {c : Nat} (hrefused : s.variantHandle i (leAt r 0 4) = .error c) :
    s.openTrain i msg r true table = s.reply i c (msgTag msg) [] := by
  simp only [State.openTrain, hok, hrefused, Bool.not_true, Bool.false_eq_true, if_false]

section handle
variable {e : Nat} (hhandle : s.variantHandle i (leAt r 0 4) = .ok e)
include hhandle

theorem State.openTrain_full (hfull : s.freeTrain (recSlow r) = none) :
    s.openTrain i msg r true table = s.reply i stTrainFull (msgTag msg) [] := by
  simp only [State.openTrain, hok, hhandle, hfull, Bool.not_true, Bool.false_eq_true, if_false]

/-- Index x is registered and in memory; a record of the fast tier is answered at once. -/
theorem State.openTrain_opened {x : Nat} (hfree : s.freeTrain (recSlow r) = some x) :
    s.openTrain i msg r true table =
      let u := s.updTrain x fun _ => { inst := i, isOpen := true, addr := BitVec.ofNat 64 (leAt msg 0x18 8),
                                       zeroTag := if recSlow r = true then some (msgTag msg) else none, slot := (s.entry e).slot }
      let w := (u.memWrite i (leAt msg 0x18 8) (openRecord r)).memWrite i (leAt r 0x48 8) (padTo (96 * recTensors r) table)
      if recSlow r = true then w else w.reply i 0 (msgTag msg) (leBytes 4 x) := by
  simp only [State.openTrain, hok, hhandle, hfree, Bool.not_true, Bool.false_eq_true, if_false]

end handle

end opening

/-- The buffers of a slow-tier record are zero: TRAIN_OPEN is answered (R246). -/
theorem doTrainOpenZeroingComplete_zeroed {s : State} {x tag : Nat} (hwork : s.working = true)
    (htag : (s.train1 x).zeroTag = some tag) :
    doTrainOpenZeroingComplete x s =
      ((((List.range (recLag (s.recBytes x))).foldl (fun (t : State) j => t.zeroBuffer x j) s).updTrain x
        fun t => { t with zeroTag := none }).reply (s.train1 x).inst 0 tag (leBytes 4 x)) := by
  simp only [doTrainOpenZeroingComplete, htag, hwork, Bool.not_true, Bool.false_eq_true, if_false]

/-! ### Messages for an index (R247, R268 to R272) -/

section messages
variable {s : State} {port i : Nat} {ide : Bool} {msg : List Byte}

/-! An index that is no open record of the sender. -/

section unknown
variable (hunknown : (s.debited i).msgTrain i msg = none)
include hunknown

theorem doTrainSet_unknown (h : s.fromMailbox port i ide 0x11 msg) :
    doTrainSet port i ide msg s = (s.debited i).reply i stTrainUnknown (msgTag msg) [] := by
  rw [doTrainSet, State.message_taken h, hunknown]

theorem doTrainQuery_unknown (h : s.fromMailbox port i ide 0x12 msg) :
    doTrainQuery port i ide msg s = (s.debited i).reply i stTrainUnknown (msgTag msg) [] := by
  rw [doTrainQuery, State.message_taken h, hunknown]

theorem doSnapshot_unknown (h : s.fromMailbox port i ide 0x13 msg) :
    doSnapshot port i ide msg s = (s.debited i).reply i stTrainUnknown (msgTag msg) [] := by
  rw [doSnapshot, State.message_taken h, hunknown]

theorem doTrainClose_unknown (h : s.fromMailbox port i ide 0x14 msg) :
    doTrainClose port i ide msg s = (s.debited i).reply i stTrainUnknown (msgTag msg) [] := by
  rw [doTrainClose, State.message_taken h, hunknown]

end unknown

/-! The open record x. -/

section record
variable {x : Nat} (hopen : (s.debited i).msgTrain i msg = some x)
include hopen

theorem doTrainSet_open (h : s.fromMailbox port i ide 0x11 msg) : doTrainSet port i ide msg s =
    let t := s.debited i
    if t.tr x 4 1 = 4 then t.reply i stNonfinite (msgTag msg) []
    else if t.tr x 4 1 = 3 then t.reply i stStale (msgTag msg) []
    else if setOk (t.recBytes x) (leAt msg 0xA 2) (leAt msg 0xC 4) = false then t.reply i stTrainInvalid (msgTag msg) []
    else if t.trainRuns x = true
      then (t.updTrain x fun u => { u with sets := u.sets ++ [(leAt msg 0xA 2, leAt msg 0xC 4)] }).reply i 0 (msgTag msg) []
    else (t.trPut x (leAt msg 0xA 2) (settable (leAt msg 0xA 2)) (leAt msg 0xC 4)).reply i 0 (msgTag msg) [] := by
  rw [doTrainSet, State.message_taken h, hopen]
  simp only [Bool.not_eq_true']

theorem doTrainQuery_open (h : s.fromMailbox port i ide 0x12 msg) : doTrainQuery port i ide msg s =
    let t := s.debited i
    t.reply i 0 (msgTag msg) (leBytes 1 (t.tr x 4 1) ++ leBytes 1 (t.tr x 0x20 1) ++ leBytes 6 0 ++ leBytes 8 (t.tr x 8 8) ++
      leBytes 8 (t.tr x 0x10 8) ++ leBytes 4 (t.tr x 0x2C 4)) := by
  rw [doTrainQuery, State.message_taken h, hopen]

theorem doTrainClose_open (h : s.fromMailbox port i ide 0x14 msg) : doTrainClose port i ide msg s =
    let t := s.debited i
    if t.trainJob x = true ∨ (t.train1 x).closeTag.isSome = true then t.reply i stTrainBusy (msgTag msg) []
    else if t.updPending x ≠ 0 then t.updTrain x fun w => { w with closeTag := some (msgTag msg) }
    else t.closeTrain x (msgTag msg) := by
  rw [doTrainClose, State.message_taken h, hopen]
  simp only [Bool.or_eq_true]

end record

end messages

/-! ### SNAPSHOT (R268 to R270) -/

/-- The snapshot that a message asks for (R268). -/
def msgSnap (msg : List Byte) : Snap :=
  { tag := msgTag msg, dest := leAt msg 0xA 1, link := leAt msg 0xB 1, rinst := leAt msg 0xC 1, rslot := leAt msg 0xD 1
    addr := leAt msg 0x10 8, key := slice msg 0x18 32, captured := none, image := [] }

/-- A snapshot has a destination: an address that its host can have, or a link that is ready and admits sender and receiver (R270). -/
def State.snapReaches (s : State) (i : Nat) (q : Snap) : Prop :=
  (q.dest = 0 ∧ q.addr < 2 ^ 57) ∨ (q.dest = 1 ∧ s.linkReady q.link q.rinst = true ∧
    (s.linkRec? q.link).any (fun r => bit r.insts i && bit r.insts q.rinst) = true)

/-- The three reasons for which SNAPSHOT fails a destination (R270). -/
def State.snapLost (s : State) (i : Nat) (q : Snap) : Prop :=
  q.dest > 1 ∨
    (q.dest = 1 ∧ ((s.linkRec? q.link).any (fun r => bit r.insts i && bit r.insts q.rinst) = false ∨
      s.linkReady q.link q.rinst = false)) ∨
    (q.dest = 0 ∧ 2 ^ 57 ≤ q.addr)

theorem State.not_snapLost_iff {s : State} {i : Nat} {q : Snap} : ¬s.snapLost i q ↔ s.snapReaches i q := by
  rw [State.snapReaches, State.snapLost, ← Bool.not_eq_true, ← Bool.not_eq_true]
  rcases Nat.lt_trichotomy q.dest 1 with hhost | hlink | hnone
  · have h0 : q.dest = 0 := by omega
    simp [h0]
  · simp [hlink, and_comm]
  · simp [hnone, show q.dest ≠ 0 by omega, hnone.ne']

/-- The snapshot is booked; it waits for its step while a job runs on the record, and is captured otherwise (R268). -/
def State.takeSnap (s : State) (x : Nat) (q : Snap) : State :=
  let t := (s.updTrain x fun w => { w with snaps := w.snaps ++ [q] }).bookSnap x q
  if t.trainRuns x = true then t else t.capture x

/-- In format 0 and with a template, SNAPSHOT is in order (R269). -/
theorem not_snapInvalid {s : State} {x : Nat} {msg : List Byte} (hformat : leAt msg 0xE 1 = 0)
    (htemplate : (s.template x).isSome = true) : ¬(leAt msg 0xE 1 ≠ 0 ∨ (s.template x).isNone = true) := by
  simp [hformat, Option.isSome_iff_ne_none.1 htemplate]

section snapshot
variable {s : State} {port i x : Nat} {ide : Bool} {msg : List Byte}
variable (hopen : (s.debited i).msgTrain i msg = some x) (h : s.fromMailbox port i ide 0x13 msg)
include hopen h

/-- Another format, or no valid template (R269). -/
theorem doSnapshot_invalid (hbad : leAt msg 0xE 1 ≠ 0 ∨ (s.debited i).template x = none) :
    doSnapshot port i ide msg s = (s.debited i).reply i stTrainInvalid (msgTag msg) [] := by
  rw [doSnapshot, State.message_taken h, hopen]
  exact if_pos (hbad.imp_right Option.isNone_iff_eq_none.2)

variable (hformat : leAt msg 0xE 1 = 0) (htemplate : ((s.debited i).template x).isSome = true)
include hformat htemplate

theorem doSnapshot_lost (hlost : (s.debited i).snapLost i (msgSnap msg)) :
    doSnapshot port i ide msg s = (s.debited i).reply i stSnapFailed (msgTag msg) [] := by
  rw [doSnapshot, State.message_taken h, hopen]
  exact (if_neg (not_snapInvalid hformat htemplate)).trans (if_pos hlost)

theorem doSnapshot_taken (hreach : ¬(s.debited i).snapLost i (msgSnap msg)) :
    doSnapshot port i ide msg s = (s.debited i).takeSnap x (msgSnap msg) := by
  rw [doSnapshot, State.message_taken h, hopen]
  exact (if_neg (not_snapInvalid hformat htemplate)).trans (if_neg hreach)

end snapshot

/-- The oldest captured image has arrived or failed: for the host as its flush came back, for a partner as it reports (R270). -/
theorem doSnapshotDelivered_captured {s : State} {x : Nat} {ok : Bool} {q : Snap} (hwork : s.working = true)
    (hfind : (s.train1 x).snaps.find? (fun q => q.captured.isSome) = some q) (hflush : q.dest = 0 → q.flushed.isSome = true) :
    doSnapshotDelivered x ok s =
      let t := s.updTrain x fun t => { t with snaps := t.snaps.erase q }
      if (if q.dest = 0 then q.flushed = some true else ok = true)
      then t.reply (s.train1 x).inst 0 q.tag (leBytes 8 (q.captured.getD 0) ++ digestBytes (Config.sha512 q.image))
      else t.reply (s.train1 x).inst stSnapFailed q.tag [] := by
  have hgo : ¬(!s.working || (q.dest = 0 && q.flushed.isNone)) = true := by
    simpa [hwork, ← Option.isSome_iff_ne_none] using hflush
  have harrived : ((if q.dest = 0 then q.flushed.getD false else ok) = true) ↔
      (if q.dest = 0 then q.flushed = some true else ok = true) := by
    split
    · exact Option.getD_eq_iff.trans (by simp)
    · rfl
  simp only [doSnapshotDelivered, hfind, hgo, harrived, Bool.false_eq_true, if_false]

/-! ### The slow tier (R262 to R264) -/

/-- The first entry whose record no refresh holds starts. -/
theorem doUpdateEntryStart_first {s : State} {u : UpdEntry} (hwork : s.working = true) (hidle : s.upd.run = none)
    (hfirst : s.upd.queue.find? (fun u => (s.train1 u.index).refreshTo.isNone) = some u) :
    doUpdateEntryStart s = { s with upd := { s.upd with queue := s.upd.queue.erase u, run := some u } } := by
  simp only [doUpdateEntryStart, hidle, hfirst, hwork, Bool.not_true, Bool.false_eq_true, if_false]

/-- The trained rows of a record under an update entry, one after the other; an entry that is skipped leaves them (R262, R266). -/
def State.updateRows (s : State) (u : UpdEntry) : State :=
  let i := (s.train1 u.index).inst
  if u.skip = true then s
  else ((s.recTable u.index).foldl (fun (a : State × Nat) e =>
    ((List.range (tRows e)).filter fun r => a.1.rowTrained i e r).foldl
      (fun (a : State × Nat) r => (a.1.updateRow u.index i (s.recBytes u.index) e u r a.2,
        a.2 + rowDraws (leAt (s.recBytes u.index) 7 1) (tCols e))) a) (s, 0)).1

/-- The running entry has ended: its rows are as it leaves them, its buffer is zero, its step recorded, and it is counted (R262). -/
def State.updateEnded (s : State) (u : UpdEntry) : State :=
  let i := (s.train1 u.index).inst
  let w := ((s.updateRows u).zeroBuffer u.index (u.step % recLag (s.recBytes u.index))).trPut u.index 0x10 8 u.step
  ({ w with upd := { w.upd with
      run := none
      applied := if (u.skip || w.confid i) = true then w.upd.applied else holdAdd 0xFFFFFFFF w.upd.applied 1
      skipped := if (u.skip && !w.confid i) = true then holdAdd 0xFFFFFFFF w.upd.skipped 1 else w.upd.skipped } } : State).captureDue
    u.index

theorem doUpdateEntryComplete_running {s : State} {u : UpdEntry} (hwork : s.working = true) (hrun : s.upd.run = some u) :
    doUpdateEntryComplete s =
      let z := s.updateEnded u
      match (z.train1 u.index).closeTag with
      | some tag => if z.updPending u.index = 0 then z.closeTrain u.index tag else z
      | none => z := by
  have hgo : ¬(!s.working) = true := by simp [hwork]
  rw [doUpdateEntryComplete, hrun]
  exact if_neg hgo

theorem doRefreshComplete_running {s : State} {x a : Nat} (hwork : s.working = true) (hrun : (s.train1 x).refreshTo = some a) :
    doRefreshComplete x s =
      ((((s.recTable x).foldl (fun (t : State) e => t.memWrite (s.train1 x).inst (tWork e)
          (t.memRead (s.train1 x).inst (tWorkGrn e) (tRows e * tWorkRow e))) s).updTrain x
        fun t => { t with refreshTo := none }).trPut x 0x18 8 a).captureDue x := by
  simp only [doRefreshComplete, hrun, hwork, Bool.not_true, Bool.false_eq_true, if_false]

/-- Settles O43: TRAIN_OPEN by what its record and table are refused for, each other message by whether its index is open, and the
update and the refresh by what runs. -/
theorem trainingCommands : Obligations.TrainingCommands := by
  intro s
  refine ⟨fun port i ide msg h => congrArg Host.Outcome.next (doTrainOpen_taken h), ?opening,
    fun x tag hwork htag => congrArg Host.Outcome.next (doTrainOpenZeroingComplete_zeroed hwork htag), ?messages, ?delivered,
    fun u hwork hidle hfirst => congrArg Host.Outcome.next (doUpdateEntryStart_first hwork hidle hfirst), ?update,
    fun x a hwork hrun => congrArg Host.Outcome.next (doRefreshComplete_running hwork hrun)⟩
  case opening =>
    rintro i msg record table _ rfl
    refine ⟨State.recordArrived_read record, State.openTrain_invalid, fun c hok => State.openTrain_handleRefused hok,
      fun e hok hhandle => ?_⟩
    cases hfree : s.freeTrain (recSlow (padTo 256 record)) with
    | none => exact State.openTrain_full hok hhandle hfree
    | some x => exact State.openTrain_opened hok hhandle hfree
  case messages =>
    rintro port i ide msg _ rfl
    refine ⟨fun hunknown => ⟨fun h => congrArg Host.Outcome.next (doTrainSet_unknown hunknown h),
      fun h => congrArg Host.Outcome.next (doTrainQuery_unknown hunknown h),
      fun h => congrArg Host.Outcome.next (doSnapshot_unknown hunknown h),
      fun h => congrArg Host.Outcome.next (doTrainClose_unknown hunknown h)⟩,
      fun x hopen => ⟨fun h => congrArg Host.Outcome.next (doTrainSet_open hopen h),
        fun h => congrArg Host.Outcome.next (doTrainQuery_open hopen h), ?_,
        fun h => congrArg Host.Outcome.next (doTrainClose_open hopen h)⟩⟩
    rintro _ h rfl
    refine ⟨fun hbad => congrArg Host.Outcome.next (doSnapshot_invalid hopen h hbad), fun hformat htemplate => ?_⟩
    by_cases hlost : (s.debited i).snapLost i (msgSnap msg)
    · have hno : ¬(s.debited i).snapReaches i (msgSnap msg) := mt State.not_snapLost_iff.2 (not_not.2 hlost)
      exact congrArg Host.Outcome.next ((doSnapshot_lost hopen h hformat htemplate hlost).trans (if_neg hno).symm)
    · have hreach : (s.debited i).snapReaches i (msgSnap msg) := State.not_snapLost_iff.1 hlost
      exact congrArg Host.Outcome.next ((doSnapshot_taken hopen h hformat htemplate hlost).trans (if_pos hreach).symm)
  case delivered =>
    exact fun x ok q hwork hfind hflush =>
      ⟨_, rfl, congrArg Host.Outcome.next (doSnapshotDelivered_captured hwork hfind hflush)⟩
  case update =>
    rintro u _ _ _ _ hwork hrun rfl rfl rfl rfl
    exact congrArg Host.Outcome.next (doUpdateEntryComplete_running hwork hrun)

end Sys2Proof.Machine

/-! PROOFS. Tiller links: flits, bring-up and sessions, and links that go down (R275 to R278, R288 to R290, R311, R386, R387, R420). -/

namespace Sys2Proof.Machine

/-! ### Flits (R275 to R277) -/

/-- The codewords on a flit's way that were not corrected are counted (R275). -/
def State.fecCounted (s : State) (n fec : Nat) : State :=
  s.updLink n fun l => { l with fecUncorrected := holdAdd 0xFFFF l.fecUncorrected fec }

/-- Every flit in the replay buffer is sent once more and counted (R277). -/
def State.replayed (s : State) (n : Nat) : State :=
  s.updLink n fun l =>
    { l with
      replay := (s.link n).replay.map fun e => { e with tries := e.tries + 1 }
      replays := holdAdd 0xFFFF l.replays (s.link n).replay.length
      flits := l.flits ++ (s.link n).replay.map (·.bytes) }

section flits
variable {s : State} {n fec : Nat} {f : List Byte} (hrun : s.linkRuns n = true)
include hrun

/-- Whatever its kind, a flit whose CRC fails leaves a gap. -/
theorem State.flitArrives_bad (hbad : flitGood f = false) (kind : Nat) (body : State → State) :
    s.flitArrives n kind fec f body = ((s.fecCounted n fec).flitGap n).linkPump n := by
  simp only [State.flitArrives, State.fecCounted, hrun, hbad, Bool.not_true, Bool.not_false, Bool.false_eq_true, if_true, if_false]

variable (hgood : flitGood f = true)
include hgood

theorem State.flitArrives_good {kind : Nat} (hkind : flitKind f = kind) (body : State → State) :
    s.flitArrives n kind fec f body = (body (s.fecCounted n fec)).linkPump n := by
  simp only [State.flitArrives, State.fecCounted, hrun, hgood, hkind, Bool.not_true, Bool.false_eq_true, ne_eq, not_true_eq_false,
    if_false]

/-- The next flit in sequence is received (R276 to R278). -/
theorem doDataFlit_next (hkind : flitKind f = 0) (hnext : flitSeq f = (((s.fecCounted n fec).link n).rxSeq + 1) % 65536) :
    doDataFlit n fec f s = State.linkPump ((s.fecCounted n fec).updLink n
      fun l => (({ l with rxSeq := flitSeq f, gap := false } : Link).flitHead f).flitBody f) n := by
  rw [doDataFlit, State.flitArrives_good hrun hgood hkind]
  exact congrArg (State.linkPump · n) (if_pos hnext)

/-- Any other is a repeat, or one that follows a gap (R277). -/
theorem doDataFlit_outOfSequence (hkind : flitKind f = 0)
    (hother : flitSeq f ≠ (((s.fecCounted n fec).link n).rxSeq + 1) % 65536) :
    doDataFlit n fec f s = State.linkPump (
      let t := s.fecCounted n fec
      if ((t.link n).rxSeq + 65536 - flitSeq f) % 65536 < 512 then t.updLink n fun l => l.flitAcks f
      else if (t.link n).gap = true then t
      else t.flitGap n) n := by
  rw [doDataFlit, State.flitArrives_good hrun hgood hkind]
  exact congrArg (State.linkPump · n) (if_neg hother)

theorem doIdleFlit_good (hkind : flitKind f = 1) :
    doIdleFlit n fec f s = ((s.fecCounted n fec).updLink n fun l => l.flitHead f).linkPump n :=
  State.flitArrives_good hrun hgood hkind _

/-- What the REPLAY flit does not acknowledge is replayed, unless it was eight times already (R277, R290). -/
theorem doReplayFlit_good (hkind : flitKind f = 2) :
    doReplayFlit n fec f s = State.linkPump (
      let u := (s.fecCounted n fec).updLink n fun l => l.flitHead f
      if ∃ e ∈ (u.link n).replay, 8 ≤ e.tries then u.linkDown n 3 else u.replayed n) n := by
  rw [doReplayFlit, State.flitArrives_good hrun hgood hkind]
  simp only [State.replayed, List.any_eq_true, decide_eq_true_eq]

end flits

/-- Settles O47: a flit by its CRC, a good one by its kind, and a DATA flit by its place in the sequence. -/
theorem flitsReceived : Obligations.FlitsReceived := by
  rintro s _ n fec f hrun rfl
  refine ⟨fun hbad i hi => ?bad,
    fun hgood hkind => ⟨fun hnext => congrArg Host.Outcome.next (doDataFlit_next hrun hgood hkind hnext),
      fun hother => congrArg Host.Outcome.next (doDataFlit_outOfSequence hrun hgood hkind hother)⟩,
    fun hgood hkind => congrArg Host.Outcome.next (doIdleFlit_good hrun hgood hkind), ?replay⟩
  case bad =>
    simp only [List.mem_cons, List.not_mem_nil, or_false] at hi
    obtain rfl | rfl | rfl := hi
    all_goals exact congrArg Host.Outcome.next (State.flitArrives_bad hrun hbad _ _)
  case replay =>
    rintro hgood hkind _ rfl
    exact congrArg Host.Outcome.next (doReplayFlit_good hrun hgood hkind)

/-! ### Training (R278, R288, R453) -/

/-- The lanes are trained: length and delay are known, and the partner has the receive buffers (R278, R453). -/
def State.lanesTrained (s : State) (n lengthCm delayNs : Nat) : State :=
  s.updLink n fun l =>
    { l with
      electrical := true
      delay := delayNs % 1024
      length := (if s.media n = 1 then lengthCm else ((Tab.get none s.mgt.cages n).getD (0, 0)).2) % 65536
      owed := [0, 1, 2].foldl (fun t vc => Tab.put 0 vc (Config.linkBuffers vc) t) [] }

theorem doLinkTrainingComplete_trained {s : State} {n : Nat} (hn : n < 6) (hwork : s.working = true)
    (htraining : (s.link n).state = .training) (hdark : (s.link n).electrical = false) (hmedia : s.media n = 1 ∨ s.media n = 2)
    (lengthCm delayNs : Nat) : doLinkTrainingComplete n lengthCm delayNs s =
      (s.lanesTrained n lengthCm delayNs).linkControl n 1 (s.capPayload n) := by
  have hgo : ¬(6 ≤ n ∨ (s.link n).state ≠ .training ∨ (s.link n).electrical = true ∨ s.working = false ∨
      (s.media n ≠ 1 ∧ s.media n ≠ 2)) := by
    simp only [htraining, hdark, hwork, ne_eq, not_true_eq_false, Bool.false_eq_true, Bool.true_eq_false, false_or]
    omega
  exact if_neg hgo

/-! ### CAPABILITY and SESSION (R288 to R290, R386) -/

section inClear
variable {s : State} {n len : Nat} {m : List Byte} (hrun : s.linkRuns n = true)
include hrun

/-- A message in clear that breaks the tables is discarded and counted (R279, R280). -/
theorem State.receiveClear_bad {sub : Nat} (hmsg : s.clearMsg n sub = some (m, len)) (hbad : msgOk 0 0xFF m = false)
    (body : State → List Byte → State) : s.receiveClear n sub body = (s.dropMsg n 0 len).authFail n := by
  simp only [State.receiveClear, hmsg, hrun, hbad, Bool.not_true, Bool.false_and, Bool.false_eq_true, if_false]

variable (hok : msgOk 0 0xFF m = true) (hask : msgResp m = false)
include hok hask

theorem State.receiveClear_ok {sub : Nat} (hmsg : s.clearMsg n sub = some (m, len)) (body : State → List Byte → State) :
    s.receiveClear n sub body = body (s.dropMsg n 0 len) (msgPayload m) := by
  simp only [State.receiveClear, hmsg, hrun, hok, hask, Bool.not_true, Bool.not_false, Bool.and_self, Bool.false_eq_true, if_true,
    if_false]

/-! CAPABILITY. -/

section capability
variable (hmsg : s.clearMsg n 1 = some (m, len))
include hmsg

/-- On a link that is up the partner has reset (R290). -/
theorem doCapability_up (hup : ((s.dropMsg n 0 len).link n).state = .up) :
    doCapability n s = (s.dropMsg n 0 len).linkDown n 8 := by
  rw [doCapability, State.receiveClear_ok hrun hok hask hmsg]
  exact if_pos hup

/-- What a CAPABILITY tells of the partner is recorded (R289). -/
def State.partnerRecorded (s : State) (n : Nat) (c : List Byte) : State :=
  s.updLink n fun l =>
    { l with
      capOk := true
      spread := bit (leAt c 5 1) 2 && (s.linkRec? n).any (·.spreadOk)
      partnerSerial := BitVec.ofNat 64 (leAt c 8 8)
      partnerCap := BitVec.ofNat 32 (leAt c 3 1 + bits (leAt c 4 1) 3 0 * 256 + (leAt c 5 1 % 8) * 4096 + leAt c 0 2 * 65536)
      partnerInsts := leAt c 16 8
      partnerPayload := c }

/-- On a link that is training it is judged by its cause (R289). -/
theorem doCapability_training (htraining : ((s.dropMsg n 0 len).link n).state = .training) :
    doCapability n s =
      let t := s.dropMsg n 0 len
      let c := msgPayload m
      if t.capCause n c ≠ 0 then t.stayDown n (t.capCause n c) else (t.partnerRecorded n c).sendSession n 0 0xFF := by
  rw [doCapability, State.receiveClear_ok hrun hok hask hmsg]
  simp only [htraining, reduceCtorEq, ne_eq, not_true_eq_false, if_false, State.partnerRecorded]

end capability

/-- The link is up, with its sessions (R286, R288). -/
def State.sessionsOpened (s : State) (n draw : Nat) (peer : List Byte) : State :=
  s.updLink n fun l =>
    { l with
      state := .up, sessions := s.newSessions n draw peer, ephs := Tab.put none 0xFF none l.ephs, downSince := none
      lostPosted := false }

/-- A SESSION that verifies and opens the link's session brings the link up, any other leaves it down (R288, R386). -/
theorem doSession_training (hmsg : s.clearMsg n 2 = some (m, len)) {draw : Nat}
    (htraining : ((s.dropMsg n 0 len).link n).state = .training) (hcap : ((s.dropMsg n 0 len).link n).capOk = true)
    (hown : Tab.get none ((s.dropMsg n 0 len).link n).ephs 0xFF = some draw) :
    doSession n s =
      let t := s.dropMsg n 0 len
      let c := msgPayload m
      if t.sessionGood n c = true ∧ leAt c 0 1 = 0 ∧ leAt c 1 1 = 0xFF then t.sessionsOpened n draw (slice c 8 32)
      else t.stayDown n 7 := by
  rw [doSession, State.receiveClear_ok hrun hok hask hmsg]
  simp only [htraining, hcap, hown, reduceCtorEq, ne_eq, not_true_eq_false, Bool.true_eq_false, or_self, if_false]
  rw [← ite_not]
  refine if_congr ?_ rfl rfl
  simp only [Bool.not_eq_true', not_or, Bool.not_eq_false, Classical.not_not]

end inClear

/-- A counter of the session has reached 2^55 (R387). -/
theorem doSessionRenew_due {s : State} {n i : Nat} {x : Session} (hwork : s.working = true) (hup : (s.link n).state = .up)
    (hx : x ∈ (s.link n).sessions) (hinst : x.inst = i) (hlive : x.live = true) (hfirst : x.renewing = false)
    (hdue : ∃ vc ∈ [0, 1, 2], 2 ^ 55 ≤ Tab.get 0 x.tx vc) : doSessionRenew n i s = s.renewSession n i := by
  obtain ⟨vc, hvc, hcount⟩ := hdue
  have hcounter : ((List.range 3).any fun vc => decide (2 ^ 55 ≤ Tab.get 0 x.tx vc)) = true :=
    List.any_eq_true.2 ⟨vc, hvc, decide_eq_true hcount⟩
  have hsession : ((s.link n).sessions.any fun x =>
      x.inst = i && x.live && !x.renewing && (List.range 3).any fun vc => decide (2 ^ 55 ≤ Tab.get 0 x.tx vc)) = true :=
    List.any_eq_true.2 ⟨x, hx, by rw [hcounter]; simp [hinst, hlive, hfirst]⟩
  exact if_pos ⟨hup, hwork, hsession⟩

/-- Settles O48: a message in clear by whether it keeps the tables, a CAPABILITY by the state of the link and the cause it gives. -/
theorem linksComeUp : Obligations.LinksComeUp := by
  intro s n hn hwork
  refine ⟨fun lengthCm delayNs htraining hdark hmedia =>
      congrArg Host.Outcome.next (doLinkTrainingComplete_trained hn hwork htraining hdark hmedia lengthCm delayNs),
    ?bad, ?capability, ?session, fun i x hup hx hinst hlive hfirst hdue =>
      congrArg Host.Outcome.next (doSessionRenew_due hwork hup hx hinst hlive hfirst hdue)⟩
  case bad =>
    intro sub c m len hc hrun hmsg hbad
    simp only [List.mem_cons, Prod.mk.injEq, List.not_mem_nil, or_false] at hc
    obtain ⟨rfl, rfl⟩ | ⟨rfl, rfl⟩ := hc
    all_goals exact congrArg Host.Outcome.next (State.receiveClear_bad hrun hmsg hbad _)
  case capability =>
    rintro m _ len _ hrun hmsg hok hask rfl rfl
    exact ⟨fun hup => congrArg Host.Outcome.next (doCapability_up hrun hok hask hmsg hup),
      fun htraining hcause => congrArg Host.Outcome.next
        ((doCapability_training hrun hok hask hmsg htraining).trans (if_pos hcause)),
      fun htraining hfits => congrArg Host.Outcome.next
        ((doCapability_training hrun hok hask hmsg htraining).trans (if_neg (not_not.2 hfits)))⟩
  case session =>
    rintro m _ len draw _ hrun hmsg hok hask rfl rfl htraining hcap hown
    exact congrArg Host.Outcome.next (doSession_training hrun hok hask hmsg htraining hcap hown)

/-! ### Going down and up again (R289, R290, R311, R420) -/

section down
variable {s : State} {n : Nat}

theorem State.setDisable_disabled (h : (s.link n).state = .disabled) :
    s.setDisable n true = s.updLink n fun l => { l with disable := true } :=
  if_pos h

theorem State.setDisable_trained (h : (s.link n).state ≠ .disabled) (hlanes : (s.link n).electrical = true) :
    s.setDisable n true = (s.updLink n fun l => { l with disable := true }).linkDown n (s.link n).cause :=
  (if_neg h).trans (if_pos hlanes)

theorem State.setDisable_untrained (h : (s.link n).state ≠ .disabled) (hdark : (s.link n).electrical = false) :
    s.setDisable n true = (s.updLink n fun l => { l with disable := true }).updLink n fun l => { l with state := .disabled } :=
  (if_neg h).trans (if_neg (Bool.not_eq_true _ ▸ hdark))

variable (hn : n < 6) (hwork : s.working = true)
include hn hwork

theorem doLossOfSignal_trained (fecLost : Bool) (hlanes : (s.link n).electrical = true) :
    doLossOfSignal n fecLost s = s.linkDown n (if fecLost = true then 2 else 1) := by
  simp only [doLossOfSignal, hn, hlanes, hwork, decide_true, Bool.and_self, if_true]

theorem doLinkRetry_down (hdown : (s.link n).state = .downRetrying) (hmedia : s.media n ≠ 3) :
    doLinkRetry n s = s.updLink n fun l => { l with state := .training } :=
  if_pos ⟨hn, hdown, hmedia, hwork⟩

/-- A write of TLn_CTRL in a module whose register blocks all answer goes to the row that its RETRAIN bit names (R311). -/
theorem State.ctrlWrite_taken (hbar : s.bar0All = true) {p : Prop} (hrow : ¬p) : ¬(6 ≤ n ∨ p ∨ s.regOk = false) := by
  simp only [State.regOk, hbar, hwork, Bool.and_self, Bool.true_eq_false, or_false, hrow]
  omega

variable {v : BitVec 32} (hbar : s.bar0All = true)
include hbar

theorem doRetrain_taken (hset : bit v.toNat 0 = true) :
    doRetrain n v s =
      let t := s.setDisable n (bit v.toNat 1)
      if (t.link n).state = .disabled then t else t.linkDown n 9 :=
  if_neg (State.ctrlWrite_taken hn hwork hbar (Bool.not_eq_false _ ▸ hset))

theorem doDisable_taken (hclear : bit v.toNat 0 = false) : doDisable n v s = s.setDisable n (bit v.toNat 1) :=
  if_neg (State.ctrlWrite_taken hn hwork hbar (Bool.not_eq_true _ ▸ hclear))

end down

/-- The loss of a link's partner is posted to all that the link's record names (R420). -/
def State.lossPosted (s : State) (n : Nat) : State :=
  let u := s.updLink n fun l => { l with lostPosted := true }
  ((List.range 64).filter fun i => (u.linkRec? n).any fun r => bit r.insts i).foldl
    (fun (t : State) i => t.post i 8 0 0 (leBytes 8 n ++ leBytes 8 (s.link n).partnerSerial.toNat)) u

/-- The link has been down for one second (R420). -/
theorem doPartnerLost_due {s : State} {n since : Nat} (hn : n < 6) (hwork : s.working = true)
    (hdown : (s.link n).downSince = some since) (hfirst : (s.link n).lostPosted = false) (hnotUp : (s.link n).state ≠ .up)
    (henabled : (s.link n).state ≠ .disabled) (hlong : since + 1000000000 ≤ s.tb.count) :
    doPartnerLost n s =
      let w := s.lossPosted n
      (w.jobs.filter fun j => j.spans && (j.parent = n || j.childLinks.contains n)).foldl
        (fun (t : State) j => t.endJob j.inst j.seq stTaskFault) w := by
  have hgo : ¬(6 ≤ n ∨ (s.link n).lostPosted = true ∨ (s.link n).state = .up ∨ (s.link n).state = .disabled ∨
      s.tb.count < since + 1000000000 ∨ s.working = false) := by
    simp only [hfirst, hnotUp, henabled, hwork, Bool.false_eq_true, Bool.true_eq_false, false_or, or_false]
    omega
  simp only [doPartnerLost, hdown]
  exact if_neg hgo

/-- Settles O50: each command by the lemma for it, and DISABLE by the value written and the state of the link. -/
theorem linksGoDown : Obligations.LinksGoDown := by
  intro s n hn hwork
  refine ⟨fun fecLost hlanes => congrArg Host.Outcome.next (doLossOfSignal_trained hn hwork fecLost hlanes),
    fun hdown hmedia => congrArg Host.Outcome.next (doLinkRetry_down hn hwork hdown hmedia),
    fun v hbar => ⟨fun hset => congrArg Host.Outcome.next (doRetrain_taken hn hwork hbar hset),
      fun hclear => congrArg Host.Outcome.next (doDisable_taken hn hwork hbar hclear)⟩,
    State.setDisable_disabled, State.setDisable_trained, State.setDisable_untrained, rfl, ?lost⟩
  rintro since hdown hfirst hnotUp henabled hlong _ rfl _ rfl
  exact congrArg Host.Outcome.next (doPartnerLost_due hn hwork hdown hfirst hnotUp henabled hlong)

end Sys2Proof.Machine

/-! PROOFS. The messages of a partner: requests, responses, and barriers across modules (R280 to R285, R292, R296, R300, R320). -/

namespace Sys2Proof.Machine

/-! ### Requests (R280 to R283, R292, R296, R320) -/

/-- A request leaves as a token for the unit at its address. -/
def State.forwardRequest (s : State) (n i : Nat) (kind : TokKind) (m : List Byte) (len : Nat) : State :=
  match s.linkToken n i kind m len with
  | some x => s.send x
  | none => s

/-- A request that the LINK record or the address check refuses is answered with its STATUS, any other leaves (R282, R283). -/
theorem State.linkAccess_eq (s : State) (n i k : Nat) (kind : TokKind) (u : Use) (m : List Byte) (len : Nat) :
    s.linkAccess n i k kind u m len =
      if s.linkAdmits n i = false then s.linkResponse n i k 2 (msgTagOf m) []
      else if s.linkAddrOk i u (msgAddr m) (if u = .acc then 2 * len else len) = false
        then s.linkResponse n i k 1 (msgTagOf m) []
      else s.forwardRequest n i kind m len := by
  simp only [State.linkAccess, Bool.not_eq_true']
  rfl

/-- What a READ of a scratchpad waits for, once it is admitted (R34, R110). -/
theorem State.scratchReadWaits_admitted {s : State} {n i q off : Nat} {m : List Byte} (hplace : s.place (msgAddr m) = .scratch q off)
    (hadmit : s.linkAdmits n i = true) (haddr : s.linkAddrOk i .read (msgAddr m) (msgArg m) = true) :
    s.scratchReadWaits n i m =
      if s.wayHeld (90 + n) (q / 11) = true ∨ s.wayHeld (q / 11) (90 + n) = true then some s
      else if (s.core q).act = .retention then some (s.wake q) else none := by
  simp only [State.scratchReadWaits, hplace, hadmit, haddr, Bool.not_true, Bool.or_self, Bool.false_eq_true, if_false,
    Bool.or_eq_true]

section messages
variable {s t : State} {n i key : Nat} {b plain : List Byte}
variable (h : s.incoming n 0 i key b plain) (ht : t = s.accepted n 0 i key b) (hask : msgResp plain = false)
include h hask

theorem doRead_waits (hkind : msgKind plain = 2) {w : State} (hwait : s.scratchReadWaits n i plain = some w) :
    doRead n key plain s = w := by
  rw [doRead, State.receive_incoming h, if_pos (by simp [hkind, hask]), hwait, Option.getD_some]

include ht

theorem doWrite_taken (hkind : msgKind plain = 1) : doWrite n key plain s =
    t.linkAccess n i 1 .write .write plain (msgPayload plain).length := by
  rw [doWrite, State.receive_incoming h, ← ht, if_pos (by simp [hkind, hask])]
  rfl

theorem doAccumulate_taken (hkind : msgKind plain = 3) : doAccumulate n key plain s =
    t.linkAccess n i 3 .accumulate .acc plain (msgPayload plain).length := by
  rw [doAccumulate, State.receive_incoming h, ← ht, if_pos (by simp [hkind, hask])]
  rfl

theorem doRead_scratch (hkind : msgKind plain = 2) (hfree : s.scratchReadWaits n i plain = none) {q off : Nat}
    (hplace : t.place (msgAddr plain) = .scratch q off) :
    doRead n key plain s =
      if t.linkAdmits n i = false then t.linkResponse n i 2 2 (msgTagOf plain) []
      else if t.linkAddrOk i .read (msgAddr plain) (msgArg plain) = false then t.linkResponse n i 2 1 (msgTagOf plain) []
      else t.linkScratchRead n i q off plain := by
  rw [doRead, State.receive_incoming h, ← ht, if_pos (by simp [hkind, hask]), hfree, Option.getD_none]
  simp only [hplace, Bool.not_eq_true']

theorem doRead_memory (hkind : msgKind plain = 2) (hfree : s.scratchReadWaits n i plain = none)
    (hplace : ∀ q off, t.place (msgAddr plain) ≠ .scratch q off) :
    doRead n key plain s = t.linkAccess n i 2 .readReq .read plain (msgArg plain) := by
  rw [doRead, State.receive_incoming h, ← ht, if_pos (by simp [hkind, hask]), hfree, Option.getD_none]
  split
  next q off hscratch => exact absurd hscratch (hplace q off)
  next => rfl

/-- A SEMAPHORE adds at the physical semaphore of the number sent (R36, R296, R320). -/
def State.forwardSem (s : State) (n i : Nat) (m : List Byte) : State :=
  match s.semPhys i (msgAddr m % 65536) with
  | none => s.linkResponse n i 4 1 (msgTagOf m) []
  | some k =>
    s.send { id := 0, kind := .semAdd, origin := .link n (msgTagOf m), inst := i, srcUnit := linkUnit n, dstUnit := semUnit (k / 4096),
             addr := BitVec.ofNat 64 k, n := msgArg m }

theorem doSemaphore_taken (hkind : msgKind plain = 4) :
    doSemaphore n key plain s =
      if t.linkAdmits n i = false then t.linkResponse n i 4 2 (msgTagOf plain) []
      else if bits (msgAddr plain) 59 16 ≠ 0 then t.linkResponse n i 4 1 (msgTagOf plain) []
      else t.forwardSem n i plain := by
  rw [doSemaphore, State.receive_incoming h, ← ht, if_pos (by simp [hkind, hask])]
  simp only [noWait, Option.getD_none, Bool.not_eq_true']
  rfl

/-! ### Barriers across modules (R300) -/

variable {j : Job}

omit ht in
/-- An ARRIVE for a later barrier waits. -/
theorem doArrive_early (hkind : msgKind plain = 6) (hsub : msgArg plain = 3)
    (hjob : (s.spanJob (msgPayload plain) fun j => j.childLinks.contains n) = some j)
    (hearly : j.barrier + 1 < leAt (msgPayload plain) 4 4) : doArrive n key plain s = s := by
  rw [doArrive, State.receive_incoming h, if_pos (by simp [hkind, hask, hsub]), hjob, if_pos (by simpa using hearly), Option.getD_some]

/-- A child has arrived at the barrier being met. -/
def State.childArrived (s : State) (n : Nat) (j : Job) (flag : Bool) : State :=
  (s.updJob j.inst j.seq fun j => { j with children := j.children ++ [n], childFlag := j.childFlag || flag }).spanArrive j.inst j.seq

theorem doArrive_met (hkind : msgKind plain = 6) (hsub : msgArg plain = 3)
    (hjob : (s.spanJob (msgPayload plain) fun j => j.childLinks.contains n) = some j)
    (hjob' : (t.spanJob (msgPayload plain) fun j => j.childLinks.contains n) = some j)
    (hmet : leAt (msgPayload plain) 4 4 = j.barrier + 1) (hnew : n ∉ j.children) :
    doArrive n key plain s = t.childArrived n j (bit (leAt (msgPayload plain) 8 1) 0) := by
  rw [doArrive, State.receive_incoming h, if_pos (by simp [hkind, hask, hsub]), hjob, ← ht, if_neg (by simp [hmet]), Option.getD_none]
  simp only [hjob']
  exact if_neg (by simp [hmet, hnew])

/-- The reduced flag has come, and is passed on to the children. -/
def State.flagPassed (s : State) (j : Job) (flag : Bool) : State :=
  j.childLinks.foldl (fun (t : State) c => if t.linkReady c 0xFF = true then t.linkControl c 4 (barrierPayload j flag) else t)
    (s.updJob j.inst j.seq fun j => { j with complete := some flag })

theorem doComplete_met (hkind : msgKind plain = 6) (hsub : msgArg plain = 4)
    (hjob : (t.spanJob (msgPayload plain) fun j => j.parent = n) = some j)
    (hmet : leAt (msgPayload plain) 4 4 = j.barrier + 1) :
    doComplete n key plain s = t.flagPassed j (bit (leAt (msgPayload plain) 8 1) 0) := by
  rw [doComplete, State.receive_incoming h, ← ht, if_pos (by simp [hkind, hask, hsub])]
  simp only [noWait, Option.getD_none, hjob]
  exact if_neg (not_not.2 hmet)

end messages

/-! ### Responses (R282, R285) -/

section responses
variable {s t : State} {n i key : Nat} {b plain : List Byte}
variable (h : s.incoming n 1 i key b plain) (ht : t = s.accepted n 1 i key b) (hresp : msgResp plain = true)
include h hresp

theorem doResponse_held (hheld : (s.answered n i plain).any (s.answerHeld n) = true) : doResponse n key plain s = s := by
  rw [doResponse, State.receive_incoming h, if_pos hresp, if_pos hheld, Option.getD_some]

/-- A response ends the request that it answers, when its length is the one asked for. -/
def State.endAnswered (s : State) (n i : Nat) (m : List Byte) : State :=
  match s.answered n i m with
  | none => s
  | some r =>
    if (msgPayload m).length ≠ (if r.kind = 2 ∧ (msgStatus m = 0 ∨ msgStatus m = 3) then r.len else 0) then s.authFail n
    else (s.answer n r (msgStatus m) (msgPayload m)).linkPump n

include ht in
theorem doResponse_free (hfree : (s.answered n i plain).any (s.answerHeld n) = false) :
    doResponse n key plain s = t.endAnswered n i plain := by
  rw [doResponse, State.receive_incoming h, ← ht, if_pos hresp, if_neg (Bool.not_eq_true _ ▸ hfree), Option.getD_none]
  rfl

end responses

/-- A request ends without a response 2 ms after it was sent (R285). -/
theorem doRequestTimeout_sent {s : State} {n tag sent : Nat} {r : LinkReq}
    (hreq : (s.link n).reqs.find? (fun r => r.tag = tag) = some r) (hsent : r.sentAt = some sent) :
    doRequestTimeout n tag s = if sent + 2000000 ≤ s.tb.count then s.endRequest n r else s := by
  have hlate : (r.sentAt.any fun t => decide (t + 2000000 ≤ s.tb.count)) = true ↔ sent + 2000000 ≤ s.tb.count := by
    rw [hsent, Option.any_some, decide_eq_true_iff]
  rw [doRequestTimeout, hreq]
  exact if_congr hlate rfl rfl

/-- Settles O49: each message by the lemma for its kind; a READ by whether it waits and by what it reads, an ARRIVE by its barrier. -/
theorem partnerMessages : Obligations.PartnerMessages := by
  intro s t n vc i key b plain h ht
  refine ⟨?requests, ?responses, fun tag r sent hreq hsent => congrArg Host.Outcome.next (doRequestTimeout_sent hreq hsent)⟩
  case requests =>
    rintro rfl hask
    refine ⟨?writes, fun hkind => ⟨fun w hwait => congrArg Host.Outcome.next (doRead_waits h hask hkind hwait),
        fun q off => State.scratchReadWaits_admitted, ?scratch, ?memory⟩,
      fun hkind => congrArg Host.Outcome.next (doSemaphore_taken h ht hask hkind),
      fun j hkind hsub hjob => ⟨fun hearly => congrArg Host.Outcome.next (doArrive_early h hask hkind hsub hjob hearly),
        fun hjob' hmet hnew => congrArg Host.Outcome.next (doArrive_met h ht hask hkind hsub hjob hjob' hmet hnew)⟩, ?complete⟩
    case writes =>
      rintro k _ _ c _ hc rfl rfl rfl hkind
      simp only [List.mem_cons, Prod.mk.injEq, List.not_mem_nil, or_false] at hc
      obtain ⟨rfl, rfl⟩ | ⟨rfl, rfl⟩ := hc
      · exact congrArg Host.Outcome.next ((doWrite_taken h ht hask hkind).trans (State.linkAccess_eq ..))
      · exact congrArg Host.Outcome.next ((doAccumulate_taken h ht hask hkind).trans (State.linkAccess_eq ..))
    case scratch =>
      rintro q off _ hfree hplace rfl
      exact congrArg Host.Outcome.next (doRead_scratch h ht hask hkind hfree hplace)
    case memory =>
      exact fun hfree hplace => congrArg Host.Outcome.next
        ((doRead_memory h ht hask hkind hfree hplace).trans (State.linkAccess_eq ..))
    case complete =>
      rintro j _ hkind hsub hjob hmet rfl
      exact congrArg Host.Outcome.next (doComplete_met h ht hask hkind hsub hjob hmet)
  case responses =>
    rintro rfl hresp
    exact ⟨fun hheld => congrArg Host.Outcome.next (doResponse_held h hresp hheld),
      fun hfree => congrArg Host.Outcome.next (doResponse_free h ht hresp hfree)⟩

end Sys2Proof.Machine

/-! PROOFS. The waiters of a semaphore, and ADD and SUB at the semaphore memories (R30, R139, R314 to R317). -/

namespace Sys2Proof.Machine

/-! ### The waiters of a semaphore (R315, R317) -/

section
variable (k c : Nat) (ws : List SemWaiter)

theorem examine_completed_phys : ∀ w ∈ (examine k c ws).2.2, w.phys = k := by
  fun_induction examine k c ws with
  | case1 c => simp
  | case2 c w ws h r ih => exact List.forall_mem_cons.2 ⟨h.1, ih⟩
  | case3 c w ws h r ih => exact ih

theorem examine_perm : ((examine k c ws).2.1 ++ (examine k c ws).2.2).Perm ws := by
  fun_induction examine k c ws with
  | case1 c => exact .nil
  | case2 c w ws h r ih => exact List.perm_middle.trans (ih.cons w)
  | case3 c w ws h r ih => exact ih.cons w

/-- A completed WAITSUB finds its amount in the count, so nothing is lost in the subtractions. -/
theorem examine_count : (examine k c ws).1 + (((examine k c ws).2.2.filter (·.sub)).map (·.n)).sum = c := by
  fun_induction examine k c ws with
  | case1 c => rfl
  | case2 c w ws h r ih =>
    cases hsub : w.sub with
    | false => simpa [hsub, r] using ih
    | true =>
      have hrest : r.1 + ((r.2.2.filter (·.sub)).map (·.n)).sum = c - w.n := by simpa [hsub, r] using ih
      have hle : w.n ≤ c := h.2
      simp only [List.filter_cons, hsub, if_true, List.map_cons, List.sum_cons]
      omega
  | case3 c w ws h r ih => exact ih

theorem examine_others : ((examine k c ws).2.1.filter fun w => w.phys ≠ k) = ws.filter fun w => w.phys ≠ k := by
  fun_induction examine k c ws with
  | case1 c => rfl
  | case2 c w ws h r ih => simpa [h.1] using ih
  | case3 c w ws h r ih => simp only [List.filter_cons, r, ih]

/-- The count only falls, so a waiter that was passed over stays below it. -/
theorem examine_stays : ∀ w ∈ (examine k c ws).2.1, w.phys = k → (examine k c ws).1 < w.n := by
  fun_induction examine k c ws with
  | case1 c => simp
  | case2 c w ws h r ih => exact ih
  | case3 c w ws h r ih =>
    refine List.forall_mem_cons.2 ⟨fun hk => ?_, ih⟩
    have hn : c < w.n := Nat.lt_of_not_le fun hle => h ⟨hk, hle⟩
    exact (Nat.le.intro (examine_count k c ws)).trans_lt hn

end

/-- With no waiter of the semaphore there is nothing to examine. -/
theorem examine_free {k : Nat} {ws : List SemWaiter} (c : Nat) (hfree : ∀ w ∈ ws, w.phys ≠ k) : examine k c ws = (c, ws, []) := by
  induction ws with
  | nil => rfl
  | cons w ws ih =>
    obtain ⟨hw, hws⟩ := List.forall_mem_cons.1 hfree
    rw [examine, if_neg fun h => hw h.1, ih hws]

/-- Settles O24, each clause by the recursion of the examination. -/
theorem examineCompletesWaiters : Obligations.ExamineCompletesWaiters := by
  rintro k c ws _ rfl
  exact ⟨fun w hw => ⟨examine_completed_phys k c ws w hw, (examine_perm k c ws).subset (List.mem_append_right _ hw)⟩,
    examine_perm k c ws, examine_count k c ws, examine_others k c ws, examine_stays k c ws⟩

/-! ### An operation on a semaphore (R314, R316) -/

@[simp] theorem State.semCount_take (s : State) (t : Token) (k : Nat) : (s.take t).semCount k = s.semCount k :=
  State.of_take (fun s => s.semCount k) (fun _ _ _ => rfl) s t
@[simp] theorem State.field_take (s : State) (t : Token) (f : Nat) : (s.take t).field f = s.field f :=
  State.of_take (fun s => s.field f) (fun _ _ _ => rfl) s t
@[simp] theorem State.fields_take (s : State) (t : Token) : (s.take t).fields = s.fields :=
  State.of_take State.fields (fun _ _ _ => rfl) s t
@[simp] theorem State.semWaiters_take (s : State) (t : Token) : (s.take t).semWaiters = s.semWaiters :=
  State.of_take State.semWaiters (fun _ _ _ => rfl) s t

/-- The count of a semaphore is set. -/
def State.semSet (s : State) (k c : Nat) : State := { s with sem := Tab.put 0 k (BitVec.ofNat 24 c) s.sem }

/-- An operation on a semaphore is counted, and, when it cuts the count, marked in its field's registers and recorded. -/
def State.semMarked (s : State) (k : Nat) (cut : Bool) (code : Nat) (mark : Field → Field) : State :=
  let u := s.semCounted k
  if cut then (u.updField (k / 4096) mark).event (semUnit (k / 4096)) code k (u.fieldConfid (k / 4096)) else u

/-- The mark of an ADD that is cut, and that of a SUB. -/
def Field.saturates (x : Field) : Field := { x with saturated := holdAdd 0xFFFF x.saturated 1 }
def Field.clamps (x : Field) : Field := { x with clamped := holdAdd 0xFFFF x.clamped 1 }

/-- An operation on semaphore k of s has made v: the count of k is c, the other counts are as they were, and of the rest only the
registers of fields, the counters and the rings may differ. -/
structure State.SemOp (s v : State) (k c : Nat) : Prop where
  count : v.semCount k = c
  others : ∀ j, j ≠ k → v.semCount j = s.semCount j
  frame : { v with fields := s.fields, sem := s.sem, obs := s.obs } = s

section operations
variable {s v : State} {k c n : Nat} {cut : Bool} {code : Nat} {mark : Field → Field}

theorem State.semCount_lt (s : State) (k : Nat) : s.semCount k < 2 ^ 24 := (Tab.get 0 s.sem k).isLt

theorem State.semCounted_eq (s : State) (k : Nat) : s.semCounted k =
    if s.fieldConfid (k / 4096) then s
    else (s.updField (k / 4096) fun x => { x with semOps := holdAdd 0xFFFFFFFF x.semOps 1 }).count (semUnit (k / 4096)) 0x07 1 := rfl

/-- What depends on neither the fields nor the counters and rings is as it was when an operation has been counted. -/
theorem State.of_semCounted {α : Type} (f : State → α)
    (hf : ∀ (s : State) fields obs, f { s with fields := fields, obs := obs } = f s) : f (s.semCounted k) = f s := by
  rw [State.semCounted_eq]
  split
  · rfl
  · exact hf s _ _

theorem State.of_semMarked {α : Type} (f : State → α)
    (hf : ∀ (s : State) fields obs, f { s with fields := fields, obs := obs } = f s) : f (s.semMarked k cut code mark) = f s := by
  unfold State.semMarked
  dsimp only
  split
  · rw [State.of_event f fun s obs => hf s s.fields obs]
    exact (hf (s.semCounted k) _ (s.semCounted k).obs).trans (State.of_semCounted f hf)
  · exact State.of_semCounted f hf

theorem State.sorted_fields_semCounted (hs : Tab.sorted s.fields = true) : Tab.sorted (s.semCounted k).fields = true := by
  rw [State.semCounted_eq]
  split
  · exact hs
  · exact Tab.sorted_put hs

theorem State.field_semCounted (hs : Tab.sorted s.fields = true) :
    ∃ ops, (s.semCounted k).field (k / 4096) = { s.field (k / 4096) with semOps := ops } := by
  rw [State.semCounted_eq]
  split
  · exact ⟨_, rfl⟩
  · exact ⟨_, Tab.get_put_self hs⟩

/-- A register of the field other than the count of operations goes by the mark alone. -/
theorem State.field_semMarked {α : Type} {cut : Prop} [Decidable cut] (reg : Field → α)
    (hreg : ∀ (x : Field) ops, reg { x with semOps := ops } = reg x)
    (hmark : ∀ (x : Field) ops, reg (mark { x with semOps := ops }) = reg (mark x)) (hs : Tab.sorted s.fields = true) :
    reg ((s.semMarked k (decide cut) code mark).field (k / 4096)) =
      if cut then reg (mark (s.field (k / 4096))) else reg (s.field (k / 4096)) := by
  obtain ⟨ops, hops⟩ := State.field_semCounted (k := k) hs
  by_cases hcut : cut
  · have hupd : ((s.semCounted k).updField (k / 4096) mark).field (k / 4096) = mark ((s.semCounted k).field (k / 4096)) :=
      Tab.get_put_self (State.sorted_fields_semCounted hs)
    rw [if_pos hcut, State.semMarked, if_pos (decide_eq_true hcut), State.of_event (fun s => s.field (k / 4096)) fun _ _ => rfl,
      hupd, hops, hmark]
  · rw [if_neg hcut, State.semMarked, if_neg (by simpa using hcut), hops, hreg]

theorem State.semMarked_frame (s : State) (k : Nat) (cut : Bool) (code : Nat) (mark : Field → Field) :
    { s.semMarked k cut code mark with fields := s.fields, obs := s.obs } = s :=
  State.of_semMarked (fun v => { v with fields := s.fields, obs := s.obs }) fun _ _ _ => rfl

theorem State.SemOp.of_set (hs : Tab.sorted s.sem = true) (hc : c < 2 ^ 24) :
    s.SemOp ((s.semMarked k cut code mark).semSet k c) k c := by
  have hsem : (s.semMarked k cut code mark).sem = s.sem := State.of_semMarked State.sem fun _ _ _ => rfl
  refine ⟨?count, fun j hj => ?others, congrArg (fun v : State => { v with sem := s.sem }) (s.semMarked_frame k cut code mark)⟩
  case count => rw [State.semSet, hsem, State.semCount, Tab.get_put_self hs, BitVec.toNat_ofNat, Nat.mod_eq_of_lt hc]
  case others => rw [State.semSet, hsem, State.semCount, Tab.get_put_ne hs hj, State.semCount]

theorem State.SemOp.of_kept : s.SemOp (s.semMarked k cut code mark) k (s.semCount k) where
  count := State.of_semMarked (fun s => s.semCount k) fun _ _ _ => rfl
  others j _ := State.of_semMarked (fun s => s.semCount j) fun _ _ _ => rfl
  frame := congrArg (fun v : State => { v with sem := s.sem }) (s.semMarked_frame k cut code mark)

/-- What depends on neither the fields, the counts of semaphores nor the counters and rings is as it was. -/
theorem State.SemOp.of {α : Type} (h : s.SemOp v k c) (f : State → α)
    (hf : ∀ (s : State) fields sem obs, f { s with fields := fields, sem := sem, obs := obs } = f s) : f v = f s :=
  (hf v s.fields s.sem s.obs).symm.trans (congrArg f h.frame)

/-! ### ADD and SUB -/

/-- A count that changes is set, when no waiter of the semaphore waits. -/
theorem State.semChange_marked (hfree : ∀ w ∈ s.semWaiters, w.phys ≠ k) (cut : Bool) (code : Nat) (mark : Field → Field) (c : Nat) :
    (s.semMarked k cut code mark).semChange k c = (s.semMarked k cut code mark).semSet k c := by
  have hwaiters : (s.semMarked k cut code mark).semWaiters = s.semWaiters := State.of_semMarked State.semWaiters fun _ _ _ => rfl
  rw [State.semChange, hwaiters, examine_free c hfree, ← hwaiters]
  rfl

theorem State.semCount_semCounted (s : State) (k : Nat) : (s.semCounted k).semCount k = s.semCount k :=
  State.of_semCounted (fun s => s.semCount k) fun _ _ _ => rfl

theorem State.semAddTo_eq (hfree : ∀ w ∈ s.semWaiters, w.phys ≠ k) :
    s.semAddTo k n =
      let v := s.semMarked k (decide (16777215 < s.semCount k + n)) 0x40 Field.saturates
      if n = 0 then v else v.semSet k (min 16777215 (s.semCount k + n)) := by
  simp only [State.semAddTo, State.semCount_semCounted]
  by_cases hcut : 16777215 < s.semCount k + n
  · have hn : n ≠ 0 := by
      rintro rfl
      exact absurd (s.semCount_lt k) (by omega)
    rw [if_neg hn, if_neg hn, if_pos hcut, decide_eq_true hcut, Nat.min_eq_left hcut.le]
    exact State.semChange_marked hfree true ..
  · rw [if_neg hcut, decide_eq_false hcut, Nat.min_eq_right (Nat.le_of_not_lt hcut)]
    exact if_congr Iff.rfl rfl (State.semChange_marked hfree false 0x40 Field.saturates _)

theorem State.semSubFrom_eq (hfree : ∀ w ∈ s.semWaiters, w.phys ≠ k) :
    s.semSubFrom k n = (s.semMarked k (decide (s.semCount k < n)) 0x41 Field.clamps).semSet k (s.semCount k - n) := by
  simp only [State.semSubFrom, State.semCount_semCounted]
  by_cases hcut : s.semCount k < n
  · rw [if_pos hcut, decide_eq_true hcut, Nat.sub_eq_zero_of_le hcut.le]
    exact State.semChange_marked hfree true ..
  · rw [if_neg hcut, decide_eq_false hcut]
    exact State.semChange_marked hfree false 0x41 Field.clamps _

theorem State.SemOp.of_add (hs : Tab.sorted s.sem = true) (hfree : ∀ w ∈ s.semWaiters, w.phys ≠ k) :
    s.SemOp (s.semAddTo k n) k (min 16777215 (s.semCount k + n)) := by
  rw [State.semAddTo_eq hfree]
  dsimp only
  split
  next hzero =>
    have hmin : min 16777215 (s.semCount k + n) = s.semCount k := by
      have := s.semCount_lt k
      omega
    rw [hmin]
    exact .of_kept
  next => exact .of_set hs (by omega)

theorem State.SemOp.of_sub (hs : Tab.sorted s.sem = true) (hfree : ∀ w ∈ s.semWaiters, w.phys ≠ k) :
    s.SemOp (s.semSubFrom k n) k (s.semCount k - n) := by
  rw [State.semSubFrom_eq hfree]
  exact .of_set hs ((Nat.sub_le ..).trans_lt (s.semCount_lt k))

/-- SATURATED counts the ADDs that are cut, and CLAMPED the SUBs. -/
theorem State.saturated_semAddTo (hs : Tab.sorted s.fields = true) (hfree : ∀ w ∈ s.semWaiters, w.phys ≠ k) :
    ((s.semAddTo k n).field (k / 4096)).saturated = if 16777215 < s.semCount k + n
      then holdAdd 0xFFFF (s.field (k / 4096)).saturated 1 else (s.field (k / 4096)).saturated := by
  have hsame : (s.semAddTo k n).field = (s.semMarked k (decide (16777215 < s.semCount k + n)) 0x40 Field.saturates).field := by
    rw [State.semAddTo_eq hfree]
    dsimp only
    split <;> rfl
  rw [hsame]
  exact State.field_semMarked Field.saturated (fun _ _ => rfl) (fun _ _ => rfl) hs

theorem State.clamped_semSubFrom (hs : Tab.sorted s.fields = true) (hfree : ∀ w ∈ s.semWaiters, w.phys ≠ k) :
    ((s.semSubFrom k n).field (k / 4096)).clamped = if s.semCount k < n
      then holdAdd 0xFFFF (s.field (k / 4096)).clamped 1 else (s.field (k / 4096)).clamped := by
  rw [State.semSubFrom_eq hfree]
  exact State.field_semMarked Field.clamped (fun _ _ => rfl) (fun _ _ => rfl) hs

end operations

/-! ### The end of an operation (R139, R282) -/

section retire
variable {α : Type} {s v : State} {t : Token} {k c p : Nat}

/-- What depends on neither the links nor the counters is as it was when a message has been handed over. -/
theorem State.of_linkPump (f : State → α) (hf : ∀ (s : State) links obs, f { s with links := links, obs := obs } = f s) (s : State)
    (n : Nat) : f (s.linkPump n) = f s := by
  unfold State.linkPump
  dsimp only
  split
  · exact hf s _ _
  · rfl

theorem State.of_linkPut (f : State → α) (hf : ∀ (s : State) links obs, f { s with links := links, obs := obs } = f s) (s : State)
    (n : Nat) (m : OutMsg) : f (s.linkPut n m) = f s := by
  have hupd (g : Link → Link) : f (s.updLink n g) = f s := hf s _ s.obs
  rw [State.linkPut, apply_ite f, State.of_linkPump f hf, hupd, ite_self]

/-- What depends on neither the cores, the links nor the counters is as it was when an operation ends. -/
theorem State.of_semRetire (f : State → α)
    (hf : ∀ (s : State) cores links obs, f { s with cores := cores, links := links, obs := obs } = f s) (s : State) (t : Token) :
    f (s.semRetire t) = f s := by
  unfold State.semRetire
  split
  · exact hf s _ s.links s.obs
  · exact State.of_linkPut f (fun s => hf s s.cores) ..
  · rfl

@[simp] theorem State.semCount_semRetire (s : State) (t : Token) (k : Nat) : (s.semRetire t).semCount k = s.semCount k :=
  State.of_semRetire (fun s => s.semCount k) (fun _ _ _ _ => rfl) s t
@[simp] theorem State.field_semRetire (s : State) (t : Token) (f : Nat) : (s.semRetire t).field f = s.field f :=
  State.of_semRetire (fun s => s.field f) (fun _ _ _ _ => rfl) s t

theorem State.core_semRetire (hs : Tab.sorted s.cores = true) (horig : t.origin = .seq p) (hwait : (s.core p).wait = .semPerformed)
    (htask : (s.core p).taskId = t.seq) : (s.semRetire t).core p = { (s.core p).advance with wait := .none } := by
  simp only [State.semRetire, horig]
  rw [State.core_updCore hs, if_pos ⟨hwait, htask⟩]

theorem State.core_semRetire_other (hs : Tab.sorted s.cores = true) (horig : t.origin ≠ .seq p) : (s.semRetire t).core p = s.core p := by
  unfold State.semRetire
  split
  next q hq => exact State.core_setCore_ne hs fun hpq => horig (hpq ▸ hq)
  next => exact State.of_linkPut (fun s => s.core p) (fun _ _ _ => rfl) ..
  next => rfl

/-- The token's arrival, its operation and the end of it leave waiters and memories, and of the cores all but the one that waits. -/
theorem State.SemOp.retire_leaves (h : (s.take t).SemOp v k c) (hs : Tab.sorted s.cores = true) :
    let u := v.semRetire t
    u.semWaiters = s.semWaiters ∧ u.pan = s.pan ∧ u.gran = s.gran ∧ u.nvs = s.nvs ∧
    (∀ p, t.origin ≠ .seq p → u.core p = s.core p) ∧
    (∀ p, t.origin = .seq p → (s.core p).wait = .semPerformed → (s.core p).taskId = t.seq →
      u.core p = { s.core p with pi := ((s.core p).pi + 1) % 8192, wait := .none }) := by
  have hcore (p : Nat) : v.core p = s.core p := (h.of (fun s => s.core p) fun _ _ _ _ => rfl).trans (s.core_take t p)
  have hsorted : Tab.sorted v.cores = true := by rwa [h.of State.cores fun _ _ _ _ => rfl, s.cores_take t]
  have hkept {α : Type} (f : State → α) (hf : ∀ (s : State) net cores fields sem links obs, f { s with
      net := net, cores := cores, fields := fields, sem := sem, links := links, obs := obs } = f s) : f (v.semRetire t) = f s :=
    calc f (v.semRetire t) = f v := State.of_semRetire f (fun s cores links obs => hf s s.net cores s.fields s.sem links obs) v t
      _ = f (s.take t) := h.of f fun s fields sem obs => hf s s.net s.cores fields sem s.links obs
      _ = f s := State.of_take f (fun s net obs => hf s net s.cores s.fields s.sem s.links obs) s t
  refine ⟨hkept State.semWaiters fun _ _ _ _ _ _ _ => rfl, hkept State.pan fun _ _ _ _ _ _ _ => rfl,
    hkept State.gran fun _ _ _ _ _ _ _ => rfl, hkept State.nvs fun _ _ _ _ _ _ _ => rfl,
    fun p horig => (State.core_semRetire_other hsorted horig).trans (hcore p), fun p horig hwait htask => ?_⟩
  rw [← hcore p] at hwait htask ⊢
  exact State.core_semRetire hsorted horig hwait htask

theorem doSemaphoreAdd_ok {tok : Nat} (harr : s.arriving tok [.semAdd] = some t) (hinst : s.fieldInst (t.addr.toNat / 4096) = some t.inst) :
    doSemaphoreAdd tok s = ((s.take t).semAddTo t.addr.toNat t.n).semRetire t := by
  have htag : (s.take t).semTagOk t = true := State.semTagOk_of_fieldInst (by rw [State.fieldInst_take, hinst])
  simp only [doSemaphoreAdd, harr, htag, if_true]

theorem doSemaphoreSub_ok {tok : Nat} (harr : s.arriving tok [.semSub] = some t) (hinst : s.fieldInst (t.addr.toNat / 4096) = some t.inst) :
    doSemaphoreSub tok s = ((s.take t).semSubFrom t.addr.toNat t.n).semRetire t := by
  have htag : (s.take t).semTagOk t = true := State.semTagOk_of_fieldInst (by rw [State.fieldInst_take, hinst])
  simp only [doSemaphoreSub, harr, htag, if_true]

end retire

/-- Settles O25: the token's arrival and the operation's end leave counts and fields, between which ADD and SUB act on one semaphore. -/
theorem semaphoreAddAndSub : Obligations.SemaphoreAddAndSub := by
  rintro s tok _ t rfl hsem hfields hcores hinst hfree
  rw [← s.sem_take t] at hsem
  rw [← s.fields_take t] at hfields
  rw [← s.semWaiters_take t] at hfree
  refine ⟨fun harr => ?add, fun harr => ?sub⟩
  case add =>
    have hop := State.SemOp.of_add (n := t.n) hsem hfree
    refine ⟨_, congrArg Host.Outcome.next (doSemaphoreAdd_ok harr hinst), ?_, fun j hj => ?_, ?_, hop.retire_leaves hcores⟩
    · rw [State.semCount_semRetire, hop.count, State.semCount_take]
    · rw [State.semCount_semRetire, hop.others j hj, State.semCount_take]
    · rw [State.field_semRetire, State.saturated_semAddTo hfields hfree, State.semCount_take, State.field_take]
  case sub =>
    have hop := State.SemOp.of_sub (n := t.n) hsem hfree
    refine ⟨_, congrArg Host.Outcome.next (doSemaphoreSub_ok harr hinst), ?_, fun j hj => ?_, ?_, hop.retire_leaves hcores⟩
    · rw [State.semCount_semRetire, hop.count, State.semCount_take]
    · rw [State.semCount_semRetire, hop.others j hj, State.semCount_take]
    · rw [State.field_semRetire, State.clamped_semSubFrom hfields hfree, State.semCount_take, State.field_take]

end Sys2Proof.Machine

/-! PROOFS. Rate reports, floors, the rate keeper, recalibration pauses and the reference (R331 to R335, R339, R445). -/

namespace Sys2Proof.Machine

section
variable {s : State} {r : Nat}

/-! ### Reports (R331, R334) -/

theorem State.measure_eq (rate mv temp : Nat) :
    s.measure r rate mv temp = s.updRegion r fun g =>
      { g with rate := rate, mv := mv, temp := temp, tempSum := g.tempSum + temp, tempN := g.tempN + 1
               recent := g.recent.filter (fun x => decide (s.tb.count ≤ x.1 + 100000000)) ++ [(s.tb.count, temp)]
               aboveSince := if 102 * s.zen.rateTarget r < 100 * rate
                 then (if g.aboveSince.isSome = true then g.aboveSince else some s.tb.count) else none } := by
  simp only [State.measure, Region.sense, decide_eq_true_eq]

theorem doFieldRateReport_taken (hr : r < 88) (hwork : s.working = true) (hpow : s.mgt.powered = true) (rate mv temp : Nat) :
    doFieldRateReport r rate mv temp s =
      let t := s.measure r rate mv temp
      if r < 80 ∧ (t.belowPlan r = true ∨ ((∃ x ∈ (t.region r).recent, x.2 < temp) ∧ ∃ j ∈ t.jobs, j.live = true ∧ r ∈ j.fields))
      then doResolve 3 [r] (t.updRegion r fun g => { g with recent := [(s.tb.count, temp)] }) else t := by
  have hgo : ¬(88 ≤ r ∨ s.working = false ∨ s.mgt.powered = false) := by simpa [hwork, hpow] using hr
  rw [doFieldRateReport, if_neg hgo]
  simp only [Bool.or_eq_true, Bool.and_eq_true, List.any_eq_true, decide_eq_true_eq, List.contains_iff_mem]
  rfl

/-! ### Floors and caps (R333, R445) -/

theorem State.capped_le {f c : Nat} (hcap : s.capOf f = some c) (x : Nat) : s.capped f x ≤ c := by
  simp only [State.capped, hcap, Nat.min_le_right]

/-- A floor is cut to the cap of its field last of all. -/
theorem State.floorRate_le_cap {f c : Nat} (hcap : s.capOf f = some c) (h : Nat) : s.floorRate f h ≤ c := State.capped_le hcap _

theorem doSupplyStep_capped {f c : Nat} (hf : f < 80) (hwork : s.working = true) (hcap : s.capOf f = some c) :
    doSupplyStep f s =
      if c < (s.region f).rate ∧ 600 < (s.region f).mv then s.updRegion f fun g => { g with mv := max 600 (g.mv - 5) } else s := by
  have hcond : (80 ≤ f ∨ s.working = false ∨ (s.region f).rate ≤ c ∨ (s.region f).mv ≤ 600) ↔
      ¬(c < (s.region f).rate ∧ 600 < (s.region f).mv) := by
    simp only [hwork, Bool.true_eq_false, false_or]
    omega
  simp only [doSupplyStep, hcap, hcond, ite_not]

/-! ### The rate keeper (R332) -/

/-- The rate that the keeper holds a region at: its target, cut to the cap of a field. -/
def State.keeperGoal (s : State) (r : Nat) : Nat := if r < 80 then s.capped r (s.zen.rateTarget r) else s.zen.rateTarget r

section keeper
variable (hr : r < 88) (hwork : s.working = true) (hstage : 8 ≤ s.mgt.stage)
include hr hwork hstage

theorem State.keeper_serves : ¬(s.working = false ∨ s.mgt.stage < 8 ∨ 88 ≤ r) := by
  simpa [hwork] using ⟨hstage, hr⟩

variable (htarget : s.zen.rateTarget r ≠ 0)
include htarget

theorem doRateKeeperStep_slow (hslow : (s.region r).rate < s.keeperGoal r) (hroom : (s.region r).mv < s.zen.vCeiling r) :
    doRateKeeperStep r s = s.updRegion r fun g => { g with mv := min ((s.region r).mv + 5) (s.zen.vCeiling r) } := by
  rw [doRateKeeperStep, if_neg (State.keeper_serves hr hwork hstage)]
  exact (if_neg htarget).trans ((if_pos hslow).trans (if_pos hroom))

theorem doRateKeeperStep_fast {t : Nat} (hfast : ¬(s.region r).rate < s.keeperGoal r) (habove : (s.region r).aboveSince = some t)
    (hlong : t + 100000000 ≤ s.tb.count) (hroom : s.zen.vTarget r < (s.region r).mv) :
    doRateKeeperStep r s = s.updRegion r fun g => { g with mv := max ((s.region r).mv - 5) (s.zen.vTarget r) } := by
  have hfall : (((s.region r).aboveSince.any fun t => decide (t + 100000000 ≤ s.tb.count)) &&
      decide (s.zen.vTarget r < (s.region r).mv)) = true := by
    rw [habove, Option.any_some, Bool.and_eq_true, decide_eq_true_eq, decide_eq_true_eq]
    exact ⟨hlong, hroom⟩
  rw [State.keeperGoal] at hfast
  rw [doRateKeeperStep, if_neg (State.keeper_serves hr hwork hstage)]
  simp only [htarget, hfast, hfall, if_true, if_false]

end keeper

/-! ### Recalibration (R335) -/

section asked
variable {v : BitVec 32} (hbar : s.bar0All = true) (hwork : s.working = true) (hset : bit v.toNat 7 = true)
  (hkeep : bit v.toNat 10 = false) (hfld : fld v 6 0 < 88)
include hbar hwork hset hkeep hfld

/-- A write that asks for a pause of a region, and does not clear RECAL_DONE. -/
theorem State.recalWrite_taken {force : Bool} (hforce : bit v.toNat 8 = force) (body : State → Nat → State) :
    s.recalWrite v force body = body s (fld v 6 0) := by
  simp [State.recalWrite, hbar, hwork, hset, hkeep, hfld, hforce]

theorem doRecalRequest_taken (hforce : bit v.toNat 8 = false) :
    doRecalRequest v s = if fld v 6 0 ∈ s.adm.recalQueue then s
      else { s with adm := { s.adm with recalQueue := s.adm.recalQueue ++ [fld v 6 0] } } := by
  rw [doRecalRequest, State.recalWrite_taken hbar hwork hset hkeep hfld hforce]
  simp only [List.contains_iff_mem]

theorem doRecalForce_taken (hforce : bit v.toNat 8 = true) (hidle : ∀ x ∈ s.adm.recalRun, x.1 ≠ fld v 6 0) :
    doRecalForce v s = if s.pauseHeld (fld v 6 0) = true
      then { s with adm := { s.adm with recalQueue := (fld v 6 0) :: s.adm.recalQueue.filter (· ≠ fld v 6 0) } }
      else ((s.movePlans (fld v 6 0) 3000000).startRecal (fld v 6 0)).resolveFrom s.jobs 7 fun j => j.onRegion (fld v 6 0) := by
  have hrun : ¬(s.adm.recalRun.any fun x => x.1 = fld v 6 0) = true := by
    simpa only [List.any_eq_true, decide_eq_true_eq, not_exists, not_and] using hidle
  rw [doRecalForce, State.recalWrite_taken hbar hwork hset hkeep hfld hforce, if_neg hrun]

end asked

/-- The first of the queued regions whose pause fits, that nothing holds, and that is not paused already. -/
theorem doRecalPauseStart_first {a b : List Nat} (hwork : s.working = true) (hqueue : s.adm.recalQueue = a ++ r :: b)
    (hfits : s.pauseFits r 3000000 = true) (hheld : s.pauseHeld r = false) (hidle : ∀ x ∈ s.adm.recalRun, x.1 ≠ r)
    (hbefore : ∀ q ∈ a, s.pauseFits q 3000000 = false ∨ s.pauseHeld q = true ∨ ∃ x ∈ s.adm.recalRun, x.1 = q) :
    doRecalPauseStart s =
      (State.movePlans { s with adm := { s.adm with recalQueue := s.adm.recalQueue.erase r } } r 3000000).startRecal r := by
  have hfirst : (s.adm.recalQueue.find? fun r =>
      s.pauseFits r 3000000 && !s.pauseHeld r && !s.adm.recalRun.any fun x => x.1 = r) = some r := by
    have hno : (s.adm.recalRun.any fun x => x.1 = r) = false := by
      simpa only [List.any_eq_false, decide_eq_true_eq] using hidle
    refine List.find?_eq_some_iff_append.2 ⟨by simp [hfits, hheld, hno], a, b, hqueue, fun q hq => ?_⟩
    obtain h | h | ⟨x, hx, hxq⟩ := hbefore q hq
    · simp [h]
    · simp [h]
    · have hpaused : (s.adm.recalRun.any fun x => x.1 = q) = true := List.any_eq_true.2 ⟨x, hx, by simpa using hxq⟩
      simp [hpaused]
  rw [doRecalPauseStart, hfirst]
  exact if_neg (by simp [hwork])

theorem doRecalPauseEnd_passed {x : Nat × Nat} (hwork : s.working = true)
    (hpassed : s.adm.recalRun.find? (fun x => decide (x.2 ≤ s.tb.count)) = some x) :
    doRecalPauseEnd s = State.runAll (State.resumeRegion { s with
      adm := { s.adm with recalRun := s.adm.recalRun.erase x, recalDone := true }
      nvs := { s.nvs with calibration := Config.recalibrated 0 x.1 s.tb.count s.nvs.calibration } } x.1 1) := by
  rw [doRecalPauseEnd, hpassed]
  exact if_neg (by simp [hwork])

end

/-! ### The black box (R422, R424) -/

/-- A fatal event or a thermal trip stops all work, asserts FAULT# and writes the black box, whether a dump runs or not. -/
theorem State.blackBox_stops {causes : Nat} (hcause : causes % 4 ≠ 0) (s : State) (fatal : Nat) :
    (s.blackBox causes fatal).mgt.stopped = true ∧ (s.blackBox causes fatal).mgt.faultPin = true ∧
    (s.blackBox causes fatal).mgt.dumping = true := by
  cases hdump : s.mgt.dumping <;> simp [State.blackBox, hcause, hdump]

/-- Settles O44: each command under the conditions of its clause; the keeper by whether the region runs below its goal. -/
theorem ratesRecalibrationReference : Obligations.RatesRecalibrationReference := by
  intro s hwork
  refine ⟨?report, congrArg Host.Outcome.next (if_pos hwork), fun f h c hcap => State.floorRate_le_cap hcap h,
    fun r hr hstage htarget => ⟨fun hslow hroom => ?slow, fun t hfast habove hlong hroom => ?fast⟩,
    fun f c hf hcap => congrArg Host.Outcome.next (doSupplyStep_capped hf hwork hcap),
    fun v hbar hset hkeep hfld => ⟨fun hforce => ?request, fun hforce hidle => ?force⟩,
    fun a r b hqueue hfits hheld hidle hbefore => ?start,
    fun x hpassed => congrArg Host.Outcome.next (doRecalPauseEnd_passed hwork hpassed),
    fun hrun hover => congrArg Host.Outcome.next (if_pos ⟨hrun, hover⟩),
    fun hover hstop => ⟨fun hin => congrArg Host.Outcome.next (if_pos ⟨hover, hin, hstop⟩),
      fun hout => ⟨congrArg Host.Outcome.next (if_pos ⟨hover, hout, hstop⟩), s.blackBox_stops (by decide) 1⟩⟩⟩
  case report =>
    intro r rate mv temp t hr hpow ht
    rw [← State.measure_eq] at ht
    subst ht
    exact congrArg Host.Outcome.next (doFieldRateReport_taken hr hwork hpow rate mv temp)
  case slow => exact congrArg Host.Outcome.next (doRateKeeperStep_slow hr hwork hstage htarget hslow hroom)
  case fast => exact congrArg Host.Outcome.next (doRateKeeperStep_fast hr hwork hstage htarget hfast habove hlong hroom)
  case request => exact congrArg Host.Outcome.next (doRecalRequest_taken hbar hwork hset hkeep hfld hforce)
  case force => exact congrArg Host.Outcome.next (doRecalForce_taken hbar hwork hset hkeep hfld hforce hidle)
  case start => exact congrArg Host.Outcome.next (doRecalPauseStart_first hwork hqueue hfits hheld hidle hbefore)

end Sys2Proof.Machine

/-! PROOFS. The intake window and the release of result slots (R361, R363, R365, R367, R370), admission's decision (R344, R345),
re-planning after an event, overruns and quanta (R348, R351, R353). -/

namespace Sys2Proof.Machine

/-! ### Intake and release (R365, R367, R370) -/

section page
variable {s : State} {port i : Nat} {ide : Bool} {data : List Byte}
  (htaken : ∀ body : State → State, s.pageWrite port i ide body = body s)
include htaken

theorem doIntakeChunkWrite_taken {off : Nat} (hlen : data.length = 64) (hoff : off = 0 ∨ off = 0x40 ∨ off = 0x80) :
    doIntakeChunkWrite port i ide off data s = s.updInst i fun x => { x with chunks := Tab.put [] (off / 64) data x.chunks } := by
  rw [doIntakeChunkWrite, htaken]
  exact if_pos ⟨hlen, hoff⟩

/-- A COMMIT of 64 bytes empties the window; a next SEQ and a slot are taken only when no check refuses it. -/
theorem doCommit_taken (hlen : data.length = 64) :
    doCommit port i ide data s =
      let t := s.updInst i fun x => { x with chunks := [], badWrite := false }
      let q := leAt data 0x38 4
      if q ≠ (s.inst i).nextSeq then t.refuseIntake i q stBadSequence
      else if ((s.inst i).slot q).use ≠ .empty then t.refuseIntake i q stSlotBusy
      else if 32 ≤ (t.jobs.filter fun j => j.inst = i && j.phase = .undecided).length then t.refuseIntake i q stIntakeFull
      else State.updInst { t with jobs := t.jobs ++ [{
          inst := i, port := port, seq := q, commitTb := s.tb.count
          raw := padTo 64 (Tab.get [] (s.inst i).chunks 0) ++ padTo 64 (Tab.get [] (s.inst i).chunks 1) ++
            padTo 64 (Tab.get [] (s.inst i).chunks 2) ++ data
          bad := (s.inst i).badWrite || (List.range 3).any fun k => (Tab.get [] (s.inst i).chunks k).isEmpty }] } i
        fun x => ({ x with nextSeq := (x.nextSeq + 1) % 2 ^ 32 } : Inst).setSlot q { x.slot q with use := .pending } := by
  rw [doCommit, htaken]
  exact if_neg (not_not.2 hlen)

/-- A release of slot k: the write lies in the slot's last word. -/
theorem doRelease_taken {k : Nat} (hk : k < 64) (hactive : (s.inst i).state = .active) (hlen : data.length = 8) :
    doRelease port i ide (64 * k + 0x38) data s =
      let r := (s.inst i).slot k
      if leAt data 0 4 = r.seq ∧ leAt data 4 4 = 0xFF ∧ (r.use = .done ∨ r.use = .refused)
      then s.updInst i fun x => x.setSlot k { r with use := .empty }
      else s.updPort port fun p => { p with badRelease := holdAdd 0xFFFF p.badRelease 1 } := by
  have hslot : (64 * k + 0x38) / 64 = k := by omega
  have hword : (64 * k + 0x38) % 64 = 0x38 := by omega
  have hwindow : 64 * k + 0x38 < 0x1000 := by omega
  rw [doRelease, htaken]
  simp only [hslot, hword, hwindow, hlen, hactive, ne_eq, not_true_eq_false, false_and, if_false, true_and]

end page

/-! ### The decision (R344, R345) -/

/-- The latency of the decision on a job is counted and shown (R344, R355). -/
def State.decisionTimed (s : State) (j : Job) : State :=
  { s with adm := { s.adm with
    late := if 2000 < s.tb.count - j.commitTb then holdAdd 0xFFFF s.adm.late 1 else s.adm.late
    lastLatency := min 0xFFF (s.tb.count - j.commitTb) } }

theorem doAdmissionDecision_oldest {s : State} {j : Job} (hwork : s.working = true)
    (holdest : s.jobs.find? (fun j => j.phase = .undecided) = some j) :
    doAdmissionDecision s = match (s.decisionTimed j).decideJob j with
      | .refuse c planned => (s.decisionTimed j).refuseJob j c planned
      | .accept u slot rows p led => State.acceptJob { u with adm := { u.adm with ledger := led } } j slot rows p := by
  rw [doAdmissionDecision, holdest]
  exact if_neg (by simp [hwork])

theorem State.decideJob_refused {s : State} {j : Job} (h : s.jobRefusal j ≠ 0) : s.decideJob j = .refuse (s.jobRefusal j) 0 :=
  if_pos h

/-! ### Events, overruns and quanta (R348, R351, R353) -/

theorem doResolve_taken {s : State} {cause : Nat} (hwork : s.working = true) (hpos : 1 ≤ cause) (hle : cause ≤ 7) (regions : List Nat) :
    doResolve cause regions s =
      let t := regions.foldl (fun t f => if f < 80 then t.updRegion f fun g => { g with floor := t.floorRate f second } else t) s
      let u := if cause = 4 then t.rebook else t
      u.resolveFrom t.jobs cause (u.touches regions) := by
  have hgo : ¬(cause = 0 ∨ 7 < cause ∨ s.working = false) := by
    simp only [hwork, Bool.true_eq_false, or_false]
    omega
  rw [doResolve, if_neg hgo]

section job
variable {s : State} {i q : Nat} {j : Job} (hjob : s.job? i q = some j) (hwork : s.working = true)
include hjob hwork

theorem doOverrun_late (hlive : j.live = true) (hprom : j.promised = true) (hexpl : s.explained j = false)
    (hsusp : s.suspended i = false) (hlate : j.limit ≤ s.tb.count) :
    doOverrun i q s =
      (State.updJob (s.updInst i fun x => { x with overruns := holdAdd 0xFFFFFFFF x.overruns 1 }) i q
        fun j => { j with overrun := true }).post i 4 0 q (leBytes 4 j.tag ++ leBytes 4 0 ++ leBytes 8 j.limit) := by
  have hgo : ¬(j.live = false ∨ j.promised = false ∨ s.explained j = true ∨ s.suspended i = true ∨ s.tb.count < j.limit ∨
      s.working = false) := by
    simpa [hlive, hprom, hexpl, hsusp, hwork] using hlate
  simp only [doOverrun, hjob, if_neg hgo]

theorem doQuantumExpiry_run (hrun : j.phase = .running) (hclass : j.cls ≠ 1)
    (hover : j.dispatchTb + max 2 s.adm.quantum.toNat * 1000000 ≤ s.tb.count) :
    doQuantumExpiry i q s = s.updJob i q fun j => { j with quantumOver := true } := by
  simp only [doQuantumExpiry, hjob]
  exact if_pos ⟨hrun, hclass, hover, hwork⟩

end job

/-- Settles O45: the writes that a page takes, the decision on the oldest undecided job, and each event by its lemma. -/
theorem intakeAndAdmission : Obligations.IntakeAndAdmission := by
  intro s hwork
  refine ⟨fun port i ide data hbar hport hpage herr hide => ?page, ?decision, fun j => State.decideJob_refused, ?resolve,
    fun i q j hjob => ⟨fun hlive hprom hexpl hsusp hlate =>
        congrArg Host.Outcome.next (doOverrun_late hjob hwork hlive hprom hexpl hsusp hlate),
      fun hrun hclass hover => congrArg Host.Outcome.next (doQuantumExpiry_run hjob hwork hrun hclass hover)⟩⟩
  case page =>
    have htaken := State.pageWrite_taken hbar hwork hport hpage herr hide
    refine ⟨fun off hlen hoff => congrArg Host.Outcome.next (doIntakeChunkWrite_taken htaken hlen hoff), ?_, ?_⟩
    · rintro _ hlen rfl
      exact congrArg Host.Outcome.next (doCommit_taken htaken hlen)
    · rintro k _ hk rfl hactive hlen
      exact congrArg Host.Outcome.next (doRelease_taken htaken hk hactive hlen)
  case decision =>
    rintro j _ holdest rfl
    exact congrArg Host.Outcome.next (doAdmissionDecision_oldest hwork holdest)
  case resolve =>
    rintro cause regions _ _ hpos hle rfl rfl
    exact congrArg Host.Outcome.next (doResolve_taken hwork hpos hle regions)

end Sys2Proof.Machine

/-! PROOFS. Caps and throttling: THROTTLE#, heat, power and the 10 ms steps of the caps (R334, R444, R445). -/

namespace Sys2Proof.Machine

section
variable {s : State}

/-! ### THROTTLE# (R444) -/

theorem doThrottleAssert_first (hpin : s.mgt.pin = false) (hpow : s.mgt.powered = true) (hwork : s.working = true) :
    doThrottleAssert s = (State.alert { s with mgt := { s.mgt with pin := true } } 1).capReport (List.range 80) := by
  have hgo : ({ s with mgt := { s.mgt with pin := true } } : State).mgt.powered &&
      ({ s with mgt := { s.mgt with pin := true } } : State).working := by simpa [hpow, State.working] using hwork
  rw [doThrottleAssert, if_neg (by simp [hpin])]
  exact if_pos hgo

section running
variable (hpow : s.mgt.powered = true) (hwork : s.working = true)
include hpow hwork

/-! ### Heat and power (R444) -/

theorem doColumnHot_hot {p t0 t7 : Nat} (hp : p < 880) (hhot : 85 < max t0 t7) :
    doColumnHot p t0 t7 s =
      let t := (s.sensePan p t0 t7).updPan p fun m => { m with hot := true }
      if (t.field (p / 11)).caps.refresh.isSome = true then t
      else ((t.updCaps (p / 11) fun x => { x with refresh := some (t.floorRate (p / 11) second * 97 / 100) }).alert 1).capReport
        [p / 11] := by
  have hgo : ¬(880 ≤ p ∨ max t0 t7 ≤ 85 ∨ s.mgt.powered = false ∨ s.working = false) := by
    simp only [hpow, hwork, Bool.true_eq_false, or_false]
    omega
  rw [doColumnHot, if_neg hgo]

theorem doFieldHot_hot {f temp : Nat} {column : Bool} (hf : f < 80) (hhot : (if column = true then 90 else 100) ≤ temp) :
    doFieldHot f column temp s =
      let t := if column = true then s else s.updRegion f fun g => g.sense temp
      if (t.field f).caps.thermal.isSome = true then t.updCaps f fun x => { x with rising := false }
      else ((t.updCaps f fun x => { x with thermal := some (t.capStart f), rising := false }).alert 1).capReport [f] := by
  have hgo : ¬(80 ≤ f ∨ temp < (if column = true then 90 else 100) ∨ s.mgt.powered = false ∨ s.working = false) := by
    simp only [hpow, hwork, Bool.true_eq_false, or_false]
    omega
  rw [doFieldHot, if_neg hgo]

theorem doPowerOverLimit_over {watts : Nat} (hover : s.powerLimitW < watts) :
    doPowerOverLimit watts s =
      let fresh := (List.range 80).filter fun f => ((s.setWatts watts).field f).caps.power.isNone
      let t := fresh.foldl (fun (t : State) f => t.updCaps f fun x => { x with power := some (t.capStart f) }) (s.setWatts watts)
      if fresh = [] then { t with mgt := { t.mgt with powerOver := true } }
      else (State.alert { t with mgt := { t.mgt with powerOver := true } } 1).capReport fresh := by
  have hgo : ¬(s.mgt.powered = false ∨ s.working = false ∨ watts ≤ s.powerLimitW) := by simpa [hpow, hwork] using hover
  rw [doPowerOverLimit, if_neg hgo]
  simp only [List.isEmpty_iff]

/-! ### The steps of the caps (R444) -/

theorem doCapStep_running :
    doCapStep s =
      let capped := (List.range 80).filter fun f => (s.field f).caps.thermal.isSome || (s.field f).caps.power.isSome
      let t := capped.foldl (fun (t : State) f => t.updCaps f fun x => { x with
        thermal := capMove (s.capStart f) x.rising x.thermal
        rising := x.rising && (capMove (s.capStart f) x.rising x.thermal).isSome
        power := capMove (s.capStart f) (!s.mgt.powerOver) x.power }) s
      t.capReport (capped.filter fun f => ((s.field f).caps.thermal.isSome && !(s.field f).caps.rising) ||
        ((s.field f).caps.power.isSome && s.mgt.powerOver)) :=
  if_neg (by simp [hpow, hwork])

/-! ### Release (R444) -/

theorem doThermalRelease_column {p t0 t7 : Nat} (hp : p < 880) (hcool : max t0 t7 < 83) :
    doThermalRelease 0 p t0 t7 s =
      let t := (s.sensePan p t0 t7).updPan p fun m => { m with hot := false }
      if ((List.range 11).any fun k => (Tab.get {} t.panCtl (p / 11 * 11 + k)).hot) = true then t
      else t.updCaps (p / 11) fun x => { x with refresh := none } := by
  have hgo : ¬(880 ≤ p ∨ 83 ≤ max t0 t7) := by omega
  rw [doThermalRelease, if_neg (by simp [hpow, hwork]), if_pos rfl, if_neg hgo]

theorem doThermalRelease_field {f temp : Nat} (other : Nat) (hf : f < 80) (hcool : temp < 97)
    (hcap : (s.field f).caps.thermal ≠ none) (hcolumns : ∀ k < 11, (Tab.get {} s.panCtl (f * 11 + k)).temp < 87) :
    doThermalRelease 1 f temp other s =
      (s.updRegion f fun g => g.sense temp).updCaps f fun x => { x with rising := true } := by
  have hno : ((List.range 11).any fun k => decide (87 ≤ (Tab.get {} s.panCtl (f * 11 + k)).temp)) = false := by
    simpa only [List.any_eq_false, List.mem_range, decide_eq_true_eq, not_le] using hcolumns
  have hgo : ¬(80 ≤ f ∨ 97 ≤ temp ∨ (s.field f).caps.thermal.isNone = true ∨
      ((List.range 11).any fun k => decide (87 ≤ (Tab.get {} s.panCtl (f * 11 + k)).temp)) = true) := by
    simp only [hno, Option.isNone_iff_eq_none, hcap, Bool.false_eq_true, or_false]
    omega
  rw [doThermalRelease, if_neg (by simp [hpow, hwork]), if_neg (by decide), if_pos rfl, if_neg hgo]

theorem doThermalRelease_power {watts : Nat} (unit other : Nat) (hlow : 100 * watts ≤ s.powerLimitW * 95) :
    doThermalRelease 2 unit watts other s =
      { s.setWatts watts with mgt := { (s.setWatts watts).mgt with powerOver := false } } := by
  rw [doThermalRelease, if_neg (by simp [hpow, hwork]), if_neg (by decide), if_neg (by decide), if_pos rfl, if_neg hlow.not_gt]

end running
end

/-- Settles O58: each command by the lemma for it; a reading and a cap's move are by definition. -/
theorem capsAndThrottling : Obligations.CapsAndThrottling := by
  intro s
  refine ⟨fun hpin hpow hwork => congrArg Host.Outcome.next (doThrottleAssert_first hpin hpow hwork), rfl,
    fun hpow hwork => ⟨?column, ?field, ?power, ?step, ?coolColumn, ?coolField, ?lowPower⟩, fun p t0 t7 => rfl, fun start c => ⟨rfl, rfl⟩⟩
  case column =>
    rintro p t0 t7 _ hp hhot rfl
    exact congrArg Host.Outcome.next (doColumnHot_hot hpow hwork hp hhot)
  case field =>
    rintro f column temp _ hf hhot rfl
    exact congrArg Host.Outcome.next (doFieldHot_hot hpow hwork hf hhot)
  case power =>
    rintro watts _ _ hover rfl rfl
    exact congrArg Host.Outcome.next (doPowerOverLimit_over hpow hwork hover)
  case step =>
    rintro _ _ rfl rfl
    exact congrArg Host.Outcome.next (doCapStep_running hpow hwork)
  case coolColumn =>
    rintro p t0 t7 hp hcool _ rfl
    exact congrArg Host.Outcome.next (doThermalRelease_column hpow hwork hp hcool)
  case coolField =>
    intro f temp other hf hcool hcap hcolumns
    exact congrArg Host.Outcome.next (doThermalRelease_field hpow hwork other hf hcool hcap hcolumns)
  case lowPower =>
    intro unit watts other hlow
    exact congrArg Host.Outcome.next (doThermalRelease_power hpow hwork unit other hlow)

end Sys2Proof.Machine

/-! PROOFS. Instance reset: a write of HPn_INST_RESET, the drain limit, the way to RETIRED and to ACTIVE again, and the function-level
reset of a port (R359, R374 to R376, R383). -/

namespace Sys2Proof.Machine

/-- An instance on its way to RETIRED as its record is written: its page state and keys are gone, and its sessions have ended. -/
def State.retiring (s : State) (i : Nat) : State :=
  ((s.event (portUnit (s.instPort i)) 0x70 i (s.confid i)).updInst i Inst.retire).endSessions i

section
variable {s : State} (hwork : s.working = true)
include hwork

/-! ### A write of HPn_INST_RESET (R374, R375) -/

section write
variable {port mode : Nat} {v : BitVec 32} {ok : InstState → Bool} {body : State → Nat → State}
  (hbar : s.bar0All = true) (hport : port < 2) (hmode : fld v 7 6 = mode) (hkeep : bit v.toNat 8 = false)
include hbar hport hmode hkeep

/-- A write that leaves REFUSED set is decided on the state it finds: bound to the port, not in a re-layout, and in a state for it. -/
theorem State.instReset_eq :
    s.instReset port mode v ok body =
      if (!s.pageOn port (fld v 5 0) || s.inRelayout (fld v 5 0) || !ok (s.inst (fld v 5 0)).state) = true
      then s.updPort port fun p => { p with refused := true } else body s (fld v 5 0) := by
  have hgo : ¬(fld v 7 6 ≠ mode ∨ 2 ≤ port ∨ s.bar0All = false ∨ s.working = false) := by
    simpa [hmode, hbar, hwork] using hport
  rw [State.instReset, if_neg hgo]
  simp only [hkeep, Bool.false_eq_true, if_false]

theorem State.instReset_taken (hpage : s.pageOn port (fld v 5 0) = true) (hlay : s.inRelayout (fld v 5 0) = false)
    (hok : ok (s.inst (fld v 5 0)).state = true) : s.instReset port mode v ok body = body s (fld v 5 0) := by
  rw [State.instReset_eq hwork hbar hport hmode hkeep, if_neg (by simp [hpage, hlay, hok])]

theorem State.instReset_refused (hok : ok (s.inst (fld v 5 0)).state = false) :
    s.instReset port mode v ok body = s.updPort port fun p => { p with refused := true } := by
  rw [State.instReset_eq hwork hbar hport hmode hkeep, if_pos (by simp [hok])]

end write

/-! ### The drain limit (R75, R375) -/

section limit
variable {i : Nat} (hpassed : (s.inst i).drainAt ≤ s.tb.count)
include hpassed

theorem doDrainLimitExpiry_draining (hstate : (s.inst i).state = .draining) : doDrainLimitExpiry i s = s.squashInst i := by
  rw [doDrainLimitExpiry, if_neg (by simpa [hwork] using hpassed), if_pos hstate]

theorem doDrainLimitExpiry_adopting (hstate : (s.inst i).state = .adopting) : doDrainLimitExpiry i s = s.squashJobs i := by
  rw [doDrainLimitExpiry, if_neg (by simpa [hwork] using hpassed), if_neg (by simp [hstate]), if_pos hstate]

end limit

/-! ### RETIRED and ACTIVE again (R376, R383) -/

theorem doInstanceRetired_quiet {i : Nat} (hstate : (s.inst i).state = .draining ∨ (s.inst i).state = .squashing)
    (hquiet : s.instQuiet i = true) :
    doInstanceRetired i s =
      let t := (s.retiring i).semClear fun k => (s.retiring i).zen.sems.any fun r =>
        r.inst = i && r.field = k / 4096 && r.pbase ≤ k % 4096 && k % 4096 < r.pbase + r.count
      { t with
        cat := t.cat.map fun e => if e.2.inst = i ∧ e.2.state ≠ .free then (e.1, e.2.release) else e
        train := t.train.filter fun e => e.2.inst ≠ i
        upd := { t.upd with queue := t.upd.queue.filter fun u => (t.train1 u.index).inst ≠ i } } := by
  have hgo : ¬(((s.inst i).state ≠ .draining ∧ (s.inst i).state ≠ .squashing) ∨ s.working = false) := by
    rintro (⟨hdrain, hsquash⟩ | hstop)
    · exact hstate.elim hdrain hsquash
    · simp [hwork] at hstop
  rw [doInstanceRetired, if_neg hgo, if_neg (by simp [hquiet])]
  rfl

theorem doInstanceZeroingComplete_retired {i : Nat} (hstate : (s.inst i).state = .retired) (hrng : s.sec.rngFail = false)
    (hlock : s.sec.unlocking = none) :
    doInstanceZeroingComplete i s = ((s.zeroInst i).updInst i fun x => { x with state := .active }).newKeys i :=
  if_neg (by simp [hstate, hwork, hrng, hlock])

/-! ### The function-level reset (R359) -/

/-- The port's sessions and keys end, and every instance bound to it that is not on its way to RETIRED is squashed. -/
theorem doFunctionLevelReset_powered {port : Nat} (hport : port < 2) (hpow : s.mgt.powered = true) :
    doFunctionLevelReset port s =
      let t := s.updPort port fun p => { p with ats := false, atsPending := [], spdm := none, linkIde := none }
      (t.allInsts.filter fun i => t.instPort i = port &&
        ((t.inst i).state = .active || (t.inst i).state = .draining || (t.inst i).state = .adopting)).foldl State.squashInst t :=
  if_neg (by simpa [hpow, hwork] using hport)

end

theorem State.newKeys_drawn {s : State} (hrng : s.sec.rngFail = false) (i : Nat) :
    s.newKeys i = (s.updInst i fun x => { x with
      keyGen := x.keyGen + 1, granKey := some s.sec.draws, transKey := some (s.sec.draws + 2) }).drawn 3 :=
  if_neg (by simp [hrng])

/-- Settles O53: the two modes of a write by whether the instance's state admits them, each event by its lemma; a squash is by
definition. -/
theorem instanceReset : Obligations.InstanceReset := by
  intro s hwork
  refine ⟨?write, fun i => rfl,
    fun i hpassed => ⟨fun hstate => congrArg Host.Outcome.next (doDrainLimitExpiry_draining hwork hpassed hstate),
      fun hstate => congrArg Host.Outcome.next (doDrainLimitExpiry_adopting hwork hpassed hstate)⟩, ?retired,
    fun i hstate hrng hlock => congrArg Host.Outcome.next (doInstanceZeroingComplete_retired hwork hstate hrng hlock), ?keys, ?function⟩
  case write =>
    rintro port _ v hbar hport rfl hkeep hpage hlay
    refine ⟨?drain, ?squash, ?refuseDrain, ?refuseSquash⟩
    case drain =>
      rintro hmode hstate _ rfl _ rfl
      exact congrArg Host.Outcome.next (State.instReset_taken hwork hbar hport hmode hkeep hpage hlay (by simp [hstate]))
    case squash =>
      intro hmode hstate
      exact congrArg Host.Outcome.next
        (State.instReset_taken hwork hbar hport hmode hkeep hpage hlay (by simpa using hstate))
    case refuseDrain =>
      intro hmode hstate
      exact congrArg Host.Outcome.next (State.instReset_refused hwork hbar hport hmode hkeep (by simpa using hstate))
    case refuseSquash =>
      intro hmode hactive hdrain
      exact congrArg Host.Outcome.next (State.instReset_refused hwork hbar hport hmode hkeep (by simp [hactive, hdrain]))
  case retired =>
    rintro i _ hstate hquiet rfl
    exact congrArg Host.Outcome.next (doInstanceRetired_quiet hwork hstate hquiet)
  case keys =>
    rintro i _ hrng rfl
    exact State.newKeys_drawn hrng i
  case function =>
    rintro port _ hport hpow rfl
    exact congrArg Host.Outcome.next (doFunctionLevelReset_powered hwork hport hpow)

end Sys2Proof.Machine

/-! PROOFS. Every command leaves the queue of waiting commands, whatever the memories hold (log 5): the operations that write one of the
three memories leave it as well. -/

namespace Sys2Proof.Machine

/-- The queue as part of what is stored, so that an operation that stores nothing is rewritten away. -/
theorem State.pending_eq_queue (s : State) : s.pending = s.stored.queue := rfl

@[simp] theorem Stored.queue_ite (c : Prop) [Decidable c] (m n : Stored) :
    (if c then m else n).queue = if c then m.queue else n.queue := apply_ite ..

@[simp] theorem State.queue_foldl {α : Type} {f : State → α → State} (hf : ∀ s x, (f s x).stored.queue = s.stored.queue) (l : List α)
    (s : State) : (l.foldl f s).stored.queue = s.stored.queue := by
  induction l generalizing s with
  | nil => rfl
  | cons x l ih => rw [List.foldl_cons, ih, hf]

/-- A loop that carries a number along. -/
theorem State.queue_foldl_fst {α β : Type} {f : State × β → α → State × β}
    (hf : ∀ r x, (f r x).1.stored.queue = r.1.stored.queue) (l : List α) (r : State × β) :
    (l.foldl f r).1.stored.queue = r.1.stored.queue := by
  induction l generalizing r with
  | nil => rfl
  | cons x l ih => rw [List.foldl_cons, ih, hf]

/-! ### Pan DRAM and the granary -/

@[simp] theorem State.queue_panWrite (s : State) (p off : Nat) (bs : List Byte) :
    (s.panWrite p off bs).stored.queue = s.stored.queue := by
  induction bs generalizing s off with
  | nil => rfl
  | cons b bs ih =>
    unfold State.panWrite
    rw [ih]
    split <;> rfl

@[simp] theorem State.queue_panWriteG (s : State) (a : Nat) (bs : List Byte) :
    (s.panWriteG a bs).stored.queue = s.stored.queue := by
  unfold State.panWriteG
  split <;> simp

@[simp] theorem State.queue_panZero (s : State) (p off n : Nat) : (s.panZero p off n).stored.queue = s.stored.queue := by
  simp [State.panZero, State.pending_eq_queue]
@[simp] theorem State.queue_granStore (s : State) (a : Nat) (bs : List Byte) : (s.granStore a bs).stored.queue = s.stored.queue := by
  simp [State.granStore, State.pending_eq_queue]
@[simp] theorem State.queue_granWrite (s : State) (i off : Nat) (bs : List Byte) :
    (s.granWrite i off bs).stored.queue = s.stored.queue := by simp [State.granWrite]
@[simp] theorem State.queue_granZeroAbs (s : State) (a n : Nat) : (s.granZeroAbs a n).stored.queue = s.stored.queue := by
  simp [State.granZeroAbs, State.pending_eq_queue]
@[simp] theorem State.queue_zeroAll (s : State) : s.zeroAll.stored.queue = s.stored.queue := by
  simp [State.zeroAll, State.pending_eq_queue]

@[simp] theorem State.queue_panDecode (s : State) (p off : Nat) (err : List Byte) :
    (s.panDecode p off err).stored.queue = s.stored.queue := by
  unfold State.panDecode
  (repeat' split) <;> simp [State.pending_eq_queue]

@[simp] theorem State.queue_panDecodes (s : State) (p off n : Nat) (reads : Nat → Bool) (err : List Byte) :
    (s.panDecodes p off n reads err).stored.queue = s.stored.queue :=
  State.queue_foldl (fun s j => by split <;> simp) _ s

@[simp] theorem State.queue_granDecode (s : State) (a : Nat) (err : List Byte) :
    (s.granDecode a err).stored.queue = s.stored.queue := by
  simp only [State.granDecode]
  (repeat' split) <;> simp [State.pending_eq_queue]

@[simp] theorem State.queue_granDecodes (s : State) (a n : Nat) (reads : Nat → Bool) (err : List Byte) :
    (s.granDecodes a n reads err).stored.queue = s.stored.queue :=
  State.queue_foldl (fun s j => by split <;> simp) _ s

@[simp] theorem State.queue_doPanRead (s : State) (tok : Nat) (err : List Byte) :
    (doPanRead tok err s).stored.queue = s.stored.queue := by
  unfold doPanRead
  (repeat' split) <;> simp

@[simp] theorem State.queue_doPanStore (s : State) (whole : Bool) (tok : Nat) (err : List Byte) :
    (doPanStore whole tok err s).stored.queue = s.stored.queue := by
  unfold doPanStore
  (repeat' split) <;> simp

@[simp] theorem State.queue_doSumpAccumulate (s : State) (tok : Nat) (err : List Byte) :
    (doSumpAccumulate tok err s).stored.queue = s.stored.queue := by
  unfold doSumpAccumulate
  (repeat' split) <;> simp

@[simp] theorem State.queue_doGranaryRead (s : State) (tok : Nat) (err : List Byte) :
    (doGranaryRead tok err s).stored.queue = s.stored.queue := by
  unfold doGranaryRead
  split <;> simp

@[simp] theorem State.queue_doGranaryWrite (s : State) (tok : Nat) (err : List Byte) :
    (doGranaryWrite tok err s).stored.queue = s.stored.queue := by
  unfold doGranaryWrite
  split <;> simp

@[simp] theorem State.queue_doGranaryAccumulate (s : State) (tok : Nat) (err : List Byte) :
    (doGranaryAccumulate tok err s).stored.queue = s.stored.queue := by
  unfold doGranaryAccumulate
  split <;> simp

@[simp] theorem State.queue_doScrubRead (s : State) (granary : Bool) (block : Nat) (err : List Byte) (lastOfPass : Bool) :
    (doScrubRead granary block err lastOfPass s).stored.queue = s.stored.queue := by simp [doScrubRead]

/-! ### Full/empty operations -/

@[simp] theorem State.queue_fePerform (s : State) (q off : Nat) (w : FeWaiter) :
    (s.fePerform q off w).stored.queue = s.stored.queue := by simp [State.fePerform]

@[simp] theorem State.queue_feExamine (s : State) (p off fuel : Nat) :
    (State.feExamine p off fuel s).stored.queue = s.stored.queue := by
  induction fuel generalizing s with
  | zero => rfl
  | succ fuel ih =>
    unfold State.feExamine
    dsimp only
    split
    · rfl
    · rw [ih, State.queue_fePerform]
      rfl

@[simp] theorem State.queue_doFeArrival (s : State) (tok : Nat) : (doFeArrival tok s).stored.queue = s.stored.queue := by
  unfold doFeArrival
  split
  · simp
  · rw [State.stored_ite, Stored.queue_ite, ite_eq_left_iff]
    intro _
    dsimp only
    split <;> simp [State.pending_eq_queue]

/-! ### The fence map and the NVS -/

@[simp] theorem State.queue_retireColumn (s : State) (p : Nat) : (s.retireColumn p).stored.queue = s.stored.queue := by
  simp [State.retireColumn, State.pending_eq_queue]

@[simp] theorem State.queue_zeroCarves (s : State) (own : CarveRec → Bool) : (s.zeroCarves own).stored.queue = s.stored.queue := by
  simp [State.zeroCarves]

@[simp] theorem State.queue_doStore (s : State) (op port : Nat) (v : BitVec 32) :
    (doStore op port v s).stored.queue = s.stored.queue := by
  simp [doStore, State.pending_eq_queue]

@[simp] theorem State.queue_doNvsWriteComplete (s : State) : (doNvsWriteComplete s).stored.queue = s.stored.queue := by
  unfold doNvsWriteComplete
  split
  · rfl
  · simp [State.pending_eq_queue]

@[simp] theorem State.queue_applyFull (s : State) (b : List Byte) (z : Zcfg) : (s.applyFull b z).stored.queue = s.stored.queue := by
  simp [State.applyFull, State.pending_eq_queue]

@[simp] theorem State.queue_doImageReadComplete (s : State) : (doImageReadComplete s).stored.queue = s.stored.queue := by
  unfold doImageReadComplete
  split <;> simp

@[simp] theorem State.queue_zeroChanged (s : State) (z : Zcfg) (scope : List Nat) :
    (s.zeroChanged z scope).stored.queue = s.stored.queue := by simp [State.zeroChanged]

@[simp] theorem State.queue_doRelayout (s : State) : (doRelayout s).stored.queue = s.stored.queue := by
  unfold doRelayout
  split <;> simp [State.pending_eq_queue]

/-! ### Start-up -/

@[simp] theorem State.queue_doStartupStageComplete (s : State) (ok : Bool) (bad values : List Nat) :
    (doStartupStageComplete ok bad values s).stored.queue = s.stored.queue := by
  unfold doStartupStageComplete
  extract_lets st go mgt tb marched linked
  have hgo (s : State) (n : Nat) : (go s n).stored = s.stored := rfl
  split_ifs
  · rfl
  · simp
  · simp [hgo, mgt, tb, State.pending_eq_queue]
  · split
    · simp
    · next hacc => simp [hgo, State.stored_acceptFirmware hacc]
  · simp [hgo]
  · simp [hgo, marched, State.pending_eq_queue]
  · simp [hgo]
  · simp [hgo]
  · simp [hgo, linked]
  · simp [hgo, linked]
  · simp [hgo]

@[simp] theorem State.queue_cold (s : State) : s.cold.stored.queue = s.stored.queue := by
  simp [State.cold, State.pending_eq_queue]
@[simp] theorem State.queue_begin (s : State) : s.begin.stored.queue = s.stored.queue := by
  simp [State.begin, State.pending_eq_queue]
@[simp] theorem State.queue_doStartThreshold (s : State) (mv : Nat) : (doStartThreshold mv s).stored.queue = s.stored.queue := by
  simp [doStartThreshold, State.pending_eq_queue]
@[simp] theorem State.queue_doReset (s : State) (lowNs : Nat) : (doReset lowNs s).stored.queue = s.stored.queue := by
  simp [doReset]

/-! ### Slots, streams and variants -/

@[simp] theorem State.queue_writeFrames (s : State) (frames : List Nat) (img : List Byte) :
    (s.writeFrames frames img).stored.queue = s.stored.queue := by simp [State.writeFrames]

@[simp] theorem State.queue_zeroSlot (s : State) (k : Nat) : (s.zeroSlot k).stored.queue = s.stored.queue := by
  simp [State.zeroSlot]

@[simp] theorem State.queue_copySlot (s : State) (src dst : Nat) : (s.copySlot src dst).stored.queue = s.stored.queue :=
  State.queue_foldl (fun t e => by dsimp only; split <;> simp) _ s

@[simp] theorem State.queue_emptySlot (s : State) (k : Nat) : (s.emptySlot k).stored.queue = s.stored.queue := by
  simp [State.emptySlot]

@[simp] theorem State.queue_doSlotZeroingComplete (s : State) (k : Nat) :
    (doSlotZeroingComplete k s).stored.queue = s.stored.queue := by
  simp only [doSlotZeroingComplete]
  (repeat' split) <;> simp

@[simp] theorem State.queue_doBaseReleased (s : State) (k : Nat) : (doBaseReleased k s).stored.queue = s.stored.queue := by
  simp [doBaseReleased]

@[simp] theorem State.queue_writeTiles (s : State) (tab : List Byte) (xs : List (Tensor × List Nat × List Byte × List Byte)) :
    (s.writeTiles tab xs).stored.queue = s.stored.queue := by simp [State.writeTiles]

@[simp] theorem State.queue_doStreamEnd (s : State) : (doStreamEnd s).stored.queue = s.stored.queue := by
  unfold doStreamEnd
  (repeat' split) <;> simp

@[simp] theorem State.queue_stageFork (s : State) (k : Nat) (b tab : List Byte) :
    (s.stageFork k b tab).2.stored.queue = s.stored.queue := by
  unfold State.stageFork
  dsimp only
  split
  · rfl
  · split_ifs <;> simp

@[simp] theorem State.queue_doVariantLoadComplete (s : State) (x : Nat) :
    (doVariantLoadComplete x s).stored.queue = s.stored.queue := by
  unfold doVariantLoadComplete
  dsimp only
  split_ifs
  · rfl
  · simp
  · simp
  · simp
  · rw [State.stored_loadAnswer]
    cases hask : ((((s.granWrite _ _ _).granHeal _ _).updEntry x _).askPageIn x [x]) with
    | none => simp
    | some t => simp [State.stored_askPageIn hask]
  · simp

/-- The shared opening of a mailbox message. -/
theorem State.queue_message {s : State} {port i : Nat} {ide : Bool} {code : Nat} {msg : List Byte} {body : State → State}
    (hb : ∀ s : State, (body s).stored.queue = s.stored.queue) :
    (s.message port i ide code msg body).stored.queue = s.stored.queue := by
  simp [State.message, hb]

@[simp] theorem State.queue_doForkFromBase (s : State) (port i : Nat) (ide : Bool) (msg : List Byte) :
    (doForkFromBase port i ide msg s).stored.queue = s.stored.queue := by
  refine State.queue_message fun s => ?_
  dsimp only
  (repeat' split) <;> simp

@[simp] theorem State.queue_doPageInComplete (s : State) (x : Nat) : (doPageInComplete x s).stored.queue = s.stored.queue := by
  simp [doPageInComplete]

/-! ### Training -/

@[simp] theorem State.queue_trPut (s : State) (x off n v : Nat) : (s.trPut x off n v).stored.queue = s.stored.queue := by
  simp [State.trPut]

@[simp] theorem State.queue_memWrite (s : State) (i a : Nat) (bs : List Byte) :
    (s.memWrite i a bs).stored.queue = s.stored.queue := by
  unfold State.memWrite
  split <;> simp

@[simp] theorem State.queue_zeroBuffer (s : State) (x j : Nat) : (s.zeroBuffer x j).stored.queue = s.stored.queue := by
  simp [State.zeroBuffer]

@[simp] theorem State.queue_openTrain (s : State) (i : Nat) (msg r : List Byte) (ok : Bool) (table : List Byte) :
    (s.openTrain i msg r ok table).stored.queue = s.stored.queue := by
  unfold State.openTrain
  (repeat' split) <;> simp

@[simp] theorem State.queue_doTrainOpenZeroingComplete (s : State) (x : Nat) :
    (doTrainOpenZeroingComplete x s).stored.queue = s.stored.queue := by
  unfold doTrainOpenZeroingComplete
  (repeat' split) <;> simp

@[simp] theorem State.queue_doTrainSet (s : State) (port i : Nat) (ide : Bool) (msg : List Byte) :
    (doTrainSet port i ide msg s).stored.queue = s.stored.queue := by
  refine State.queue_message fun s => ?_
  dsimp only
  split <;> simp

@[simp] theorem State.queue_updateRow (s : State) (x i : Nat) (rec e : List Byte) (u : UpdEntry) (row base : Nat) :
    (s.updateRow x i rec e u row base).stored.queue = s.stored.queue := by
  simp [State.updateRow]

@[simp] theorem State.queue_doUpdateEntryComplete (s : State) : (doUpdateEntryComplete s).stored.queue = s.stored.queue := by
  unfold doUpdateEntryComplete
  split
  · rfl
  · next u _ =>
    extract_lets x i rec' tab s1 s2 s3 upd s4 s5
    have h1 : s1.stored.queue = s.stored.queue := by
      unfold s1
      split
      · rfl
      · exact State.queue_foldl_fst (fun _ _ => State.queue_foldl_fst (fun _ _ => State.queue_updateRow ..) _ _) _ _
    have h5 : s5.stored.queue = s.stored.queue := by simp [s5, s4, s3, s2, h1, State.pending_eq_queue]
    split
    · rfl
    · split <;> simp [h5]

@[simp] theorem State.queue_doRefreshComplete (s : State) (x : Nat) : (doRefreshComplete x s).stored.queue = s.stored.queue := by
  unfold doRefreshComplete
  dsimp only
  split <;> simp

/-! ### Jobs and barriers -/

@[simp] theorem State.queue_trainState (s : State) (j : Job) (from' into : Nat) :
    (s.trainState j from' into).stored.queue = s.stored.queue := by
  unfold State.trainState
  split <;> simp

@[simp] theorem State.queue_doDispatch (s : State) (i q : Nat) : (doDispatch i q s).stored.queue = s.stored.queue := by
  unfold doDispatch
  split <;> simp

@[simp] theorem State.queue_applySets (s : State) (x : Nat) : (s.applySets x).stored.queue = s.stored.queue := by
  simp [State.applySets]

@[simp] theorem State.queue_endTraining (s : State) (j : Job) : (s.endTraining j).stored.queue = s.stored.queue := by
  unfold State.endTraining
  split <;> simp

@[simp] theorem State.queue_doJobComplete (s : State) (i q : Nat) : (doJobComplete i q s).stored.queue = s.stored.queue := by
  unfold doJobComplete
  split <;> simp

@[simp] theorem State.queue_setK6 (s : State) (j : Job) (n : Nat) (flag : Bool) :
    (s.setK6 j n flag).stored.queue = s.stored.queue := by
  refine State.queue_foldl (fun s t => ?_) _ s
  dsimp only
  split
  · rfl
  · split <;> simp

@[simp] theorem State.queue_gateReduction (s : State) (j : Job) (x n : Nat) (flag : Bool) :
    (s.gateReduction j x n flag).stored.queue = s.stored.queue := by simp [State.gateReduction]

@[simp] theorem State.queue_stepEndUpdate (s : State) (j : Job) (x : Nat) (late : Bool) :
    (s.stepEndUpdate j x late).1.stored.queue = s.stored.queue := by
  unfold State.stepEndUpdate
  extract_lets r skip exp min' max' grow clean step code run s1 exp' s2 s3 s4 s5 s6 s7 interval mirror s8 s9 s10
  have h3 : s3.stored.queue = s.stored.queue := by simp [s3, s2, s1]
  have h5 : s5.stored.queue = s.stored.queue := by simp [s5, s4, h3]
  have h9 : s9.stored.queue = s.stored.queue := by simp [s9, s8, s7, s6, h5]
  split
  · simp [s10, h9]
  · exact h9

@[simp] theorem State.queue_withdrawRows (s : State) (j : Job) (rows : List Nat) :
    (s.withdrawRows j rows).stored.queue = s.stored.queue := by
  unfold State.withdrawRows
  rw [State.stored_dropRows]
  exact State.queue_foldl (fun s r => by split <;> simp) _ s

@[simp] theorem State.queue_completeBarrier (s : State) (j : Job) : (s.completeBarrier j).stored.queue = s.stored.queue := by
  unfold State.completeBarrier
  extract_lets i q n id s1 flag r s2 token all rows ends s3 s4
  have h1 : s1.stored.queue = s.stored.queue := by simp [s1]
  have hr : r.1.stored.queue = s.stored.queue := by
    unfold r
    (repeat' split) <;> simp [h1]
  have h4 : s4.stored.queue = s.stored.queue := by simp [s4, s3, s2, hr]
  split_ifs
  · simp [h4]
  · simp [h4]
  · simp [h4]
  · split
    · exact h4
    · split <;> simp [h4]

@[simp] theorem State.queue_doBarrierComplete (s : State) (i q : Nat) :
    (doBarrierComplete i q s).stored.queue = s.stored.queue := by
  unfold doBarrierComplete
  (repeat' split) <;> simp

@[simp] theorem State.queue_doTaskRestart (s : State) (i q : Nat) : (doTaskRestart i q s).stored.queue = s.stored.queue := by
  simp only [doTaskRestart]
  (repeat' split) <;> simp

/-! ### The mailbox and resets -/

@[simp] theorem State.queue_doStageInComplete (s : State) (i : Nat) : (doStageInComplete i s).stored.queue = s.stored.queue := by
  unfold doStageInComplete
  split <;> simp

@[simp] theorem State.queue_restoreArrays (s : State) (i : Nat) (body : List Byte) :
    (s.restoreArrays i body).stored.queue = s.stored.queue :=
  State.queue_foldl_fst (fun _ _ => State.queue_memWrite ..) _ _

@[simp] theorem State.queue_doMirrorRestore (s : State) (port i : Nat) (ide : Bool) (msg : List Byte) :
    (doMirrorRestore port i ide msg s).stored.queue = s.stored.queue := by
  refine State.queue_message fun s => ?_
  dsimp only
  (repeat' split) <;> simp

@[simp] theorem State.queue_zeroInst (s : State) (i : Nat) : (s.zeroInst i).stored.queue = s.stored.queue := by
  simp [State.zeroInst]
@[simp] theorem State.queue_doInstanceZeroingComplete (s : State) (i : Nat) :
    (doInstanceZeroingComplete i s).stored.queue = s.stored.queue := by simp [doInstanceZeroingComplete]

/-! ### The trust region and completions -/

@[simp] theorem State.queue_doUnlockZeroingComplete (s : State) : (doUnlockZeroingComplete s).stored.queue = s.stored.queue := by
  unfold doUnlockZeroingComplete
  split <;> simp [State.pending_eq_queue]

@[simp] theorem State.queue_fetched (s : State) (port : Nat) (f : Fetch) : (s.fetched port f).stored.queue = s.stored.queue := by
  unfold State.fetched
  split <;> simp

@[simp] theorem State.queue_fetchPiece (s : State) (port f off len : Nat) (ok : Bool) (data : List Byte) :
    (s.fetchPiece port f off len ok data).stored.queue = s.stored.queue := by
  unfold State.fetchPiece
  split <;> simp [State.pending_eq_queue]

@[simp] theorem State.queue_hostDone (s : State) (port : Nat) (r : HostReq) (ok : Bool) (data : List Byte) :
    (s.hostDone port r ok data).stored.queue = s.stored.queue := by
  unfold State.hostDone
  split <;> simp

@[simp] theorem State.queue_doHostCompletion (s : State) (port id : Nat) (ok : Bool) (data : List Byte) :
    (doHostCompletion port id ok data s).stored.queue = s.stored.queue := by
  unfold doHostCompletion
  split <;> simp

/-! ### Recovery and supervision -/

@[simp] theorem State.queue_rebuiltPan (s : State) (p block : Nat) (data : List Byte) :
    (s.rebuiltPan p block data).stored.queue = s.stored.queue := by
  simp [State.rebuiltPan, State.pending_eq_queue]

@[simp] theorem State.queue_rebuildPan (s : State) (p off block : Nat) (ok : Bool) (data : List Byte) :
    (s.rebuildPan p off block ok data).stored.queue = s.stored.queue := by
  simp only [State.rebuildPan]
  (repeat' split) <;> simp

@[simp] theorem State.queue_doRebuild (s : State) (granary : Bool) (block : Nat) (ok : Bool) (data : List Byte) :
    (doRebuild granary block ok data s).stored.queue = s.stored.queue := by simp [doRebuild]

@[simp] theorem State.queue_doColumnRetirement (s : State) (p : Nat) : (doColumnRetirement p s).stored.queue = s.stored.queue := by
  simp [doColumnRetirement]

/-- The shared opening of an operation of MGT_RECOVERY_CMD. -/
theorem State.queue_recCmd {s : State} {op : Nat} {v : BitVec 32} {body : State → Nat → State}
    (hb : ∀ (s : State) (p : Nat), (body s p).stored.queue = s.stored.queue) : (s.recCmd op v body).stored.queue = s.stored.queue := by
  simp [State.recCmd, hb]

@[simp] theorem State.queue_doRetireColumn (s : State) (port : Nat) (v : BitVec 32) :
    (doRetireColumn port v s).stored.queue = s.stored.queue :=
  State.queue_recCmd fun s p => by split <;> simp

@[simp] theorem State.queue_doLiveOperationComplete (s : State) (ok : Bool) (svn : Nat) (digest : BitVec 512) (key sig : List Byte) :
    (doLiveOperationComplete ok svn digest key sig s).stored.queue = s.stored.queue := by
  unfold doLiveOperationComplete
  split <;> simp

@[simp] theorem State.queue_writeBox (s : State) : s.writeBox.stored.queue = s.stored.queue := by
  simp [State.writeBox, State.pending_eq_queue]

@[simp] theorem State.queue_doBlackBoxDumpComplete (s : State) (mv : Nat) :
    (doBlackBoxDumpComplete mv s).stored.queue = s.stored.queue := by simp [doBlackBoxDumpComplete, State.pending_eq_queue]

@[simp] theorem State.queue_doInputDroop (s : State) (mv : Nat) : (doInputDroop mv s).stored.queue = s.stored.queue := by
  simp [doInputDroop, State.pending_eq_queue]

/-! ### Every command -/

/-- Every command answers a next state, with the queue as it was. -/
theorem exec_queue (c : Instr) (s : State) : ∃ t, exec c s = .next t ∧ t.stored.queue = s.stored.queue := by
  have issued {p cls op : Nat} {ops : BitVec 56} {body : State → Core → Except IFault State}
      (hb : ∀ t, body s (s.core p) = .ok t → t.stored = s.stored) : (issue s p cls op ops body).stored.queue = s.stored.queue :=
    congrArg Stored.queue (State.stored_issue s p cls op ops hb)
  cases c
  case semAdd => exact ⟨_, rfl, issued fun _ => State.stored_semBody⟩
  case semSub => exact ⟨_, rfl, issued fun _ => State.stored_semBody⟩
  case semWaitge => exact ⟨_, rfl, issued fun _ => State.stored_semBody⟩
  case semWaitsub => exact ⟨_, rfl, issued fun _ => State.stored_semBody⟩
  case feLoad => exact ⟨_, rfl, issued fun _ => State.stored_feBody⟩
  case feStore => exact ⟨_, rfl, issued fun _ => State.stored_feBody⟩
  all_goals exact ⟨_, rfl, by simp⟩

/-- Settles O6: the queue is part of what is stored. -/
theorem execLeavesQueue : Obligations.ExecLeavesQueue := exec_queue

end Sys2Proof.Machine

/-! PROOFS. A step with a command waiting (log 4), and what the decoder finds of a pan block (R405 to R407). -/

namespace Sys2Proof.Machine

/-- Settles O1: a step looks at the queue alone. -/
theorem stepRunsFrontCommand : Obligations.StepRunsFrontCommand := by
  intro s c rest hqueue
  rw [step, hqueue]

/-! ### Reading a block (R406) -/

section read
variable {data err : List Byte}

theorem rsRead_intact (hnone : symbolErrors (slice err 0 72) = 0) : rsRead data err = .intact := if_pos hnone

theorem rsRead_corrected (hsome : 1 ≤ symbolErrors (slice err 0 72)) (hfew : symbolErrors (slice err 0 72) ≤ 4) :
    rsRead data err = .corrected := by
  simp only [rsRead, if_neg (Nat.one_le_iff_ne_zero.1 hsome), if_pos hfew]

/-- Five symbol errors or more leave a word that the decoder takes for the codeword near it. -/
theorem rsRead_wrong {word w : List Byte} (hmany : 5 ≤ symbolErrors (slice err 0 72))
    (hword : word = (codeword data).zipWith (· ^^^ ·) (slice err 0 72)) (hfound : rsDecode word = some w) :
    rsRead data err = .wrong (decide (w ≠ word)) (w.take 64) := by
  subst hword
  simp only [rsRead, hfound, if_neg (show ¬ symbolErrors (slice err 0 72) = 0 by omega), if_neg (Nat.not_le.2 hmany)]

/-- With no codeword near it, the word is given as read. -/
theorem rsRead_uncorrectable {word : List Byte} (hmany : 5 ≤ symbolErrors (slice err 0 72))
    (hword : word = (codeword data).zipWith (· ^^^ ·) (slice err 0 72)) (hlost : rsDecode word = none) :
    rsRead data err = .uncorrectable (word.take 64) := by
  subst hword
  simp only [rsRead, hlost, if_neg (show ¬ symbolErrors (slice err 0 72) = 0 by omega), if_neg (Nat.not_le.2 hmany)]

end read

/-! ### What the decoder changes (R407) -/

section decode
variable {s : State} {q off k : Nat} {err : List Byte} (hkey : s.panKey q (off / 64 * 64) = some k)
include hkey

theorem State.panDecode_marked (hmarked : Tab.get false s.panUe (k / 64) = true) : s.panDecode q off err = s := by
  simp only [State.panDecode, hkey, hmarked, if_true]

section unmarked
variable (hclear : Tab.get false s.panUe (k / 64) = false)
include hclear

theorem State.panDecode_intact (hnone : symbolErrors (slice err 0 72) = 0) : s.panDecode q off err = s := by
  simp only [State.panDecode, hkey, hclear, rsRead_intact hnone, Bool.false_eq_true, if_false]

theorem State.panDecode_corrected (hsome : 1 ≤ symbolErrors (slice err 0 72)) (hfew : symbolErrors (slice err 0 72) ≤ 4) :
    s.panDecode q off err = s.panCorrected q := by
  simp only [State.panDecode, hkey, hclear, rsRead_corrected hsome hfew, Bool.false_eq_true, if_false]

theorem State.panDecode_uncorrectable {word : List Byte} (hmany : 5 ≤ symbolErrors (slice err 0 72))
    (hword : word = (codeword (Memory.read s.pan k 64)).zipWith (· ^^^ ·) (slice err 0 72)) (hlost : rsDecode word = none) :
    s.panDecode q off err =
      (State.updPan { s with panUe := Tab.put false (k / 64) true s.panUe, pan := Memory.write s.pan k (word.take 64) } q fun m => { m with
        uncorrected := holdAdd 0xFF m.uncorrected 1
        ueAt := (m.ueAt ++ [s.tb.count]).drop (m.ueAt.length - 254) }).count (posUnit q 7) 0x11 1 := by
  simp only [State.panDecode, hkey, hclear, rsRead_uncorrectable hmany hword hlost, Bool.false_eq_true, if_false]

theorem State.panDecode_wrong {word w : List Byte} (hmany : 5 ≤ symbolErrors (slice err 0 72))
    (hword : word = (codeword (Memory.read s.pan k 64)).zipWith (· ^^^ ·) (slice err 0 72)) (hfound : rsDecode word = some w) :
    s.panDecode q off err =
      if w ≠ word then State.panCorrected { s with pan := Memory.write s.pan k (w.take 64) } q
      else { s with pan := Memory.write s.pan k (w.take 64) } := by
  simp only [State.panDecode, hkey, hclear, rsRead_wrong hmany hword hfound, Bool.false_eq_true, if_false, decide_eq_true_eq]

end unmarked
end decode

/-- The decoder changes pan DRAM, its marks, the registers of columns and counters alone. -/
theorem State.panDecode_frame (s : State) (q off : Nat) (err : List Byte) :
    { s.panDecode q off err with pan := s.pan, panUe := s.panUe, panCtl := s.panCtl, obs := s.obs } = s := by
  unfold State.panDecode
  split
  · rfl
  · split
    · rfl
    · split
      · rfl
      · rfl
      · split <;> rfl
      · rfl

/-- A counted correction adds one to CORRECTED. -/
theorem State.corrected_panCorrected {s : State} {q : Nat} (h : Tab.sorted s.panCtl = true) :
    (Tab.get {} (s.panCorrected q).panCtl q).corrected = holdAdd 0xFFFF (Tab.get {} s.panCtl q).corrected 1 :=
  congrArg MemCtl.corrected (Tab.get_put_self h)

/-- Settles O31: a marked block stays as it is, and an unmarked one goes by the number of symbol errors. -/
theorem panErrorsAreDecoded : Obligations.PanErrorsAreDecoded := by
  rintro s q off k err _ word _ hkey rfl hword rfl hsorted
  refine ⟨s.panDecode_frame q off err, fun h => ?unchanged, fun hclear hsome hfew => ?few, fun hclear hmany hlost => ?lost,
    fun w hclear hmany hfound => ?wrong⟩
  case unchanged =>
    cases hmark : Tab.get false s.panUe (k / 64) with
    | true => exact State.panDecode_marked hkey hmark
    | false => exact State.panDecode_intact hkey hmark (h.resolve_right (by simp [hmark]))
  case few =>
    rw [State.panDecode_corrected hkey hclear hsome hfew]
    exact ⟨rfl, rfl, State.corrected_panCorrected hsorted⟩
  case lost =>
    rw [State.panDecode_uncorrectable hkey hclear hmany hword hlost]
    exact ⟨rfl, rfl, congrArg MemCtl.uncorrected (Tab.get_put_self hsorted)⟩
  case wrong =>
    rw [State.panDecode_wrong hkey hclear hmany hword hfound]
    by_cases hother : w ≠ word
    · rw [if_pos hother]
      exact ⟨rfl, rfl, fun _ => State.corrected_panCorrected (s := { s with pan := Memory.write s.pan k (w.take 64) }) hsorted⟩
    · rw [if_neg hother]
      exact ⟨rfl, rfl, fun h => absurd h hother⟩

end Sys2Proof.Machine

/-! PROOFS. The black box, and the supervision of the module's input, mate loop, rails, temperatures and cages (R422 to R424, R440, R441,
R444, R447, R451, R454). -/

namespace Sys2Proof.Machine

section
variable {s : State}

/-! ### A trigger of the black box (R422) -/

theorem State.blackBox_dumps (s : State) (causes fatal : Nat) : (s.blackBox causes fatal).mgt.dumping = true := by
  cases hdump : s.mgt.dumping <;> by_cases hcause : causes % 4 = 0 <;> simp [State.blackBox, hdump, hcause]

/-- The first trigger freezes the ring and is what the dump records. -/
theorem State.blackBox_first (hidle : s.mgt.dumping = false) (causes fatal : Nat) :
    (s.blackBox causes fatal).mgt.ringFrozen = true ∧ (s.blackBox causes fatal).mgt.causes = causes ∧
    (s.blackBox causes fatal).mgt.fatal = fatal ∧ (s.blackBox causes fatal).mgt.freezeTb = s.tb.count := by
  by_cases hcause : causes % 4 = 0 <;> simp [State.blackBox, hidle, hcause]

/-- A trigger during a dump adds its cause. -/
theorem State.blackBox_again (hdump : s.mgt.dumping = true) (causes fatal : Nat) :
    (s.blackBox causes fatal).mgt.causes = s.mgt.causes ||| causes := by
  by_cases hcause : causes % 4 = 0 <;> simp [State.blackBox, hdump, hcause]

/-! ### The triggers (R422, R440, R441, R444, R447, R454) -/

section powered
variable (hpow : s.mgt.powered = true)
include hpow

theorem doInputDroop_low {mv : Nat} (hlow : mv < 38000) :
    doInputDroop mv s =
      if s.ready = true then
        State.blackBox { s with mgt := { s.mgt with
          inputMv := mv / 10, lowest := (if s.mgt.dumping = true then min s.mgt.lowest (mv / 10) else mv / 10) } } 4 0
      else { s.cold with mgt := { s.cold.mgt with inputMv := mv / 10 } } := by
  rw [doInputDroop, if_neg (by simpa [hpow] using hlow)]
  cases s.ready <;> rfl

theorem doOverVoltageDisconnect_over {mv : Nat} (hover : 63000 < mv) :
    doOverVoltageDisconnect mv s =
      State.blackBox { s with mgt := { s.mgt with hotSwap := false, disconnected := true, ovFallen := false, inputMv := mv / 10 } } 1 4 :=
  if_neg (by simpa [hpow] using hover)

theorem doMateLoopBreak_powered :
    doMateLoopBreak s = State.blackBox { s with mgt := { s.mgt with hotSwap := false, mateClosed := false } } 4 0 := if_pos hpow

theorem doRailLimit_outside {rail mv v lim : Nat} (hrail : railNominal rail = some (v, lim))
    (hout : ¬(v * (100 - lim) ≤ 100 * mv ∧ 100 * mv ≤ v * (100 + lim))) (hrun : s.mgt.stopped = false) :
    doRailLimit rail mv s =
      State.blackBox { s with mgt := { s.mgt with
        railMv := Tab.put 0 rail mv s.mgt.railMv, railSeen := Tab.put false rail true s.mgt.railSeen } } 1 4 := by
  have hgo : ¬(s.mgt.powered = false ∨ (v * (100 - lim) ≤ 100 * mv ∧ 100 * mv ≤ v * (100 + lim))) := by simpa [hpow] using hout
  simp only [doRailLimit, hrail, if_neg hgo]
  exact if_neg (by simp [hrun])

theorem doThermalTrip_hot {kind reading other : Nat} (unit : Nat) (hkind : kind ≤ 2) (hfirst : s.mgt.tripped = false)
    (hhot : (if kind = 0 then 105 else if kind = 1 then 95 else 60) ≤ (if kind = 1 then max reading other else reading)) :
    doThermalTrip kind unit reading other s =
      let t :=
        if kind = 0 then (if unit < 80 then s.updRegion unit fun g => g.sense reading else s)
        else if kind = 1 then (if unit < 880 then s.updPan unit fun m => { m with temp0 := reading, temp7 := other } else s)
        else { s with mgt := { s.mgt with outlet := reading % 256 } }
      State.blackBox { t with mgt := { t.mgt with tripped := true } } 2 0 :=
  if_neg (by simpa only [hpow, hfirst, Bool.true_eq_false, Bool.false_eq_true, or_false, false_or, not_or, not_lt] using ⟨hkind, hhot⟩)

theorem doTrustManagementUncorrectable_running (hrun : s.mgt.stopped = false) : doTrustManagementUncorrectable s = s.blackBox 1 3 :=
  if_neg (by simp [hpow, hrun])

end powered

/-! ### The end of a dump (R424, R441, R447) -/

section dump
variable (hdump : s.mgt.dumping = true)
include hdump

/-- After an over-voltage disconnect, a broken mate loop, or with the input still low, the module is off. -/
theorem doBlackBoxDumpComplete_off {mv : Nat} (hoff : s.writeBox.mgt.disconnected = true ∨ s.writeBox.mgt.mateClosed = false ∨
      (s.writeBox.mgt.causes % 4 = 0 ∧ mv < 38000)) :
    doBlackBoxDumpComplete mv s =
      let t := s.writeBox
      { t.cold with mgt := { t.cold.mgt with
        disconnected := t.mgt.disconnected, ovFallen := t.mgt.ovFallen, faultPin := t.mgt.faultPin, inputMv := mv / 10 } } := by
  rw [doBlackBoxDumpComplete, if_neg (by simp [hdump])]
  by_cases hapart : s.writeBox.mgt.disconnected = true ∨ s.writeBox.mgt.mateClosed = false
  · exact if_pos hapart
  · obtain ⟨hcause, hlow⟩ := (or_assoc.2 hoff).resolve_left hapart
    exact (if_neg hapart).trans ((if_neg (not_not.2 hcause)).trans (if_pos hlow))

section connected
variable (hin : s.writeBox.mgt.disconnected = false) (hmate : s.writeBox.mgt.mateClosed = true)
include hin hmate

/-- After a fatal event or a trip the module holds its state. -/
theorem doBlackBoxDumpComplete_holds (hcause : s.writeBox.mgt.causes % 4 ≠ 0) (mv : Nat) :
    doBlackBoxDumpComplete mv s = s.writeBox := by
  rw [doBlackBoxDumpComplete, if_neg (by simp [hdump])]
  exact (if_neg (by simp [hin, hmate])).trans (if_pos hcause)

/-- After a droop that has passed it works on. -/
theorem doBlackBoxDumpComplete_works {mv : Nat} (hcause : s.writeBox.mgt.causes % 4 = 0) (hback : 38000 ≤ mv) :
    doBlackBoxDumpComplete mv s =
      let t := s.writeBox
      let u : State := { t with mgt := { t.mgt with
        ringFrozen := false, inputMv := mv / 10, inputLow := decide (mv < 40000) } }
      (u.event mgtUnit 0x22 u.mgt.lowest false).alert 2 := by
  rw [doBlackBoxDumpComplete, if_neg (by simp [hdump])]
  exact (if_neg (by simp [hin, hmate])).trans ((if_neg (not_not.2 hcause)).trans (if_neg hback.not_gt))

end connected
end dump

/-! ### Input warnings (R441) -/

section ready
variable {mv : Nat} (hready : s.ready = true)
include hready

theorem doInputLow_low (hmin : 38000 ≤ mv) (hmax : mv < 40000) :
    doInputLow mv s = State.alert { s with mgt := { s.mgt with inputMv := mv / 10, inputLow := true, inputHigh := false } } 2 :=
  if_neg (by simp only [hready, Bool.true_eq_false, false_or]; omega)

theorem doInputHigh_high (hmin : 60000 < mv) (hmax : mv ≤ 63000) :
    doInputHigh mv s = State.alert { s with mgt := { s.mgt with inputMv := mv / 10, inputHigh := true, inputLow := false } } 2 :=
  if_neg (by simp only [hready, Bool.true_eq_false, false_or]; omega)

theorem doInputInOperatingRange_within (hmin : 40000 ≤ mv) (hmax : mv ≤ 60000) (hconn : s.mgt.disconnected = false) :
    doInputInOperatingRange mv s = { s with mgt := { s.mgt with inputMv := mv / 10, inputLow := false, inputHigh := false } } := by
  have hgo : ¬(s.ready = false ∨ mv < 40000 ∨ 60000 < mv) := by simp only [hready, Bool.true_eq_false, false_or]; omega
  simp only [doInputInOperatingRange, hconn, Bool.false_eq_true, false_and, if_false, if_neg hgo]

end ready

/-! ### Cages (R451) -/

section cages
variable {n : Nat} (hn : n < 6) (hpow : s.mgt.powered = true)
include hn hpow

theorem doCageInsertion_empty {media : Nat} (hmin : 1 ≤ media) (hmax : media ≤ 3) (hempty : Tab.get none s.mgt.cages n = none)
    (len : Nat) : doCageInsertion n media len s = (s.cmis n media len).alert 3 := by
  have hgo : ¬(6 ≤ n ∨ media = 0 ∨ 3 < media ∨ (Tab.get none s.mgt.cages n).isSome = true) := by
    simp only [hempty, Option.isSome_none, Bool.false_eq_true, or_false]
    omega
  rw [doCageInsertion, if_neg hgo, if_neg (by simp [hpow])]

theorem doCmisPoll_holds {media : Nat} (hmin : 1 ≤ media) (hmax : media ≤ 3) (hfull : Tab.get none s.mgt.cages n ≠ none)
    (len : Nat) : doCmisPoll n media len s = s.cmis n media len := by
  have hgo : ¬(6 ≤ n ∨ media = 0 ∨ 3 < media ∨ s.mgt.powered = false ∨ (Tab.get none s.mgt.cages n).isNone = true) := by
    simp only [hpow, Option.isNone_iff_eq_none, hfull, Bool.true_eq_false, or_false]
    omega
  rw [doCmisPoll, if_neg hgo]

theorem doCageRemoval_holds (hfull : Tab.get none s.mgt.cages n ≠ none) :
    doCageRemoval n s = State.alert { s with mgt := { s.mgt with cages := Tab.put none n none s.mgt.cages } } 3 := by
  have hgo : ¬(6 ≤ n ∨ (Tab.get none s.mgt.cages n).isNone = true) := by
    simp only [Option.isNone_iff_eq_none, hfull, or_false]
    omega
  rw [doCageRemoval, if_neg hgo]
  exact if_pos hpow

end cages
end

/-- Settles O57: each trigger, warning and cage event by the lemma for it; the end of a dump by what its last trigger left. -/
theorem moduleSupervision : Obligations.ModuleSupervision := by
  intro s
  refine ⟨?box, fun mv hpow => ⟨fun hlow => congrArg Host.Outcome.next (doInputDroop_low hpow hlow),
      fun hover => congrArg Host.Outcome.next (doOverVoltageDisconnect_over hpow hover),
      congrArg Host.Outcome.next (doMateLoopBreak_powered hpow),
      fun rail v lim hrail hout hrun => congrArg Host.Outcome.next (doRailLimit_outside hpow hrail hout hrun), ?trip,
      fun hrun => congrArg Host.Outcome.next (doTrustManagementUncorrectable_running hpow hrun)⟩,
    ?dump, fun mv hready => ⟨fun hmin hmax => congrArg Host.Outcome.next (doInputLow_low hready hmin hmax),
      fun hmin hmax => congrArg Host.Outcome.next (doInputHigh_high hready hmin hmax),
      fun hmin hmax hconn => congrArg Host.Outcome.next (doInputInOperatingRange_within hready hmin hmax hconn)⟩, rfl,
    fun n media len hn hpow => ⟨fun hmin hmax =>
        ⟨fun hempty => congrArg Host.Outcome.next (doCageInsertion_empty hn hpow hmin hmax hempty len),
          fun hfull => congrArg Host.Outcome.next (doCmisPoll_holds hn hpow hmin hmax hfull len)⟩,
      fun hfull => congrArg Host.Outcome.next (doCageRemoval_holds hn hpow hfull)⟩⟩
  case box =>
    rintro causes fatal _ rfl
    refine ⟨s.blackBox_dumps causes fatal, fun hidle => State.blackBox_first hidle causes fatal,
      fun hdump => State.blackBox_again hdump causes fatal, fun hcause => ?_⟩
    obtain ⟨hstop, hpin, -⟩ := s.blackBox_stops hcause fatal
    exact ⟨hstop, hpin⟩
  case trip =>
    rintro kind unit reading other _ hkind hfirst hhot rfl
    exact congrArg Host.Outcome.next (doThermalTrip_hot hpow unit hkind hfirst hhot)
  case dump =>
    rintro mv _ hdump rfl
    exact ⟨fun hin hmate hcause => congrArg Host.Outcome.next (doBlackBoxDumpComplete_holds hdump hin hmate hcause mv),
      fun hin hmate hcause hback => ⟨_, rfl,
        congrArg Host.Outcome.next (doBlackBoxDumpComplete_works hdump hin hmate hcause hback)⟩,
      fun hoff => congrArg Host.Outcome.next (doBlackBoxDumpComplete_off hdump hoff)⟩

end Sys2Proof.Machine

/-! PROOFS. The trust region: commands of SEC_CMD, what has arrived for them, service unlock, firmware floors and the random source (R382,
R389, R390, R399 to R404). -/

namespace Sys2Proof.Machine

/-! ### What leaves the trust region alone

The end of an unlock breaks the stream and takes every link down (R400). Neither touches the state of the trust region. -/

section
variable {s : State}

theorem State.sec_foldl {α : Type} {f : State → α → State} (hf : ∀ s x, (f s x).sec = s.sec) (l : List α) (s : State) :
    (l.foldl f s).sec = s.sec := by
  induction l generalizing s with
  | nil => rfl
  | cons x l ih => rw [List.foldl_cons, ih, hf]

@[simp] theorem State.sec_ite (c : Prop) [Decidable c] (s t : State) : (if c then s else t).sec = if c then s.sec else t.sec :=
  apply_ite ..

@[simp] theorem State.sec_event (s : State) (unit code data : Nat) (conf : Bool) : (s.event unit code data conf).sec = s.sec :=
  (congrArg State.sec (s.event_frame unit code data conf) :)
@[simp] theorem State.sec_passes (s : State) (rs : List Nat) : (s.passes rs).sec = s.sec := (congrArg State.sec (s.passes_frame rs) :)
@[simp] theorem State.sec_take (s : State) (t : Token) : (s.take t).sec = s.sec := (congrArg State.sec (s.take_frame t) :)
@[simp] theorem State.sec_send (s : State) (t : Token) : (s.send t).sec = s.sec := (congrArg State.sec (s.send_frame t).1 :)
@[simp] theorem State.sec_crossed (s : State) (a b inst : Nat) : (s.crossed a b inst).sec = s.sec := by
  simp [State.crossed, State.leave, State.enter]
@[simp] theorem State.sec_hostAsk (s : State) (port : Nat) (who : Option Nat) (a n : Nat) (use : HostUse) :
    (s.hostAsk port who a n use).sec = s.sec := by simp [State.hostAsk]
@[simp] theorem State.sec_alert (s : State) (b : Nat) : (s.alert b).sec = s.sec := by simp [State.alert, State.fire]

/-! #### A core fault (R412) -/

@[simp] theorem State.sec_dropWaits (s : State) (stop : Nat → Bool) : (s.dropWaits stop).sec = s.sec :=
  State.sec_foldl State.sec_take _ _
@[simp] theorem State.sec_stopJobTasks (s : State) (i q : Nat) : (s.stopJobTasks i q).sec = s.sec := by simp [State.stopJobTasks]
@[simp] theorem State.sec_endJob (s : State) (i q status : Nat) : (s.endJob i q status).sec = s.sec := by simp [State.endJob]
@[simp] theorem State.sec_stopJob (s : State) (i q : Nat) : (s.stopJob i q).sec = s.sec := by simp [State.stopJob]
@[simp] theorem State.sec_respondFault (s : State) (p cause detail i q : Nat) : (s.respondFault p cause detail i q).sec = s.sec := by
  simp [State.respondFault]
@[simp] theorem State.sec_coreFault (s : State) (p cause unit idx detail : Nat) :
    (s.coreFault p cause unit idx detail).sec = s.sec := by simp [State.coreFault, State.takeFault, State.scratchUe]

/-! #### Streams and requests that end (R285, R309) -/

@[simp] theorem State.sec_linkControl (s : State) (n sub : Nat) (payload : List Byte) : (s.linkControl n sub payload).sec = s.sec := by
  simp [State.linkControl, State.linkPut, State.linkPump]

@[simp] theorem State.sec_stageDone (s : State) (k r : Nat) : (s.stageDone k r).sec = s.sec := by simp [State.stageDone, State.thrDone]
@[simp] theorem State.sec_failConsuming (s : State) (k r : Nat) : (s.failConsuming k r).sec = s.sec := by
  simp [State.failConsuming, State.stopConsuming]

@[simp] theorem State.sec_breakStream (s : State) (r : Nat) : (s.breakStream r).sec = s.sec := by
  unfold State.breakStream
  split
  · rfl
  · simp only [State.streamDone, State.sec_alert]
    rw [State.sec_foldl fun s n => s.sec_linkControl n 5 _]
    simp

@[simp] theorem State.sec_finish (s : State) (p e d : Nat) : (s.finish p e d).sec = s.sec := by
  simp only [State.finish]
  (repeat' split) <;> simp [State.putDesc]

@[simp] theorem State.sec_copyFault (s : State) (p e d cause addr k : Nat) : (s.copyFault p e d cause addr k).sec = s.sec := by
  unfold State.copyFault
  split <;> simp [State.putDesc]

@[simp] theorem State.sec_endRequest (s : State) (n : Nat) (r : LinkReq) : (s.endRequest n r).sec = s.sec := by
  unfold State.endRequest
  split <;> simp

/-! #### Links (R290, R400) -/

@[simp] theorem State.sec_linkDown (s : State) (n cause : Nat) : (s.linkDown n cause).sec = s.sec := by
  have hends (s : State) (test : LinkReq → Bool) : (s.endRequests n test).sec = s.sec :=
    State.sec_foldl (fun s r => s.sec_endRequest n r) _ s
  simp [State.linkDown, hends]

@[simp] theorem State.sec_relink (s : State) (n : Nat) : (s.relink n).sec = s.sec := by simp [State.relink]

/-! ### SEC commands (R389, R399, R403, R404) -/

/-- While a SEC command runs, another sets REFUSED alone. -/
theorem State.secCmd_refused {op : Nat} {v : BitVec 32} (hop : fld v 3 0 = op) (hbar : s.bar0 = true) (hwork : s.working = true)
    (hbusy : s.sec.busy = true) (body : State → State) :
    s.secCmd op v body = { s with sec := { s.sec with refused := true } } := by
  simp [State.secCmd, hop, hbar, hwork, hbusy]

theorem State.secRead_refused {op : Nat} {v : BitVec 32} (hop : fld v 3 0 = op) (hbar : s.bar0 = true) (hwork : s.working = true)
    (hbusy : s.sec.busy = true) (port n : Nat) :
    s.secRead port op n v = { s with sec := { s.sec with refused := true } } := State.secCmd_refused hop hbar hwork hbusy _

section taken
variable {v : BitVec 32} (hbar : s.bar0 = true) (hwork : s.working = true) (hidle : s.sec.busy = false)
include hbar hwork hidle

theorem doOperatorKey_taken (hop : fld v 3 0 = 2) (port : Nat) :
    doOperatorKey port v s =
      if s.sec.inLen.toNat ≠ 128 then s.secEnd secBadFormat
      else State.fetch { s with sec := { s.sec with running := some (2, port) } } port none (.sec 2) s.sec.inAddr.toNat 128 := by
  rw [doOperatorKey, State.secRead, State.secCmd_taken hop hbar hwork hidle]

theorem doUnlock_taken (hop : fld v 3 0 = 3) (port : Nat) :
    doUnlock port v s =
      if s.sec.inLen.toNat ≠ 128 then s.newChallenge.secEnd secBadFormat
      else State.fetch { s with sec := { s.sec with running := some (3, port) } } port none (.sec 3) s.sec.inAddr.toNat 128 := by
  rw [doUnlock, State.secCmd_taken hop hbar hwork hidle, State.secRead, State.secCmd_taken hop hbar hwork hidle]
  split <;> rfl

theorem doRaiseFloor_taken (hop : fld v 3 0 = 4) (port : Nat) :
    doRaiseFloor port v s =
      if fld v 6 4 = 0 ∨ 3 < fld v 6 4 then s.secEnd secBadFormat
      else if Tab.get 0 s.sec.svn (fld v 6 4 - 1) ≤ Tab.get 0 s.sec.floors (fld v 6 4 - 1) then s.secEnd secRollback
      else { s with sec := { s.sec with
        running := none, done := true, result := secOk
        floors := Tab.put 0 (fld v 6 4 - 1) (Tab.get 0 s.sec.svn (fld v 6 4 - 1)) s.sec.floors } } := by
  rw [doRaiseFloor, State.secCmd_taken hop hbar hwork hidle]
  rfl

end taken

/-! ### What a SEC command asked for (R389, R390, R400) -/

/-- The checks of an operator-key record, in their order (R389). -/
theorem State.keyCause_eq (s : State) (b : List Byte) :
    s.keyCause b =
      if leAt b 0x24 8 ≠ s.nvs.serial.toNat then secWrongSerial
      else if (∃ k, s.sec.opKey = some k ∧ leAt b 0x20 4 ≤ k.seq) then secRollback
      else if (∃ k, s.sec.opKey = some k ∧ Config.ed25519 k.key (Config.sha512 (b.take 64)) (slice b 64 64) = false) then secBadSignature
      else 0 := by
  cases hkey : s.sec.opKey with
  | none => simp [State.keyCause, hkey]
  | some k =>
    cases hsig : Config.ed25519 k.key (Config.sha512 (b.take 64)) (slice b 64 64) <;> simp [State.keyCause, hkey, hsig]

theorem State.keyArrived_eq (s : State) (data b : List Byte) (hb : b = padTo 128 data) :
    s.keyArrived data =
      if leAt b 0x24 8 ≠ s.nvs.serial.toNat then s.secEnd secWrongSerial
      else if (∃ k, s.sec.opKey = some k ∧ leAt b 0x20 4 ≤ k.seq) then s.secEnd secRollback
      else if (∃ k, s.sec.opKey = some k ∧ Config.ed25519 k.key (Config.sha512 (b.take 64)) (slice b 64 64) = false)
        then s.secEnd secBadSignature
      else { s with sec := { s.sec with
        running := none, done := true, result := secOk
        opKey := some { key := slice b 0 32, seq := leAt b 0x20 4, raw := b, stored := false } } } := by
  subst hb
  simp only [State.keyArrived, State.keyCause_eq]
  by_cases hserial : leAt (padTo 128 data) 0x24 8 ≠ s.nvs.serial.toNat
  · simp only [if_pos hserial]
    rfl
  by_cases hseq : ∃ k, s.sec.opKey = some k ∧ leAt (padTo 128 data) 0x20 4 ≤ k.seq
  · simp only [if_neg hserial, if_pos hseq]
    rfl
  by_cases hsig : ∃ k, s.sec.opKey = some k ∧
      Config.ed25519 k.key (Config.sha512 ((padTo 128 data).take 64)) (slice (padTo 128 data) 64 64) = false
  · simp only [if_neg hserial, if_neg hseq, if_pos hsig]
    rfl
  · simp only [if_neg hserial, if_neg hseq, if_neg hsig]
    rfl

/-- A token is answered after a fresh challenge has been drawn, whether it passes or not (R399, R400). -/
theorem State.tokenArrived_refused {data : List Byte} (hcause : s.tokenCause (padTo 128 data) ≠ 0) :
    s.tokenArrived true data = s.newChallenge.secEnd (s.tokenCause (padTo 128 data)) := if_pos hcause

/-- An accepted one makes admission refuse commits, and every instance is squashed. -/
theorem State.tokenArrived_accepted {data : List Byte} (hpass : s.tokenCause (padTo 128 data) = 0) :
    s.tokenArrived true data = State.squashAll { s.newChallenge with
      sec := { s.newChallenge.sec with running := none, unlocking := some (leAt (padTo 128 data) 6 2 % 4) }
      adm := { s.newChallenge.adm with refusing := true } } := if_neg (not_not.2 hpass)

/-! ### The end of an unlock (R400) -/

/-- With every instance retired, an unlock counts one more and opens the debug unit. -/
theorem doUnlockZeroingComplete_opens {scope : Nat} (hscope : s.sec.unlocking = some scope) (hretired : s.allRetired = true)
    (hwork : s.working = true) :
    (doUnlockZeroingComplete s).sec = { s.sec with
      unlocking := none, unlocks := s.sec.unlocks + 1, debugOpen := true, scopes := scope, sideband := none, done := true,
      result := secOk } := by
  have hlinks (s : State) : ((List.range 6).foldl State.relink s).sec = s.sec := State.sec_foldl State.sec_relink _ s
  simp only [doUnlockZeroingComplete, hscope, hretired, hwork, Bool.not_true, Bool.false_eq_true, if_false]
  simp [hlinks, State.thrDone, State.zeroAll]

/-! ### The random source (R382) -/

theorem doRngFail_first (hpow : s.mgt.powered = true) (hgood : s.sec.rngFail = false) :
    doRngFail s = State.blackBox { s with sec := { s.sec with rngFail := true } } 1 2 := if_neg (by simp [hpow, hgood])

theorem doDrbgReseed_due (hdue : 2 ^ 20 ≤ s.sec.sinceReseed) (hgood : s.sec.rngFail = false) :
    doDrbgReseed s = { s with sec := { s.sec with sinceReseed := 0, reseeds := s.sec.reseeds + 1 } } :=
  if_neg (by simpa [hgood] using hdue)

end

/-- Settles O55: each command by whether another runs, each arrival by the checks of its record, and each event by its lemma. -/
theorem trustRegion : Obligations.TrustRegion := by
  intro s
  refine ⟨?refused, fun port v hbar hwork hidle => ⟨
      fun hop => congrArg Host.Outcome.next (doOperatorKey_taken hbar hwork hidle hop port),
      fun hop => congrArg Host.Outcome.next (doUnlock_taken hbar hwork hidle hop port),
      fun hop => congrArg Host.Outcome.next (doRaiseFloor_taken hbar hwork hidle hop port)⟩,
    ?arrived, ?opens, fun hpow hgood => congrArg Host.Outcome.next (doRngFail_first hpow hgood),
    fun hdue hgood => congrArg Host.Outcome.next (doDrbgReseed_due hdue hgood)⟩
  case refused =>
    intro port v op i hbar hwork hop hi hbusy
    simp only [List.mem_cons, Prod.mk.injEq, List.not_mem_nil, or_false] at hi
    obtain ⟨rfl, rfl⟩ | ⟨rfl, rfl⟩ | ⟨rfl, rfl⟩ := hi
    · exact congrArg Host.Outcome.next (State.secRead_refused hop hbar hwork hbusy port 128)
    · exact congrArg Host.Outcome.next (State.secCmd_refused hop hbar hwork hbusy _)
    · exact congrArg Host.Outcome.next (State.secCmd_refused hop hbar hwork hbusy _)
  case arrived =>
    rintro port data b rfl
    exact ⟨rfl, State.keyArrived_eq s data _ rfl, rfl, State.tokenArrived_refused, fun _ hpass ht =>
      ht ▸ State.tokenArrived_accepted hpass⟩
  case opens =>
    intro scope hscope hretired hwork
    have hsec := doUnlockZeroingComplete_opens hscope hretired hwork
    exact ⟨_, rfl, by simp [hsec]⟩

end Sys2Proof.Machine

/-! PROOFS. Rebuilding, hung cores, fencing and renaming, the recovery commands, live operations and the black box's readout (R410 to R414,
R416, R417, R421, R424, R426, R427). -/

namespace Sys2Proof.Machine

/-- Which of two dump slots READ_BLACKBOX reads: the newer, or with bit 4 the older (R424). -/
theorem askedSlot_eq (older : Bool) (c : Prop) [Decidable c] :
    (if older = true then 1 - (if c then 1 else 0) else if c then 1 else 0) = if older = true ↔ c then 0 else 1 := by
  by_cases hc : c <;> cases older <;> simp [hc]

section
variable {s : State} (hwork : s.working = true)
include hwork

/-! ### Rebuild (R411) -/

theorem doRebuild_granary (block : Nat) (ok : Bool) (data : List Byte) :
    doRebuild true block ok data s = if Tab.get false s.granUe block = true then s.granLost block else s := by
  rw [doRebuild, if_neg (by simp [hwork]), if_pos rfl]

theorem doRebuild_pan (block : Nat) (ok : Bool) (data : List Byte) :
    doRebuild false block ok data s =
      if Tab.get false s.panUe block = true then
        s.rebuildPan (s.panLogical (block * 64) / columnBytes) (s.panLogical (block * 64) % columnBytes) block ok data
      else s := by
  rw [doRebuild, if_neg (by simp [hwork]), if_neg (by decide)]
  cases Tab.get false s.panUe block <;> rfl

/-! ### Hung cores (R412, R413) -/

section hang
variable {p : Nat}

theorem doHang_running (hrun : (s.core p).act = .running) (hfirst : (s.core p).hungAt = none) (hheld : s.held (p / 11) = false) :
    doHang p s = s.setCore p { s.core p with hungAt := some s.tb.count, hangReads := 0 } := by
  rw [doHang]
  exact if_neg (by simp [hrun, hfirst, hheld, hwork])

variable {t : Nat} (hhung : (s.core p).hungAt = some t)
include hhung

theorem doHangConfirm_due (hreads : (s.core p).hangReads = 0) (hdue : t + 16000000 ≤ s.tb.count) :
    doHangConfirm p s =
      let u := s.setCore p { s.core p with hungAt := some s.tb.count, hangReads := 2 }
      if (s.core p).busy = true then (u.stopJob (s.core p).inst (s.core p).seq).updCore p Core.stopTask else u := by
  simp only [doHangConfirm, hhung]
  exact if_neg (by simpa [hreads, hwork] using hdue)

/-- The tokens that a hung core still has outstanding, by the copy engines and the sequencer, are those discarded. -/
theorem doWriteDiscardTimeout_due (hreads : (s.core p).hangReads = 2) (hdue : t + 1000000 ≤ s.tb.count) :
    ∃ u : State, doWriteDiscardTimeout p s = u ∧ u = { s.setCore p { s.core p with ce0 := {}, ce1 := {} } with net := u.net } ∧
      ∀ k, k ∈ u.net ↔ k ∈ s.net ∧ (∀ e d, k.origin ≠ .ce p e d) ∧ k.origin ≠ .seq p := by
  simp only [doWriteDiscardTimeout, hhung]
  rw [if_neg (by simpa [hreads, hwork] using hdue)]
  refine ⟨_, rfl, rfl, fun k => ?_⟩
  rw [List.mem_filter]
  cases k.origin <;> simp

end hang

/-! ### Fences (R413, R414) -/

theorem doFence_due {p code : Nat} (hcode : s.fenceCode p = some code) (hrun : 2 ∉ (s.region (p / 11)).held) :
    doFence p s = (s.fencePos p code).event (switchUnit (p / 11)) 0x11 (p + 1024 * code) (s.fieldConfid (p / 11)) := by
  simp only [doFence, hcode]
  exact if_neg (by simpa [hwork] using hrun)

theorem doRename_fenced {p : Nat} (hfenced : s.fenced p = true) (hlogical : (s.logicalOf p).isSome = true) :
    doRename p s =
      State.resolve (((s.renameCore p).updCore p fun c => { c with hungAt := none, hangReads := 0 }).swapDone p) 1
        fun j => j.fields.contains (p / 11) := by
  rw [doRename]
  exact if_neg (by simp [hwork, hfenced, Option.isSome_iff_ne_none.1 hlogical])

/-! ### Recovery commands (R421, R426) -/

section commands
variable {op : Nat} {v : BitVec 32} (hbar : s.bar0 = true) (hup : s.mgt.mgtFwDown = false) (hop : fld v 3 0 = op)
include hbar hup hop

/-- While a command of a kind runs, another sets REFUSED. -/
theorem State.recCmd_refused (hbusy : ∃ x ∈ s.mgt.recBusy, x.1 = op) (body : State → Nat → State) :
    s.recCmd op v body = { s with mgt := { s.mgt with recRefused := true } } := by
  have hany : (s.mgt.recBusy.any fun x => x.1 = op) = true := by simpa using hbusy
  rw [State.recCmd, if_neg (by simp [hop, hbar, hwork, hup]), if_pos hany]

theorem State.recCmd_taken (hidle : ∀ x ∈ s.mgt.recBusy, x.1 ≠ op) (body : State → Nat → State) :
    s.recCmd op v body = body s (fld v 25 16) := by
  have hany : ¬ (s.mgt.recBusy.any fun x => x.1 = op) = true := fun h => by
    obtain ⟨x, hx, hkind⟩ := List.any_eq_true.1 h
    exact hidle x hx (of_decide_eq_true hkind)
  rw [State.recCmd, if_neg (by simp [hop, hbar, hwork, hup]), if_neg hany]

end commands

section kinds
variable {v : BitVec 32} (hbar : s.bar0 = true) (hup : s.mgt.mgtFwDown = false)
include hbar hup

theorem doFenceCore_taken (hop : fld v 3 0 = 1) (hidle : ∀ x ∈ s.mgt.recBusy, x.1 ≠ 1) (port : Nat) :
    doFenceCore port v s =
      let p := fld v 25 16
      if 880 ≤ p ∨ s.posCode p ≠ 0 then s.recEnd recBadPosition
      else if s.spareOf (p / 11) = none then s.recEnd recNoSpare
      else { s with mgt := { s.mgt with recBusy := s.mgt.recBusy ++ [(1, p)], fenceReq := some p } } := by
  rw [doFenceCore, State.recCmd_taken hwork hbar hup hop hidle]
  simp only [Option.isNone_iff_eq_none]
  rfl

theorem doRetireColumn_taken (hop : fld v 3 0 = 2) (hidle : ∀ x ∈ s.mgt.recBusy, x.1 ≠ 2) (port : Nat) :
    doRetireColumn port v s =
      let p := fld v 25 16
      if 880 ≤ p ∨ p ∈ s.fence.retired then s.recEnd recBadPosition else (s.retireColumn p).recEnd 0 := by
  rw [doRetireColumn, State.recCmd_taken hwork hbar hup hop hidle]
  exact if_congr (by rw [List.contains_iff_mem]) rfl rfl

/-- A retrain begins at once when the pause fits. -/
theorem doRetrainColumn_taken (hop : fld v 3 0 = 3) (hidle : ∀ x ∈ s.mgt.recBusy, x.1 ≠ 3) (port : Nat) :
    doRetrainColumn port v s =
      let p := fld v 25 16
      if 880 ≤ p ∨ p ∈ s.fence.retired then s.recEnd recBadPosition
      else match (s.recStart 3 p).retrainReady with
        | some q => (s.recStart 3 p).startRetrain q
        | none => s.recStart 3 p := by
  rw [doRetrainColumn, State.recCmd_taken hwork hbar hup hop hidle]
  exact if_congr (by rw [List.contains_iff_mem]) rfl rfl

/-- The slot that READ_BLACKBOX names goes to the host, with COUNT zero where its tag does not verify (R424). -/
theorem doReadBlackbox_taken {k : Nat} {h recs : List Byte} (hop : fld v 3 0 = 4) (hidle : ∀ x ∈ s.mgt.recBusy, x.1 ≠ 4)
    (hk : k = if bit v.toNat 4 = true ↔ s.boxSequence 0 < s.boxSequence 1 then 0 else 1)
    (hh : h = Memory.read s.nvs.mem (boxSlot k) 64)
    (hrecs : recs = Memory.read s.nvs.mem (boxSlot k + 0x40) (16 * min 8188 (leAt h 6 2))) (port : Nat) :
    doReadBlackbox port v s = ((s.recStart 4 0).hostWrite port none s.mgt.recAddr.toNat
      (if leAt h 0 4 = 0x58424B42 ∧ padTo 16 (Config.sealBlackBox (leAt h 8 8) (h.take 48 ++ recs)) = h.drop 48 then h ++ recs
       else slice h 0 6 ++ [0, 0] ++ h.drop 8) false).hostAsk port none s.mgt.recAddr.toNat 0 .box := by
  rw [doReadBlackbox, State.recCmd_taken hwork hbar hup hop hidle]
  dsimp only
  rw [askedSlot_eq, ← hk, ← hh, ← hrecs]

theorem doSwitchMgtFw_taken (hop : fld v 3 0 = 5) (hidle : ∀ x ∈ s.mgt.recBusy, x.1 ≠ 5) (port : Nat) :
    doSwitchMgtFw port v s = { s with mgt := { s.mgt with recBusy := s.mgt.recBusy ++ [(5, 0)], mgtFwDown := true } } :=
  State.recCmd_taken hwork hbar hup hop hidle _

theorem doReloadMicrocode_taken (hop : fld v 3 0 = 6) (hidle : ∀ x ∈ s.mgt.recBusy, x.1 ≠ 6) (port : Nat) :
    doReloadMicrocode port v s = { s with mgt := { s.mgt with recBusy := s.mgt.recBusy ++ [(6, 0)] } } :=
  State.recCmd_taken hwork hbar hup hop hidle _

end kinds

/-! ### Live operations (R416, R421) -/

section live
variable {x : Nat × Nat}
  (hfind : s.mgt.recBusy.find? (fun x => (x.1 = 3 && (Tab.get {} s.panCtl x.2).retraining) || x.1 = 5 || (x.1 = 6 && s.thrIdle)) = some x)
include hfind

/-- The oldest operation that can end leaves the list of those that run, and goes on by its kind. -/
theorem doLiveOperationComplete_oldest (ok : Bool) (svn : Nat) (digest : BitVec 512) (key sig : List Byte) :
    doLiveOperationComplete ok svn digest key sig s =
      let t : State := { s with mgt := { s.mgt with recBusy := s.mgt.recBusy.erase x } }
      if x.1 = 3 then
        let u := ((t.updPan x.2 fun m => { m with retraining := false }).recEnd (if ok = true then 0 else recVerifyFailed)).calibrated 1 x.2
        if ok = true then u else u.retireColumn x.2
      else if x.1 = 5 then State.takeOver { t with mgt := { t.mgt with mgtFwDown := false } } 1 ok ⟨svn, digest, key, sig⟩
      else t.takeOver 2 ok ⟨svn, digest, key, sig⟩ := by
  simp only [doLiveOperationComplete, hfind, hwork, Bool.true_eq_false, if_false]

end live

theorem doGranaryInterfaceRetrain_begins {c : Nat} (hc : c < 2) :
    doGranaryInterfaceRetrain c true s = doResolve 4 [96 + c] (s.updGran c fun m => { m with retraining := true }) := by
  rw [doGranaryInterfaceRetrain, if_neg (by simpa [hwork] using hc)]
  rfl

theorem doGranaryInterfaceRetrain_ends {c : Nat} (hc : c < 2) :
    doGranaryInterfaceRetrain c false s = (s.updGran c fun m => { m with retraining := false }).calibrated 2 c := by
  rw [doGranaryInterfaceRetrain, if_neg (by simpa [hwork] using hc)]
  rfl

end

/-- A new copy takes over when it verifies and is not below its floor (R378 to R380). -/
theorem State.takeOver_eq (s : State) (k : Nat) (ok : Bool) (x : FwCopy) :
    s.takeOver k ok x =
      let c := 1 - Tab.get 0 s.sec.active k
      let t : State := { s with sec := { s.sec with flash := Tab.put none (2 * k + c) (some x) s.sec.flash } }
      if ok = false ∨ x.signed = false ∨ x.svn < Tab.get 0 s.sec.floors k then t.recEnd recVerifyFailed
      else { t.recEnd 0 with sec := { t.sec with
        svn := Tab.put 0 k x.svn s.sec.svn, fwDigest := Tab.put 0 k x.digest s.sec.fwDigest, active := Tab.put 0 k c s.sec.active } } := by
  simp only [State.takeOver, Bool.or_eq_true, Bool.not_eq_true', decide_eq_true_eq, or_assoc]

/-- Settles O56: each event and command by the lemma for it; what a live operation does when it ends, by its kind. -/
theorem fencingAndRecovery : Obligations.FencingAndRecovery := by
  intro s hwork
  refine ⟨fun block ok data => ⟨congrArg Host.Outcome.next (doRebuild_granary hwork block ok data),
      congrArg Host.Outcome.next (doRebuild_pan hwork block ok data)⟩, ?hang,
    fun p code hcode hrun => congrArg Host.Outcome.next (doFence_due hwork hcode hrun),
    fun p hfenced hlogical => congrArg Host.Outcome.next (doRename_fenced hwork hfenced hlogical),
    fun p => congrArg Host.Outcome.next (if_pos hwork), ?commands, ?live, ?takeOver,
    fun c hc => ⟨congrArg Host.Outcome.next (doGranaryInterfaceRetrain_begins hwork hc),
      congrArg Host.Outcome.next (doGranaryInterfaceRetrain_ends hwork hc)⟩, fun _ _ => rfl⟩
  case hang =>
    rintro p _ rfl
    refine ⟨fun hrun hfirst hheld => congrArg Host.Outcome.next (doHang_running hwork hrun hfirst hheld), ?_,
      fun t hhung hreads hdue => ?_⟩
    · rintro t _ hhung hreads hdue rfl
      exact congrArg Host.Outcome.next (doHangConfirm_due hwork hhung hreads hdue)
    · obtain ⟨u, hu, hframe, hnet⟩ := doWriteDiscardTimeout_due hwork hhung hreads hdue
      exact ⟨u, congrArg Host.Outcome.next hu, hframe, hnet⟩
  case commands =>
    rintro port v op _ hbar hup hop rfl
    refine ⟨fun hbusy i hi => ?refused, fun hidle => ⟨?_, ?_, ?_, ?_, fun _ => rfl, ?_, ?_⟩⟩
    case refused =>
      simp only [List.mem_cons, Prod.mk.injEq, List.not_mem_nil, or_false] at hi
      obtain ⟨rfl, rfl⟩ | ⟨rfl, rfl⟩ | ⟨rfl, rfl⟩ | ⟨rfl, rfl⟩ | ⟨rfl, rfl⟩ | ⟨rfl, rfl⟩ := hi <;>
        exact congrArg Host.Outcome.next (State.recCmd_refused hwork hbar hup hop hbusy _)
    all_goals subst hop
    · exact fun hop => congrArg Host.Outcome.next (doFenceCore_taken hwork hbar hup hop (hop ▸ hidle) port)
    · exact fun hop => congrArg Host.Outcome.next (doRetireColumn_taken hwork hbar hup hop (hop ▸ hidle) port)
    · exact fun hop => congrArg Host.Outcome.next (doRetrainColumn_taken hwork hbar hup hop (hop ▸ hidle) port)
    · exact fun k h recs hop hk hh hrecs =>
        congrArg Host.Outcome.next (doReadBlackbox_taken hwork hbar hup hop (hop ▸ hidle) hk hh hrecs port)
    · exact fun hop => congrArg Host.Outcome.next (doSwitchMgtFw_taken hwork hbar hup hop (hop ▸ hidle) port)
    · exact fun hop => congrArg Host.Outcome.next (doReloadMicrocode_taken hwork hbar hup hop (hop ▸ hidle) port)
  case live =>
    rintro ok svn digest key sig x _ hfind rfl
    have hends := doLiveOperationComplete_oldest hwork hfind ok svn digest key sig
    refine ⟨fun hretrain => congrArg Host.Outcome.next (hends.trans ?_), fun hfw => congrArg Host.Outcome.next (hends.trans ?_),
      fun hcode => congrArg Host.Outcome.next (hends.trans ?_)⟩
    · cases ok <;> simp [hretrain]
    · simp [hfw]
    · simp [hcode]
  case takeOver =>
    rintro k _ ok x _ rfl rfl
    exact s.takeOver_eq k ok x

end Sys2Proof.Machine
